-- ==== Sys2Proof/Word.lean ====
section
/-!
DEFINITION. Word types and their plainest arithmetic.
-/
namespace Sys2Proof

/-- A 32-bit register or instruction word (R39). -/
abbrev Word := BitVec 32

/-- A 64-bit value held in a register pair (R46). -/
abbrev DWord := BitVec 64

/-- A byte of memory. -/
abbrev Byte := BitVec 8

/-- One (address, byte) pair of a memory (Host.Cell). -/
abbrev CellList := List (Nat × BitVec 8)

/-- A record of a capture log (R135), as the model holds it: kind 0 a fetched packet (function, queue), 1 an inbound frame
(its header), 2 a read of %CYCL or %CYCH (core, TID, ordinal of the read, value); bytes are the packet's or the payload's. -/
structure LogRec where
  kind : Nat
  nums : List Nat
  bytes : List Byte
deriving DecidableEq, Repr

/-- A set of configuration records (R16): a core on the disabled list by its %CORE value, a die d as 2^16 + d; repair maps as
(channel, replaced row) pairs; voltage-frequency tables as (die, quarter, MHz, millivolts). -/
structure ConfigRecords where
  version : Nat
  disabled : List Nat
  repair : List (Nat × Nat)
  voltage : List (Nat × Nat × Nat × Nat)
  device : BitVec 12
  serialNumber : List Byte
  identityKey : List Byte
deriving DecidableEq, Repr

end Sys2Proof
end

