-- ==== Sys2Proof/Syntax.lean ====
section
/-!
DEFINITION. The instruction type: one constructor per row of the opcode table.

The first 236 constructors are the instruction words (R43 to R63); their operands are the fields the table gives
the row, under the table's names, a field of one bit as a Bool.  MOVK carries its literal word (R48).  The others are
the device events of the table, which have no encoding: acts of system software, firmware, peers and engines, with the
operands that say which queue, context, team, core or unit the event is about.
-/
namespace Sys2Proof

inductive Instr where
  /-- NOP (R56). Issues on no pipe, has no effect and pushes no latch entry. -/
  | nop (c : Bool)
  /-- IADD (R288). Writes a + b modulo 2^32. -/
  | iadd (c : Bool) (w : Bool) (d : BitVec 6) (s : BitVec 7) (t : BitVec 7) (p : BitVec 3)
  /-- ISUB (R288). Writes a - b modulo 2^32. -/
  | isub (c : Bool) (w : Bool) (d : BitVec 6) (s : BitVec 7) (t : BitVec 7) (p : BitVec 3)
  /-- IMUL (R288). Writes the low 32 bits of a*b. -/
  | imul (c : Bool) (w : Bool) (d : BitVec 6) (s : BitVec 7) (t : BitVec 7) (p : BitVec 3)
  /-- IMULH (R288). Writes the high word of the signed 64-bit product. -/
  | imulh (c : Bool) (w : Bool) (d : BitVec 6) (s : BitVec 7) (t : BitVec 7) (p : BitVec 3)
  /-- IMULHU (R288). Writes the high word of the unsigned 64-bit product. -/
  | imulhu (c : Bool) (w : Bool) (d : BitVec 6) (s : BitVec 7) (t : BitVec 7) (p : BitVec 3)
  /-- IMAD (R290). Adds a*b to vd in place, modulo 2^32. -/
  | imad (c : Bool) (d : BitVec 6) (s : BitVec 7) (t : BitVec 7) (p : BitVec 3)
  /-- IMIN (R288). Writes the signed minimum. -/
  | imin (c : Bool) (w : Bool) (d : BitVec 6) (s : BitVec 7) (t : BitVec 7) (p : BitVec 3)
  /-- IMAX (R288). Writes the signed maximum. -/
  | imax (c : Bool) (w : Bool) (d : BitVec 6) (s : BitVec 7) (t : BitVec 7) (p : BitVec 3)
  /-- UMIN (R288). Writes the unsigned minimum. -/
  | umin (c : Bool) (w : Bool) (d : BitVec 6) (s : BitVec 7) (t : BitVec 7) (p : BitVec 3)
  /-- UMAX (R288). Writes the unsigned maximum. -/
  | umax (c : Bool) (w : Bool) (d : BitVec 6) (s : BitVec 7) (t : BitVec 7) (p : BitVec 3)
  /-- AND (R288). Writes a AND b. -/
  | and (c : Bool) (w : Bool) (d : BitVec 6) (s : BitVec 7) (t : BitVec 7) (p : BitVec 3)
  /-- OR (R288). Writes a OR b. -/
  | or (c : Bool) (w : Bool) (d : BitVec 6) (s : BitVec 7) (t : BitVec 7) (p : BitVec 3)
  /-- XOR (R288). Writes a XOR b. -/
  | xor (c : Bool) (w : Bool) (d : BitVec 6) (s : BitVec 7) (t : BitVec 7) (p : BitVec 3)
  /-- ANDN (R288). Writes a AND NOT b. -/
  | andn (c : Bool) (w : Bool) (d : BitVec 6) (s : BitVec 7) (t : BitVec 7) (p : BitVec 3)
  /-- SHL (R288). Shifts a left by b[4:0], filling with zeros. -/
  | shl (c : Bool) (w : Bool) (d : BitVec 6) (s : BitVec 7) (t : BitVec 7) (p : BitVec 3)
  /-- SHR (R288). Shifts a right by b[4:0], filling with zeros. -/
  | shr (c : Bool) (w : Bool) (d : BitVec 6) (s : BitVec 7) (t : BitVec 7) (p : BitVec 3)
  /-- SAR (R288). Shifts a right arithmetically by b[4:0]. -/
  | sar (c : Bool) (w : Bool) (d : BitVec 6) (s : BitVec 7) (t : BitVec 7) (p : BitVec 3)
  /-- POPC (R291). Writes the number of one bits of a. -/
  | popc (c : Bool) (w : Bool) (d : BitVec 6) (s : BitVec 7) (p : BitVec 3)
  /-- CLZ (R291). Writes the number of leading zero bits of a. -/
  | clz (c : Bool) (w : Bool) (d : BitVec 6) (s : BitVec 7) (p : BitVec 3)
  /-- BREV (R291). Writes a with its bit order reversed. -/
  | brev (c : Bool) (w : Bool) (d : BitVec 6) (s : BitVec 7) (p : BitVec 3)
  /-- PRMB (R292). Builds each result byte from a byte of a, under the control nibbles of b. -/
  | prmb (c : Bool) (w : Bool) (d : BitVec 6) (s : BitVec 7) (t : BitVec 7) (p : BitVec 3)
  /-- IADDS (R289). Adds with signed saturation and sets OF when the sum saturates. -/
  | iadds (c : Bool) (w : Bool) (d : BitVec 6) (s : BitVec 7) (t : BitVec 7) (p : BitVec 3)
  /-- IDOT4 (R290). Adds the signed four-byte dot product of a and b to vd. -/
  | idot4 (c : Bool) (d : BitVec 6) (s : BitVec 7) (t : BitVec 7) (p : BitVec 3)
  /-- IADD64 (R293). Adds two 64-bit pairs. -/
  | iadd64 (c : Bool) (w : Bool) (d : BitVec 6) (s : BitVec 7) (t : BitVec 7) (p : BitVec 3)
  /-- ISUB64 (R293). Subtracts one 64-bit pair from another. -/
  | isub64 (c : Bool) (w : Bool) (d : BitVec 6) (s : BitVec 7) (t : BitVec 7) (p : BitVec 3)
  /-- IMADW (R290). Adds the signed 64-bit product a*b to the pair at vd. -/
  | imadw (c : Bool) (d : BitVec 6) (s : BitVec 7) (t : BitVec 7) (p : BitVec 3)
  /-- SHL64 (R293). Shifts a 64-bit pair left by b[5:0]. -/
  | shl64 (c : Bool) (w : Bool) (d : BitVec 6) (s : BitVec 7) (t : BitVec 7) (p : BitVec 3)
  /-- ICMP (R295). Compares two 32-bit operands under a condition and writes a predicate. -/
  | icmp (c : Bool) (k : BitVec 3) (q : BitVec 3) (s : BitVec 7) (t : BitVec 7) (p : BitVec 3)
  /-- ICMP64 (R295). Compares two 64-bit pairs under a condition and writes a predicate. -/
  | icmp64 (c : Bool) (k : BitVec 3) (q : BitVec 3) (s : BitVec 7) (t : BitVec 7) (p : BitVec 3)
  /-- SEL (R294). Copies s1 or s2 into vd, as the selecting predicate gives. -/
  | sel (c : Bool) (w : Bool) (d : BitVec 6) (s : BitVec 7) (t : BitVec 7) (k : BitVec 3)
  /-- MOV (R294). Copies a source operand into vd, bits unchanged. -/
  | mov (c : Bool) (w : Bool) (d : BitVec 6) (s : BitVec 7) (p : BitVec 3)
  /-- FADD (R306). Adds two FP32 operands with one rounding. -/
  | fadd (c : Bool) (w : Bool) (d : BitVec 6) (s : BitVec 7) (t : BitVec 7) (p : BitVec 3)
  /-- FSUB (R306). Subtracts two FP32 operands with one rounding. -/
  | fsub (c : Bool) (w : Bool) (d : BitVec 6) (s : BitVec 7) (t : BitVec 7) (p : BitVec 3)
  /-- FMUL (R306). Multiplies two FP32 operands with one rounding. -/
  | fmul (c : Bool) (w : Bool) (d : BitVec 6) (s : BitVec 7) (t : BitVec 7) (p : BitVec 3)
  /-- FFMA (R306). Computes a*b + vd in FP32 with one rounding. -/
  | ffma (c : Bool) (d : BitVec 6) (s : BitVec 7) (t : BitVec 7) (p : BitVec 3)
  /-- FMIN (R307). Writes the IEEE minimumNumber of two FP32 operands. -/
  | fmin (c : Bool) (w : Bool) (d : BitVec 6) (s : BitVec 7) (t : BitVec 7) (p : BitVec 3)
  /-- FMAX (R307). Writes the IEEE maximumNumber of two FP32 operands. -/
  | fmax (c : Bool) (w : Bool) (d : BitVec 6) (s : BitVec 7) (t : BitVec 7) (p : BitVec 3)
  /-- FCMP (R308). Compares two FP32 operands under a condition and writes a predicate. -/
  | fcmp (c : Bool) (k : BitVec 3) (q : BitVec 3) (s : BitVec 7) (t : BitVec 7) (p : BitVec 3)
  /-- FSGN (R309). Writes the magnitude of s1 with the sign bit of s2. -/
  | fsgn (c : Bool) (w : Bool) (d : BitVec 6) (s : BitVec 7) (t : BitVec 7) (p : BitVec 3)
  /-- HADD2 (R310). Adds packed FP16 elements. -/
  | hadd2 (c : Bool) (w : Bool) (d : BitVec 6) (s : BitVec 7) (t : BitVec 7) (p : BitVec 3)
  /-- HMUL2 (R310). Multiplies packed FP16 elements. -/
  | hmul2 (c : Bool) (w : Bool) (d : BitVec 6) (s : BitVec 7) (t : BitVec 7) (p : BitVec 3)
  /-- HFMA2 (R310). Computes a packed FP16 fused multiply-add into vd. -/
  | hfma2 (c : Bool) (d : BitVec 6) (s : BitVec 7) (t : BitVec 7) (p : BitVec 3)
  /-- BADD2 (R310). Adds packed BF16 elements. -/
  | badd2 (c : Bool) (w : Bool) (d : BitVec 6) (s : BitVec 7) (t : BitVec 7) (p : BitVec 3)
  /-- BMUL2 (R310). Multiplies packed BF16 elements. -/
  | bmul2 (c : Bool) (w : Bool) (d : BitVec 6) (s : BitVec 7) (t : BitVec 7) (p : BitVec 3)
  /-- BFMA2 (R310). Computes a packed BF16 fused multiply-add into vd. -/
  | bfma2 (c : Bool) (d : BitVec 6) (s : BitVec 7) (t : BitVec 7) (p : BitVec 3)
  /-- DADD (R311). Adds two FP64 pairs. -/
  | dadd (c : Bool) (w : Bool) (d : BitVec 6) (s : BitVec 7) (t : BitVec 7) (p : BitVec 3)
  /-- DMUL (R311). Multiplies two FP64 pairs. -/
  | dmul (c : Bool) (w : Bool) (d : BitVec 6) (s : BitVec 7) (t : BitVec 7) (p : BitVec 3)
  /-- DFMA (R311). Computes an FP64 fused multiply-add into the destination pair. -/
  | dfma (c : Bool) (d : BitVec 6) (s : BitVec 7) (t : BitVec 7) (p : BitVec 3)
  /-- CVT_I32_F32 (R313). Converts INT32 to FP32. -/
  | cvtI32F32 (c : Bool) (w : Bool) (d : BitVec 6) (s : BitVec 7) (p : BitVec 3)
  /-- CVT_U32_F32 (R313). Converts unsigned 32-bit to FP32. -/
  | cvtU32F32 (c : Bool) (w : Bool) (d : BitVec 6) (s : BitVec 7) (p : BitVec 3)
  /-- CVT_F32_I32 (R314). Converts FP32 to INT32 in the %FRM direction. -/
  | cvtF32I32 (c : Bool) (w : Bool) (d : BitVec 6) (s : BitVec 7) (p : BitVec 3)
  /-- CVT_F32_U32 (R314). Converts FP32 to unsigned 32-bit in the %FRM direction. -/
  | cvtF32U32 (c : Bool) (w : Bool) (d : BitVec 6) (s : BitVec 7) (p : BitVec 3)
  /-- CVT_F32_I32_RZ (R314). Converts FP32 to INT32 toward zero. -/
  | cvtF32I32Rz (c : Bool) (w : Bool) (d : BitVec 6) (s : BitVec 7) (p : BitVec 3)
  /-- CVT_F32_U32_RZ (R314). Converts FP32 to unsigned 32-bit toward zero. -/
  | cvtF32U32Rz (c : Bool) (w : Bool) (d : BitVec 6) (s : BitVec 7) (p : BitVec 3)
  /-- CVT_F32_F16 (R313). Converts FP32 to FP16 and packs it into vd from the top. -/
  | cvtF32F16 (c : Bool) (d : BitVec 6) (s : BitVec 7) (p : BitVec 3)
  /-- CVT_F32_BF16 (R313). Converts FP32 to BF16 and packs it into vd from the top. -/
  | cvtF32Bf16 (c : Bool) (d : BitVec 6) (s : BitVec 7) (p : BitVec 3)
  /-- CVT_F16_F32 (R313). Converts FP16 half 0 or half 1 exactly to FP32. -/
  | cvtF16F32 (c : Bool) (w : Bool) (d : BitVec 6) (s : BitVec 7) (h : Bool) (p : BitVec 3)
  /-- CVT_BF16_F32 (R313). Converts BF16 half 0 or half 1 exactly to FP32. -/
  | cvtBf16F32 (c : Bool) (w : Bool) (d : BitVec 6) (s : BitVec 7) (h : Bool) (p : BitVec 3)
  /-- CVT_F32_E4M3 (R313). Converts FP32 to E4M3 and packs it into vd from the top. -/
  | cvtF32E4m3 (c : Bool) (d : BitVec 6) (s : BitVec 7) (p : BitVec 3)
  /-- CVT_F32_E5M2 (R313). Converts FP32 to E5M2 and packs it into vd from the top. -/
  | cvtF32E5m2 (c : Bool) (d : BitVec 6) (s : BitVec 7) (p : BitVec 3)
  /-- CVT_E4M3_F32 (R313). Converts E4M3 byte j exactly to FP32. -/
  | cvtE4m3F32 (c : Bool) (w : Bool) (d : BitVec 6) (s : BitVec 7) (j : BitVec 2) (p : BitVec 3)
  /-- CVT_E5M2_F32 (R313). Converts E5M2 byte j exactly to FP32. -/
  | cvtE5m2F32 (c : Bool) (w : Bool) (d : BitVec 6) (s : BitVec 7) (j : BitVec 2) (p : BitVec 3)
  /-- CVT_F32_F64 (R313). Converts FP32 exactly to an FP64 pair. -/
  | cvtF32F64 (c : Bool) (w : Bool) (d : BitVec 6) (s : BitVec 7) (p : BitVec 3)
  /-- CVT_F64_F32 (R313). Rounds an FP64 pair to FP32. -/
  | cvtF64F32 (c : Bool) (w : Bool) (d : BitVec 6) (s : BitVec 7) (p : BitVec 3)
  /-- CVT_I32_F64 (R313). Converts INT32 exactly to an FP64 pair. -/
  | cvtI32F64 (c : Bool) (w : Bool) (d : BitVec 6) (s : BitVec 7) (p : BitVec 3)
  /-- CVT_F64_I32 (R314). Converts an FP64 pair to INT32 in the %FRM direction. -/
  | cvtF64I32 (c : Bool) (w : Bool) (d : BitVec 6) (s : BitVec 7) (p : BitVec 3)
  /-- CVT_F64_I32_RZ (R314). Converts an FP64 pair to INT32 toward zero. -/
  | cvtF64I32Rz (c : Bool) (w : Bool) (d : BitVec 6) (s : BitVec 7) (p : BitVec 3)
  /-- SFU_RCP (R315). Computes 1/x on the special-function lanes. -/
  | sfuRcp (c : Bool) (w : Bool) (d : BitVec 6) (s : BitVec 7) (p : BitVec 3)
  /-- SFU_RSQ (R315). Computes 1/√x. -/
  | sfuRsq (c : Bool) (w : Bool) (d : BitVec 6) (s : BitVec 7) (p : BitVec 3)
  /-- SFU_SQRT (R315). Computes √x, correctly rounded under %FRM. -/
  | sfuSqrt (c : Bool) (w : Bool) (d : BitVec 6) (s : BitVec 7) (p : BitVec 3)
  /-- SFU_EX2 (R315). Computes 2^x. -/
  | sfuEx2 (c : Bool) (w : Bool) (d : BitVec 6) (s : BitVec 7) (p : BitVec 3)
  /-- SFU_LG2 (R315). Computes log2 x. -/
  | sfuLg2 (c : Bool) (w : Bool) (d : BitVec 6) (s : BitVec 7) (p : BitVec 3)
  /-- SFU_SIN (R315). Computes sin x. -/
  | sfuSin (c : Bool) (w : Bool) (d : BitVec 6) (s : BitVec 7) (p : BitVec 3)
  /-- SFU_COS (R315). Computes cos x. -/
  | sfuCos (c : Bool) (w : Bool) (d : BitVec 6) (s : BitVec 7) (p : BitVec 3)
  /-- SFU_TANH (R315). Computes tanh x. -/
  | sfuTanh (c : Bool) (w : Bool) (d : BitVec 6) (s : BitVec 7) (p : BitVec 3)
  /-- SFU_SIGM (R315). Computes the logistic sigmoid of x. -/
  | sfuSigm (c : Bool) (w : Bool) (d : BitVec 6) (s : BitVec 7) (p : BitVec 3)
  /-- PLOP (R297). Combines two predicates under one of eight functions and writes a predicate. -/
  | plop (c : Bool) (f : BitVec 3) (q : BitVec 3) (x : BitVec 3) (y : BitVec 3) (p : BitVec 3)
  /-- QSC4_FOLD (R317). Folds one value into a range state pair for 4-bit quantization. -/
  | qsc4Fold (c : Bool) (d : BitVec 6) (s : BitVec 7) (p : BitVec 3)
  /-- QSC4_MERGE (R317). Folds another range state into a range state pair. -/
  | qsc4Merge (c : Bool) (d : BitVec 6) (s : BitVec 7) (p : BitVec 3)
  /-- QSC4_SCALE (R317). Derives the 4-bit scale word from a range state by R37. -/
  | qsc4Scale (c : Bool) (w : Bool) (d : BitVec 6) (s : BitVec 7) (p : BitVec 3)
  /-- QSC8_FOLD (R317). Folds one value into a range state pair for 8-bit quantization. -/
  | qsc8Fold (c : Bool) (d : BitVec 6) (s : BitVec 7) (p : BitVec 3)
  /-- QSC8_MERGE (R317). Folds another range state into a range state pair. -/
  | qsc8Merge (c : Bool) (d : BitVec 6) (s : BitVec 7) (p : BitVec 3)
  /-- QSC8_SCALE (R317). Derives the 8-bit scale word from a range state by R37. -/
  | qsc8Scale (c : Bool) (w : Bool) (d : BitVec 6) (s : BitVec 7) (p : BitVec 3)
  /-- QNT4 (R319). Quantizes one value to a 4-bit code and shifts it into vd from the top. -/
  | qnt4 (c : Bool) (d : BitVec 6) (s : BitVec 7) (t : BitVec 7) (p : BitVec 3)
  /-- QNT8 (R319). Quantizes one value to an 8-bit code and shifts it into vd from the top. -/
  | qnt8 (c : Bool) (d : BitVec 6) (s : BitVec 7) (t : BitVec 7) (p : BitVec 3)
  /-- DQ (R320). Dequantizes the lowest code of s1 exactly to FP32. -/
  | dq (c : Bool) (w : Bool) (d : BitVec 6) (s : BitVec 7) (t : BitVec 7) (p : BitVec 3)
  /-- FCLASS_F32 (R312). Writes the one-hot class mask of an FP32 operand. -/
  | fclassF32 (c : Bool) (w : Bool) (d : BitVec 6) (s : BitVec 7) (p : BitVec 3)
  /-- FCLASS_F16 (R312). Writes the one-hot class mask of an FP16 half. -/
  | fclassF16 (c : Bool) (w : Bool) (d : BitVec 6) (s : BitVec 7) (p : BitVec 3)
  /-- FCLASS_BF16 (R312). Writes the one-hot class mask of a BF16 half. -/
  | fclassBf16 (c : Bool) (w : Bool) (d : BitVec 6) (s : BitVec 7) (p : BitVec 3)
  /-- FCLASS_F64 (R312). Writes the one-hot class mask of an FP64 pair. -/
  | fclassF64 (c : Bool) (w : Bool) (d : BitVec 6) (s : BitVec 7) (p : BitVec 3)
  /-- FCLASS_E4M3 (R312). Writes the one-hot class mask of an E4M3 byte. -/
  | fclassE4m3 (c : Bool) (w : Bool) (d : BitVec 6) (s : BitVec 7) (p : BitVec 3)
  /-- FCLASS_E5M2 (R312). Writes the one-hot class mask of an E5M2 byte. -/
  | fclassE5m2 (c : Bool) (w : Bool) (d : BitVec 6) (s : BitVec 7) (p : BitVec 3)
  /-- SHR64 (R293). Shifts a 64-bit pair right by b[5:0], filling with zeros. -/
  | shr64 (c : Bool) (w : Bool) (d : BitVec 6) (s : BitVec 7) (t : BitVec 7) (p : BitVec 3)
  /-- ADDI (R298). Adds a signed immediate. -/
  | addi (c : Bool) (d : BitVec 6) (s : BitVec 6) (i : BitVec 12)
  /-- MULI (R298). Multiplies by a signed immediate. -/
  | muli (c : Bool) (d : BitVec 6) (s : BitVec 6) (i : BitVec 12)
  /-- ANDI (R298). ANDs with an unsigned immediate. -/
  | andi (c : Bool) (d : BitVec 6) (s : BitVec 6) (i : BitVec 12)
  /-- ORI (R298). ORs with an unsigned immediate. -/
  | ori (c : Bool) (d : BitVec 6) (s : BitVec 6) (i : BitVec 12)
  /-- XORI (R298). XORs with an unsigned immediate. -/
  | xori (c : Bool) (d : BitVec 6) (s : BitVec 6) (i : BitVec 12)
  /-- SHLI (R298). Shifts left by an immediate amount. -/
  | shli (c : Bool) (d : BitVec 6) (s : BitVec 6) (i : BitVec 5)
  /-- SHRI (R298). Shifts right logically by an immediate amount. -/
  | shri (c : Bool) (d : BitVec 6) (s : BitVec 6) (i : BitVec 5)
  /-- SARI (R298). Shifts right arithmetically by an immediate amount. -/
  | sari (c : Bool) (d : BitVec 6) (s : BitVec 6) (i : BitVec 5)
  /-- ICMPI (R298). Compares a register with a sign-extended immediate and writes a predicate. -/
  | icmpi (c : Bool) (k : BitVec 3) (q : BitVec 3) (s : BitVec 6) (i : BitVec 12)
  /-- MOVK (R48). Writes the 32-bit literal held in the next word of the packet into vd. -/
  | movk (c : Bool) (d : BitVec 6) (lit : BitVec 32)
  /-- ADDI64 (R298). Adds a sign-extended immediate to a 64-bit pair. -/
  | addi64 (c : Bool) (d : BitVec 6) (s : BitVec 6) (i : BitVec 12)
  /-- SRD (R299). Reads a special register into vd, taking a %CYCL snapshot where the register is %CYCL. -/
  | srd (c : Bool) (d : BitVec 6) (i : BitVec 12)
  /-- SWR (R299). Writes a special register per thread, rejecting reserved or read-only bits. -/
  | swr (c : Bool) (s : BitVec 6) (i : BitVec 12)
  /-- LDB (R327). Loads a zero-extended global byte. -/
  | ldb (c : Bool) (d : BitVec 6) (a : BitVec 6) (p : BitVec 3) (i : BitVec 9)
  /-- LDH (R327). Loads a zero-extended global half-word. -/
  | ldh (c : Bool) (d : BitVec 6) (a : BitVec 6) (p : BitVec 3) (i : BitVec 9)
  /-- LDW (R327). Loads a global word, parking or faulting by translation. -/
  | ldw (c : Bool) (d : BitVec 6) (a : BitVec 6) (p : BitVec 3) (i : BitVec 9)
  /-- LDD (R327). Loads a global double-word into a pair. -/
  | ldd (c : Bool) (d : BitVec 6) (a : BitVec 6) (p : BitVec 3) (i : BitVec 9)
  /-- LDQ (R327). Loads 16 global bytes into a quad as one access. -/
  | ldq (c : Bool) (d : BitVec 6) (a : BitVec 6) (p : BitVec 3) (i : BitVec 9)
  /-- STB (R327). Stores a byte to global memory. -/
  | stb (c : Bool) (d : BitVec 6) (a : BitVec 6) (p : BitVec 3) (i : BitVec 9)
  /-- STH (R327). Stores a half-word to global memory. -/
  | sth (c : Bool) (d : BitVec 6) (a : BitVec 6) (p : BitVec 3) (i : BitVec 9)
  /-- STW (R327). Stores a word to global memory through the core store queue. -/
  | stw (c : Bool) (d : BitVec 6) (a : BitVec 6) (p : BitVec 3) (i : BitVec 9)
  /-- STD (R327). Stores a pair to global memory. -/
  | std (c : Bool) (d : BitVec 6) (a : BitVec 6) (p : BitVec 3) (i : BitVec 9)
  /-- STQ (R327). Stores a quad to global memory as one access. -/
  | stq (c : Bool) (d : BitVec 6) (a : BitVec 6) (p : BitVec 3) (i : BitVec 9)
  /-- LDWN (R328). Loads a global word without faulting and writes a success predicate. -/
  | ldwn (c : Bool) (d : BitVec 6) (a : BitVec 6) (q : BitVec 3) (i : BitVec 9)
  /-- LDQN (R328). Loads a global quad without faulting and writes a success predicate. -/
  | ldqn (c : Bool) (d : BitVec 6) (a : BitVec 6) (q : BitVec 3) (i : BitVec 9)
  /-- LSW (R327). Loads a scratch word. -/
  | lsw (c : Bool) (d : BitVec 6) (a : BitVec 6) (p : BitVec 3) (i : BitVec 9)
  /-- LSQ (R327). Loads 16 scratch bytes into a quad. -/
  | lsq (c : Bool) (d : BitVec 6) (a : BitVec 6) (p : BitVec 3) (i : BitVec 9)
  /-- SSW (R327). Stores a word to scratch. -/
  | ssw (c : Bool) (d : BitVec 6) (a : BitVec 6) (p : BitVec 3) (i : BitVec 9)
  /-- SSQ (R327). Stores a quad to scratch. -/
  | ssq (c : Bool) (d : BitVec 6) (a : BitVec 6) (p : BitVec 3) (i : BitVec 9)
  /-- AMO_ADD (R330). Atomically adds at the home of a global address and returns the old value. -/
  | amoAdd (c : Bool) (d : BitVec 6) (a : BitVec 6) (o : BitVec 2) (s : BitVec 3) (p : BitVec 2)
  /-- AMO_AND (R330). Atomically ANDs at the home. -/
  | amoAnd (c : Bool) (d : BitVec 6) (a : BitVec 6) (o : BitVec 2) (s : BitVec 3) (p : BitVec 2)
  /-- AMO_OR (R330). Atomically ORs at the home. -/
  | amoOr (c : Bool) (d : BitVec 6) (a : BitVec 6) (o : BitVec 2) (s : BitVec 3) (p : BitVec 2)
  /-- AMO_XOR (R330). Atomically XORs at the home. -/
  | amoXor (c : Bool) (d : BitVec 6) (a : BitVec 6) (o : BitVec 2) (s : BitVec 3) (p : BitVec 2)
  /-- AMO_MIN (R330). Atomically takes the signed minimum at the home. -/
  | amoMin (c : Bool) (d : BitVec 6) (a : BitVec 6) (o : BitVec 2) (s : BitVec 3) (p : BitVec 2)
  /-- AMO_MAX (R330). Atomically takes the signed maximum at the home. -/
  | amoMax (c : Bool) (d : BitVec 6) (a : BitVec 6) (o : BitVec 2) (s : BitVec 3) (p : BitVec 2)
  /-- AMO_UMIN (R330). Atomically takes the unsigned minimum at the home. -/
  | amoUmin (c : Bool) (d : BitVec 6) (a : BitVec 6) (o : BitVec 2) (s : BitVec 3) (p : BitVec 2)
  /-- AMO_UMAX (R330). Atomically takes the unsigned maximum at the home. -/
  | amoUmax (c : Bool) (d : BitVec 6) (a : BitVec 6) (o : BitVec 2) (s : BitVec 3) (p : BitVec 2)
  /-- AMO_XCHG (R330). Atomically exchanges a word at the home. -/
  | amoXchg (c : Bool) (d : BitVec 6) (a : BitVec 6) (o : BitVec 2) (s : BitVec 3) (p : BitVec 2)
  /-- AMO_CAS (R330). Atomically compares and swaps a word at the home. -/
  | amoCas (c : Bool) (d : BitVec 6) (a : BitVec 6) (o : BitVec 2) (s : BitVec 3) (p : BitVec 2)
  /-- AMO_FADD (R330). Atomically adds FP32 under RNE at the home, setting no flag. -/
  | amoFadd (c : Bool) (d : BitVec 6) (a : BitVec 6) (o : BitVec 2) (s : BitVec 3) (p : BitVec 2)
  /-- AMO_BADD2 (R330). Atomically adds two BF16 halves under RNE at the home. -/
  | amoBadd2 (c : Bool) (d : BitVec 6) (a : BitVec 6) (o : BitVec 2) (s : BitVec 3) (p : BitVec 2)
  /-- AMO_ADD64 (R330). Atomically adds a 64-bit value at the home. -/
  | amoAdd64 (c : Bool) (d : BitVec 6) (a : BitVec 6) (o : BitVec 2) (s : BitVec 3) (p : BitVec 2)
  /-- AMO_XCHG64 (R330). Atomically exchanges a 64-bit value at the home. -/
  | amoXchg64 (c : Bool) (d : BitVec 6) (a : BitVec 6) (o : BitVec 2) (s : BitVec 3) (p : BitVec 2)
  /-- AMO_CAS64 (R330). Atomically compares and swaps a 64-bit value at the home. -/
  | amoCas64 (c : Bool) (d : BitVec 6) (a : BitVec 6) (o : BitVec 2) (s : BitVec 3) (p : BitVec 2)
  /-- SAMO_ADD (R332). Adds to a scratch word under its lock bit. -/
  | samoAdd (c : Bool) (d : BitVec 6) (a : BitVec 6) (o : BitVec 2) (s : BitVec 3) (p : BitVec 2)
  /-- SAMO_AND (R332). ANDs a scratch word under its lock bit. -/
  | samoAnd (c : Bool) (d : BitVec 6) (a : BitVec 6) (o : BitVec 2) (s : BitVec 3) (p : BitVec 2)
  /-- SAMO_OR (R332). ORs a scratch word under its lock bit. -/
  | samoOr (c : Bool) (d : BitVec 6) (a : BitVec 6) (o : BitVec 2) (s : BitVec 3) (p : BitVec 2)
  /-- SAMO_XOR (R332). XORs a scratch word under its lock bit. -/
  | samoXor (c : Bool) (d : BitVec 6) (a : BitVec 6) (o : BitVec 2) (s : BitVec 3) (p : BitVec 2)
  /-- SAMO_MIN (R332). Takes the signed minimum of a scratch word under its lock bit. -/
  | samoMin (c : Bool) (d : BitVec 6) (a : BitVec 6) (o : BitVec 2) (s : BitVec 3) (p : BitVec 2)
  /-- SAMO_MAX (R332). Takes the signed maximum of a scratch word under its lock bit. -/
  | samoMax (c : Bool) (d : BitVec 6) (a : BitVec 6) (o : BitVec 2) (s : BitVec 3) (p : BitVec 2)
  /-- SAMO_UMIN (R332). Takes the unsigned minimum of a scratch word under its lock bit. -/
  | samoUmin (c : Bool) (d : BitVec 6) (a : BitVec 6) (o : BitVec 2) (s : BitVec 3) (p : BitVec 2)
  /-- SAMO_UMAX (R332). Takes the unsigned maximum of a scratch word under its lock bit. -/
  | samoUmax (c : Bool) (d : BitVec 6) (a : BitVec 6) (o : BitVec 2) (s : BitVec 3) (p : BitVec 2)
  /-- SAMO_XCHG (R332). Exchanges a scratch word under its lock bit. -/
  | samoXchg (c : Bool) (d : BitVec 6) (a : BitVec 6) (o : BitVec 2) (s : BitVec 3) (p : BitVec 2)
  /-- SAMO_CAS (R332). Compares and swaps a scratch word under its lock bit. -/
  | samoCas (c : Bool) (d : BitVec 6) (a : BitVec 6) (o : BitVec 2) (s : BitVec 3) (p : BitVec 2)
  /-- SAMO_FADD (R332). Adds FP32 to a scratch word under its lock bit. -/
  | samoFadd (c : Bool) (d : BitVec 6) (a : BitVec 6) (o : BitVec 2) (s : BitVec 3) (p : BitVec 2)
  /-- SAMO_BADD2 (R332). Adds BF16 halves to a scratch word under its lock bit. -/
  | samoBadd2 (c : Bool) (d : BitVec 6) (a : BitVec 6) (o : BitVec 2) (s : BitVec 3) (p : BitVec 2)
  /-- SAMO_ADD64 (R332). Adds a 64-bit value in scratch under its lock bit. -/
  | samoAdd64 (c : Bool) (d : BitVec 6) (a : BitVec 6) (o : BitVec 2) (s : BitVec 3) (p : BitVec 2)
  /-- SAMO_XCHG64 (R332). Exchanges a 64-bit value in scratch under its lock bit. -/
  | samoXchg64 (c : Bool) (d : BitVec 6) (a : BitVec 6) (o : BitVec 2) (s : BitVec 3) (p : BitVec 2)
  /-- SAMO_CAS64 (R332). Compares and swaps a 64-bit value in scratch under its lock bit. -/
  | samoCas64 (c : Bool) (d : BitVec 6) (a : BitVec 6) (o : BitVec 2) (s : BitVec 3) (p : BitVec 2)
  /-- LDLK (R332). Takes a scratch lock bit, waiting if it is held, then loads the word. -/
  | ldlk (c : Bool) (d : BitVec 6) (a : BitVec 6) (o : BitVec 2) (s : BitVec 3) (p : BitVec 2)
  /-- STUL (R332). Stores a scratch word and frees its lock bit. -/
  | stul (c : Bool) (d : BitVec 6) (a : BitVec 6) (o : BitVec 2) (s : BitVec 3) (p : BitVec 2)
  /-- BRA (R348). Branches to a packet-relative target. -/
  | bra (p : BitVec 3) (i : BitVec 21)
  /-- CALL (R348). Pushes the return point on the scratch call stack and branches. -/
  | call (p : BitVec 3) (i : BitVec 21)
  /-- RET (R350). Pops the return point from the scratch call stack. -/
  | ret (p : BitVec 3)
  /-- JMPR (R348). Jumps to the packet index held in a register. -/
  | jmpr (p : BitVec 3) (r : BitVec 6)
  /-- ENROL (R88). Adds the issuing threads to the enrolled set of a rejoin mask. -/
  | enrol (c : Bool) (j : BitVec 3) (p : BitVec 3)
  /-- REJOIN (R88). Arrives at a rejoin mask, waiting or releasing every arrived thread. -/
  | rejoin (c : Bool) (j : BitVec 3) (p : BitVec 3)
  /-- STRIKE (R88). Removes the issuing thread from a rejoin mask, releasing the waiters if it completes. -/
  | strike (c : Bool) (j : BitVec 3) (p : BitVec 3)
  /-- YIELD (R352). Puts the thread in WAITING for 16 front cycles. -/
  | yield (c : Bool) (p : BitVec 3)
  /-- SHFL_IDX (R354). Takes the value of the member at rank k. -/
  | shflIdx (c : Bool) (d : BitVec 6) (s : BitVec 6) (m : BitVec 6)
  /-- SHFL_UP (R354). Takes the value of the member k ranks below. -/
  | shflUp (c : Bool) (d : BitVec 6) (s : BitVec 6) (m : BitVec 6)
  /-- SHFL_DN (R354). Takes the value of the member k ranks above. -/
  | shflDn (c : Bool) (d : BitVec 6) (s : BitVec 6) (m : BitVec 6)
  /-- SHFL_XOR (R354). Takes the value of the member at rank XOR k. -/
  | shflXor (c : Bool) (d : BitVec 6) (s : BitVec 6) (m : BitVec 6)
  /-- VOTE_ALL (R355). Writes 1 when every member's value is nonzero. -/
  | voteAll (c : Bool) (d : BitVec 6) (s : BitVec 6) (m : BitVec 6)
  /-- VOTE_ANY (R355). Writes 1 when some member's value is nonzero. -/
  | voteAny (c : Bool) (d : BitVec 6) (s : BitVec 6) (m : BitVec 6)
  /-- VOTE_BALLOT (R355). Writes the lane mask of members with a nonzero value. -/
  | voteBallot (c : Bool) (d : BitVec 6) (s : BitVec 6) (m : BitVec 6)
  /-- VOTE_EQ (R355). Writes 1 when every member's value is equal. -/
  | voteEq (c : Bool) (d : BitVec 6) (s : BitVec 6) (m : BitVec 6)
  /-- REDUX_ADD (R355). Sums the members' values in ascending lane order. -/
  | reduxAdd (c : Bool) (d : BitVec 6) (s : BitVec 6) (m : BitVec 6)
  /-- REDUX_MIN (R355). Takes the signed minimum over the members. -/
  | reduxMin (c : Bool) (d : BitVec 6) (s : BitVec 6) (m : BitVec 6)
  /-- REDUX_MAX (R355). Takes the signed maximum over the members. -/
  | reduxMax (c : Bool) (d : BitVec 6) (s : BitVec 6) (m : BitVec 6)
  /-- REDUX_UMIN (R355). Takes the unsigned minimum over the members. -/
  | reduxUmin (c : Bool) (d : BitVec 6) (s : BitVec 6) (m : BitVec 6)
  /-- REDUX_UMAX (R355). Takes the unsigned maximum over the members. -/
  | reduxUmax (c : Bool) (d : BitVec 6) (s : BitVec 6) (m : BitVec 6)
  /-- REDUX_AND (R355). ANDs the members' values. -/
  | reduxAnd (c : Bool) (d : BitVec 6) (s : BitVec 6) (m : BitVec 6)
  /-- REDUX_OR (R355). ORs the members' values. -/
  | reduxOr (c : Bool) (d : BitVec 6) (s : BitVec 6) (m : BitVec 6)
  /-- REDUX_XOR (R355). XORs the members' values. -/
  | reduxXor (c : Bool) (d : BitVec 6) (s : BitVec 6) (m : BitVec 6)
  /-- MATCH (R355). Writes the mask of members whose value equals the thread's own. -/
  | match (c : Bool) (d : BitVec 6) (s : BitVec 6) (m : BitVec 6)
  /-- MMA_FWD (R243). Queues a forward matrix pass that uses tag slot 0. -/
  | mmaFwd (c : Bool) (a : BitVec 2) (k : Bool) (o : BitVec 6) (x : Bool) (f : BitVec 3) (g : BitVec 5) (m : BitVec 2)
  /-- MMA_FWD2 (R243). Queues a forward pass that combines two tag slots with gate weights. -/
  | mmaFwd2 (c : Bool) (a : BitVec 2) (k : Bool) (o : BitVec 6) (x : Bool) (f : BitVec 3) (g : BitVec 5) (m : BitVec 2)
  /-- MMA_FWDK (R243). Queues a forward pass that offers its outputs to a Sedge set. -/
  | mmaFwdk (c : Bool) (a : BitVec 2) (k : Bool) (o : BitVec 6) (x : Bool) (f : BitVec 3) (g : BitVec 5) (m : BitVec 2)
  /-- MMA_BWD (R243). Queues a backward pass through a transposed bank. -/
  | mmaBwd (c : Bool) (a : BitVec 2) (k : Bool) (o : BitVec 6) (x : Bool) (f : BitVec 3) (g : BitVec 5) (m : BitVec 2)
  /-- MMA_GRAD (R34). Queues a gradient accumulation into the hit banks' accumulators. -/
  | mmaGrad (c : Bool) (a : BitVec 2) (o : BitVec 6) (f : BitVec 3) (g : BitVec 5) (m : BitVec 2)
  /-- BANK_LD (R237). Queues a raw weight load into a bank. -/
  | bankLd (c : Bool) (b : BitVec 2) (s : BitVec 6) (i : BitVec 8) (g : BitVec 5)
  /-- BANK_LDQ (R237). Queues a quantized weight load into a bank. -/
  | bankLdq (c : Bool) (b : BitVec 2) (s : BitVec 6) (i : BitVec 8) (g : BitVec 5)
  /-- BANK_EVICT (R237). Queues the eviction of a bank. -/
  | bankEvict (c : Bool) (b : BitVec 2) (i : BitVec 8) (g : BitVec 5)
  /-- BANK_GZERO (R237). Queues the zeroing of a bank's gradient accumulator. -/
  | bankGzero (c : Bool) (b : BitVec 2) (i : BitVec 8) (g : BitVec 5)
  /-- BANK_GDRAIN (R237). Queues the drain of a bank's gradient accumulator to scratch. -/
  | bankGdrain (c : Bool) (b : BitVec 2) (s : BitVec 6) (i : BitVec 8) (g : BitVec 5)
  /-- BANK_QUERY (R240). Queues the write of the residency record to scratch. -/
  | bankQuery (c : Bool) (b : BitVec 2) (s : BitVec 6) (i : BitVec 8) (g : BitVec 5)
  /-- TOPK_INIT (R249). Queues the emptying of a Sedge set and fixes its k. -/
  | topkInit (c : Bool) (k : Bool) (s : BitVec 2)
  /-- TOPK_READ (R250). Reads a Sedge set into %SELTAG and two registers of every lane. -/
  | topkRead (c : Bool) (s : BitVec 2) (d : BitVec 6)
  /-- CPY (R334). Starts an asynchronous 32-byte global-to-scratch copy under a tag. -/
  | cpy (c : Bool) (a : BitVec 6) (s : BitVec 6) (n : BitVec 6) (t : BitVec 2) (p : BitVec 3)
  /-- CPW (R336). Waits until at most n copies of a tag remain, then raises a pending COPY_FAULT. -/
  | cpw (c : Bool) (t : BitVec 2) (n : BitVec 6)
  /-- TWK_LOAD (R342). Queues a tile-walker job that loads tiles into scratch. -/
  | twkLoad (c : Bool) (r : BitVec 6) (cc : BitVec 6) (g : BitVec 5) (p : BitVec 3)
  /-- TWK_STORE (R342). Queues a tile-walker job that stores tiles to global memory. -/
  | twkStore (c : Bool) (r : BitVec 6) (cc : BitVec 6) (g : BitVec 5) (p : BitVec 3)
  /-- TWK_GATHER (R342). Queues a tile-walker job that gathers indexed rows into scratch. -/
  | twkGather (c : Bool) (r : BitVec 6) (cc : BitVec 6) (g : BitVec 5) (p : BitVec 3)
  /-- TWK_SCATTERADD (R342). Queues a tile-walker job that adds rows atomically into global memory. -/
  | twkScatteradd (c : Bool) (r : BitVec 6) (cc : BitVec 6) (g : BitVec 5) (p : BitVec 3)
  /-- SYNC_INIT (R184). Initialises or re-arms a sync object's expected count. -/
  | syncInit (c : Bool) (s : BitVec 3) (o : BitVec 6) (v : BitVec 6) (p : BitVec 3)
  /-- SYNC_ARRIVE (R184). Releases and arrives at a sync object, returning a token. -/
  | syncArrive (c : Bool) (s : BitVec 3) (o : BitVec 6) (v : BitVec 6) (p : BitVec 3)
  /-- SYNC_WAIT (R184). Waits until a token has passed, then acquires. -/
  | syncWait (c : Bool) (s : BitVec 3) (o : BitVec 6) (v : BitVec 6) (p : BitVec 3)
  /-- SYNC_ARRW (R184). Arrives and then waits on the returned token. -/
  | syncArrw (c : Bool) (s : BitVec 3) (o : BitVec 6) (v : BitVec 6) (p : BitVec 3)
  /-- SYNC_TEST (R184). Tests whether a token has passed, without waiting. -/
  | syncTest (c : Bool) (s : BitVec 3) (o : BitVec 6) (v : BitVec 6) (p : BitVec 3)
  /-- SYNC_REL (R184). Performs a release recorded against the current phase, without arriving. -/
  | syncRel (c : Bool) (s : BitVec 3) (o : BitVec 6) (p : BitVec 3)
  /-- SYNC_ACQ (R184). Acquires on a sync object and returns its phase. -/
  | syncAcq (c : Bool) (s : BitVec 3) (o : BitVec 6) (v : BitVec 6) (p : BitVec 3)
  /-- SYNC_BIND (R184). Binds a memory range to a slot of a sync object. -/
  | syncBind (c : Bool) (s : BitVec 3) (o : BitVec 6) (v : BitVec 6) (p : BitVec 3)
  /-- SYNC_UNBIND (R184). Unbinds a range slot of a sync object. -/
  | syncUnbind (c : Bool) (s : BitVec 3) (o : BitVec 6) (v : BitVec 6) (p : BitVec 3)
  /-- SYNC_EXPECT (R184). Adds further expected arrivals to the current phase. -/
  | syncExpect (c : Bool) (s : BitVec 3) (o : BitVec 6) (v : BitVec 6) (p : BitVec 3)
  /-- SYNC_ERR (R187). Puts an active sync object into the error phase with a cause. -/
  | syncErr (c : Bool) (s : BitVec 3) (o : BitVec 6) (v : BitVec 6) (p : BitVec 3)
  /-- FENCE_REL (R199). Performs a release fence at the given scope. -/
  | fenceRel (c : Bool) (s : BitVec 3) (p : BitVec 3)
  /-- FENCE_ACQ (R199). Performs an acquire fence and invalidates the core's L1. -/
  | fenceAcq (c : Bool) (s : BitVec 3) (p : BitVec 3)
  /-- FENCE_FULL (R199). Performs release, acquire and operand-ready fences together. -/
  | fenceFull (c : Bool) (s : BitVec 3) (p : BitVec 3)
  /-- FENCE_OPRDY (R199). Waits until earlier loads into v registers have landed, before later MMA operand reads. -/
  | fenceOprdy (c : Bool) (p : BitVec 3)
  /-- FENCE_TFENCE (R114). Raises the causes of enabled set flags and of a pending STORE_NACK. -/
  | fenceTfence (c : Bool) (p : BitVec 3)
  /-- NOBJ_CREATE (R169). Creates a named object on the issuing core. -/
  | nobjCreate (c : Bool) (v : BitVec 6) (p : BitVec 3)
  /-- NOBJ_OPEN (R171). Opens a named object for the team and returns its address. -/
  | nobjOpen (c : Bool) (v : BitVec 6) (p : BitVec 3)
  /-- NOBJ_CLOSE (R171). Releases at package scope and closes the object for the whole team. -/
  | nobjClose (c : Bool) (v : BitVec 6) (p : BitVec 3)
  /-- NOBJ_HAND (R175). Hands a solely-opened object to a named core. -/
  | nobjHand (c : Bool) (v : BitVec 6) (p : BitVec 3)
  /-- NOBJ_DROP (R169). Drops a named object, or dooms it while it is open. -/
  | nobjDrop (c : Bool) (v : BitVec 6) (p : BitVec 3)
  /-- NOBJ_QUERY (R171). Returns the QUERY word of a named object. -/
  | nobjQuery (c : Bool) (v : BitVec 6) (p : BitVec 3)
  /-- NOBJ_MIRROR (R177). Sets or cancels a DRAM mirror of an open object, copying it whole. -/
  | nobjMirror (c : Bool) (v : BitVec 6) (p : BitVec 3)
  /-- TASK_PUSH (R379). Releases and pushes a 64-byte task record onto a task queue. -/
  | taskPush (c : Bool) (s : BitVec 3) (v : BitVec 6) (p : BitVec 3)
  /-- TASK_POP (R379). Waits for and pops a task record into scratch, then acquires. -/
  | taskPop (c : Bool) (s : BitVec 3) (v : BitVec 6) (p : BitVec 3)
  /-- TASK_TRYPOP (R379). Pops a task record if one is available, or returns empty status. -/
  | taskTrypop (c : Bool) (s : BitVec 3) (v : BitVec 6) (p : BitVec 3)
  /-- TASK_EOS (R151). Releases and pushes an end-of-stream record. -/
  | taskEos (c : Bool) (s : BitVec 3) (p : BitVec 3)
  /-- TASK_DONE (R150). Releases and decrements a successor counter, pushing the successor at zero. -/
  | taskDone (c : Bool) (s : BitVec 3) (v : BitVec 6) (p : BitVec 3)
  /-- SYS_TRAP (R358). Raises software cause 0xC0 + n. -/
  | sysTrap (c : Bool) (n : BitVec 6) (p : BitVec 3)
  /-- SYS_ERET (R112). Returns from the handler and replays the entries held aside. -/
  | sysEret (c : Bool) (p : BitVec 3)
  /-- SYS_BKPT (R115). Stops the group when a debugger is attached, and has no effect otherwise. -/
  | sysBkpt (c : Bool) (p : BitVec 3)
  /-- SYS_EXIT (R360). Releases at system scope and ends the thread. -/
  | sysExit (c : Bool) (p : BitVec 3)
  /-- SYS_PYLD (R361). Yields the thread while a pre-emption or checkpoint request is pending. -/
  | sysPyld (c : Bool) (p : BitVec 3)
  /-- SYS_CCLR (R362). Clears one cause bit of the group's bitmap. -/
  | sysCclr (c : Bool) (v : BitVec 6) (p : BitVec 3)
  /-- SYS_SLEEP (R361). Puts the thread in WAITING for a number of front cycles. -/
  | sysSleep (c : Bool) (v : BitVec 6) (p : BitVec 3)
  /-- SYS_HALTCTX (R362). Freezes the context from a system team, and raises PRIV otherwise. -/
  | sysHaltctx (c : Bool) (v : BitVec 6) (p : BitVec 3)
  /-- SEND_EMARK (R380). Releases, waits for the writes toward the target to drain, then sends an end marker. -/
  | sendEmark (c : Bool) (v : BitVec 6) (p : BitVec 3)
  /-- REP (R64). Repeats the following word with stepped register fields. -/
  | rep (n : BitVec 6) (d : Bool) (s : Bool) (t : Bool) (l : BitVec 2)
  /-- REGISTER_WRITE (R139). Writes a device register that has no behaviour of its own, such as QBASE, QEVRD, QSTAT, PRQBASE, PRQRD or a route table entry. -/
  | registerWrite (space : Nat) (fn : Nat) (off : Nat) (value : BitVec 64)
  /-- QNOTIFY (R140). Sets a queue's new fetchable limit, or refuses the write and sets NOTERR. -/
  | qnotify (fn : Nat) (q : Nat) (n : BitVec 32)
  /-- QCTL_ENABLE (R139). Enables a queue, or fails and sets NOTERR. -/
  | qctlEnable (fn : Nat) (q : Nat) (v : BitVec 32)
  /-- QCTL_DISABLE (R143). Stops fetching at the next packet boundary and discards the fetchable limit. -/
  | qctlDisable (fn : Nat) (q : Nat) (v : BitVec 32)
  /-- QCTL_RESUME (R139). Fetches a halted queue's halting packet again. -/
  | qctlResume (fn : Nat) (q : Nat) (v : BitVec 32)
  /-- QCTL_SKIP (R139). Marks the halting packet SKIPPED and resumes at the next packet. -/
  | qctlSkip (fn : Nat) (q : Nat) (v : BitVec 32)
  /-- PACKET_NOP (R142). A fetched NOP packet completes DONE at once. -/
  | packetNop (fn : Nat) (q : Nat)
  /-- PACKET_LAUNCH (R142). A fetched LAUNCH packet is validated, and its launch is dispatched. -/
  | packetLaunch (fn : Nat) (q : Nat)
  /-- PACKET_SIGNAL (R142). A fetched SIGNAL packet holds the queue until every earlier packet is complete. -/
  | packetSignal (fn : Nat) (q : Nat)
  /-- PACKET_WAITVAL (R142). A fetched WAITVAL packet stops later fetching until its condition holds. -/
  | packetWaitval (fn : Nat) (q : Nat)
  /-- PACKET_CHECKPOINT (R142). A fetched CHECKPOINT packet holds the queue until earlier packets complete. -/
  | packetCheckpoint (fn : Nat) (q : Nat)
  /-- HELD_PACKET_DISPATCH (R143). Once every earlier packet is complete, dispatches a held packet: performs a SIGNAL's release and store, or issues a checkpoint request. -/
  | heldPacketDispatch (fn : Nat) (q : Nat)
  /-- WAITVAL_MET (R142). The watched word meets the condition; the packet completes DONE and fetching resumes. -/
  | waitvalMet (fn : Nat) (q : Nat)
  /-- WAITVAL_TIMEOUT (R142). The TIMEOUT of a WAITVAL passes; the packet completes WAIT_TIMEOUT. -/
  | waitvalTimeout (fn : Nat) (q : Nat)
  /-- FUNCTION_LEVEL_RESET (R146). Disables every queue of a function and aborts its fetched packets. -/
  | functionLevelReset (fn : Nat)
  /-- QUEUE_THAW (R147). Firmware thaws a function's frozen queues. -/
  | queueThaw (fn : Nat)
  /-- VF_ASSIGN (R138). Assigns a context to a virtual function. -/
  | vfAssign (ctx : Nat) (fn : Nat)
  /-- VF_WITHDRAW (R138). Withdraws a context's assignment from a virtual function, or refuses it. -/
  | vfWithdraw (ctx : Nat) (fn : Nat)
  /-- TENANT_TABLE_WRITE (R152). Firmware writes an entry of the tenant table. -/
  | tenantTableWrite (ix : Nat) (valid : Bool) (frozen : Bool) (srcdev : BitVec 12) (tag : BitVec 16) (reclo : BitVec 56) (rechi : BitVec 56) (func : BitVec 8) (queue : BitVec 4) (maxgrid : BitVec 32)
  /-- CHUNK_REQUEST (R161). A die's Heron asks the master for a chunk of cluster indices. -/
  | chunkRequest (launch : Nat) (die : Nat)
  /-- CLUSTER_PLACE (R159). Heron places a cluster on a rectangle of cores once room exists. -/
  | clusterPlace (launch : Nat) (die : Nat)
  /-- COR_RESERVATION_COMPLETE (R160). All reserved space of a COR launch is held, and every team is placed. -/
  | corReservationComplete (launch : Nat)
  /-- DISPATCH_ROUND_EXPIRY (R173). A 1,024-cycle dispatch round of a drawn cluster ends, and the WAITMAX rules apply. -/
  | dispatchRoundExpiry (launch : Nat)
  /-- OBJECT_COPY_COMPLETE (R169). A move or hand-over copy completes; the object is RESIDENT on its target with k = 0. -/
  | objectCopyComplete (ctx : Nat) (name : BitVec 64)
  /-- OBJECT_RESTORE_COMPLETE (R169). A restore copy completes, and the object becomes RESIDENT. -/
  | objectRestoreComplete (ctx : Nat) (name : BitVec 64)
  /-- DIE_FENCE (R163). Firmware fences a die: launches reissue or end with DIE_LOST, and its pages are lost. -/
  | dieFence (die : Nat)
  /-- DIRECTORY_REBUILD_COMPLETE (R168). The rebuild of name-directory entries on their new home die completes. -/
  | directoryRebuildComplete (die : Nat)
  /-- CORE_LOST (R179). Firmware fences a lost core, ends its teams, and restores or loses its objects. -/
  | coreLost (core : Nat)
  /-- LAUNCH_COMPLETE (R164). After the last team ends, releases and stores SIGVAL, then writes the packet's STATUS. -/
  | launchComplete (launch : Nat)
  /-- CONTEXT_CREATE (R118). Validates a context descriptor and binds the context id. -/
  | contextCreate (desc : List (BitVec 8))
  /-- CONTEXT_CONFIG_WRITE (R118). Writes context descriptor fields such as limits and the mode table. -/
  | contextConfigWrite (ctx : Nat) (off : Nat) (bytes : List (BitVec 8))
  /-- PREEMPT_REQUEST (R120). Sets %PREQ.REQ on every core that holds a team of the context. -/
  | preemptRequest (ctx : Nat)
  /-- PREEMPT_WITHDRAW (R120). Withdraws a pre-emption request before any save has begun. -/
  | preemptWithdraw (ctx : Nat)
  /-- PREEMPT_DEADLINE (R125). The pre-emption deadline passes, and a team is saved at instruction level. -/
  | preemptDeadline (team : Nat)
  /-- CONTEXT_RESUME (R128). Resumes a saved context and readmits its teams. -/
  | contextResume (ctx : Nat)
  /-- CHECKPOINT_REQUEST (R120). Requests a checkpoint generation of a context. -/
  | checkpointRequest (ctx : Nat) (base : Bool)
  /-- CHECKPOINT_RECORDED (R133). A generation is written locally and acknowledged by the buddy. -/
  | checkpointRecorded (ctx : Nat) (buddyOk : Bool)
  /-- CONTEXT_THAW (R131). Firmware thaws a frozen context, and teams resume at their runs. -/
  | contextThaw (ctx : Nat)
  /-- RESTORE_REQUEST (R134). Restores a context from its checkpoint generations. -/
  | restoreRequest (ctx : Nat)
  /-- CONTEXT_TEARDOWN (R137). Tears down a context and moves it to SCRUBBING. -/
  | contextTeardown (ctx : Nat)
  /-- CORE_REASSIGN (R121). Spills objects with k = 0 and scrubs a core before it passes to another context. -/
  | coreReassign (core : Nat) (ctx : Nat)
  /-- SCRUB_COMPLETE (R122). A core's scrub finishes, and the next launch may use it once its ramp has ended. -/
  | scrubComplete (core : Nat)
  /-- AGEMAX_EXCEEDED (R86). A path's age passes AGEMAX, and the picker issues the oldest such path. -/
  | agemaxExceeded (core : Nat)
  /-- TEAM_SWAP (R96). Parked threads pass SWAPFRAC for SWAPCYC while another team waits, and a swap begins. -/
  | teamSwap (team : Nat)
  /-- TEAM_SAVE_COMPLETE (R100). A team's save finishes, and its space is freed or lent. -/
  | teamSaveComplete (team : Nat)
  /-- TEAM_READMIT (R98). Readmits an eligible swapped team and replays its records. -/
  | teamReadmit (team : Nat)
  /-- READMIT_ROUND_EXPIRY (R98). The dispatch round after a failed readmission ends, and another core of the die may be used. -/
  | readmitRoundExpiry (team : Nat)
  /-- CONVERGENCE_TIMEOUT (R90). The convergence limit passes, raising CONVERGE_TIMEOUT or ILLEGAL_CONVERGENCE. -/
  | convergenceTimeout (team : Nat) (grp : Nat) (pkt : BitVec 32) (slot : Nat)
  /-- LOAD_LAND (R57). A load's data lands in its destination registers and releases waiting threads. -/
  | loadLand (core : Nat) (ix : Nat)
  /-- TEAM_KILL_DRAINED (R109). In-flight engine work and acknowledgements drain, and the killed team's resources are freed. -/
  | teamKillDrained (team : Nat)
  /-- DEBUG_STOP_REQUEST (R115). A debugger requests that a group stop. -/
  | debugStopRequest (team : Nat) (grp : Nat)
  /-- GROUP_STOPPED (R115). Every thread has ceased and nothing is in flight, so the group is STOPPED. -/
  | groupStopped (team : Nat) (grp : Nat)
  /-- DEBUG_WRITE (R116). A debugger writes thread state of a stopped group, or is refused. -/
  | debugWrite (team : Nat) (tid : Nat) (what : Nat) (ix : Nat) (value : BitVec 32)
  /-- DEBUG_RESUME (R117). Resumes a stopped group at the first word of each thread's run. -/
  | debugResume (team : Nat) (grp : Nat)
  /-- ENGINE_WORD_START (R235). The next engine-queue word starts once its condition holds. -/
  | engineWordStart (core : Nat)
  /-- MMA_COMPLETE (R251). An MMA's outputs are performed; its flags are ORed in and it arrives or errors. -/
  | mmaComplete (core : Nat)
  /-- BANK_LOAD_COMPLETE (R237). The last cell of a bank load is written, and the bank becomes RESIDENT. -/
  | bankLoadComplete (core : Nat) (bank : Nat)
  /-- BANK_DRAIN_COMPLETE (R237). A gradient drain is performed; the accumulator is zeroed and arrives. -/
  | bankDrainComplete (core : Nat) (bank : Nat)
  /-- BANK_QUERY_COMPLETE (R237). The QUERY record is performed, and the word arrives. -/
  | bankQueryComplete (core : Nat)
  /-- TWK_JOB_START (R343). A queued tile-walker job starts when fewer than four run. -/
  | twkJobStart (core : Nat)
  /-- TWK_TILE_DONE (R342). A tile of a walker job is moved, or pauses at a translation cause. -/
  | twkTileDone (core : Nat) (job : Nat)
  /-- TWK_JOB_COMPLETE (R343). The last tile is performed, and the job arrives on its sig object. -/
  | twkJobComplete (core : Nat) (job : Nat)
  /-- CPY_RETIRE (R334). A copy's write is performed, its tag count falls and its range may retire. -/
  | cpyRetire (core : Nat) (ix : Nat)
  /-- ACK_RECEIVE (R197). An acknowledgement or NACK of a counted write arrives and decrements %ACKN. -/
  | ackReceive (core : Nat) (ix : Nat) (nack : Bool)
  /-- LOCK_RETRY (R332). A waiting lock taker retries every four front cycles. -/
  | lockRetry (team : Nat) (tid : Nat)
  /-- YIELD_EXPIRY (R352). The 16 cycles of a YIELD pass, and the thread becomes ready. -/
  | yieldExpiry (team : Nat) (tid : Nat)
  /-- SLEEP_EXPIRY (R361). A SYS.SLEEP count ends, and the thread becomes ready. -/
  | sleepExpiry (team : Nat) (tid : Nat)
  /-- PAGE_REQUEST_POST (R220). Firmware writes an ABSENT, MOVED, LOST or RECLAIMED record to the page-request ring once it has room. -/
  | pageRequestPost
  /-- RESOLVE_RESOLVED (R221). A RESOLVE write with RESOLVED releases everything waiting on the page. -/
  | resolveResolved (ctx : Nat) (va : BitVec 56)
  /-- RESOLVE_REFUSE_KILL (R221). A RESOLVE write with REFUSE_KILL ends the parked teams and faults the waiting copies and jobs. -/
  | resolveRefuseKill (ctx : Nat) (va : BitVec 56)
  /-- RESOLVE_REFUSE_FREEZE (R221). A RESOLVE write with REFUSE_FREEZE freezes the context and keeps everything held. -/
  | resolveRefuseFreeze (ctx : Nat) (va : BitVec 56)
  /-- FRAMEOP_GRANT (R226). Adds a frame to its channel's Sluice pool. -/
  | frameopGrant (value : BitVec 64)
  /-- FRAMEOP_RECLAIM (R226). Takes a frame back from the Sluice pool and reports RECLAIMED. -/
  | frameopReclaim (value : BitVec 64)
  /-- RANGE_INVALIDATE_REQUEST (R224). Starts a range invalidation of a context's translations and cached lines. -/
  | rangeInvalidateRequest (ctx : Nat) (base : BitVec 64) (len : BitVec 64)
  /-- RANGE_INVALIDATE_COMPLETE (R224). A range invalidation completes, and firmware reports it. -/
  | rangeInvalidateComplete (ix : Nat)
  /-- BACKGROUND_WALK_COMPLETE (R218). A background walk ends, filling both TLBs when it finds a valid entry. -/
  | backgroundWalkComplete (die : Nat) (ix : Nat)
  /-- SLUICE_EPOCH_END (R227). At the end of an epoch, Sluice scores pages and replicates, migrates or leaves them. -/
  | sluiceEpochEnd (die : Nat) (depths : List Nat)
  /-- MIGRATION_COMPLETE (R228). A page copy completes; the PTE is swapped, invalidated and MOVED is posted. -/
  | migrationComplete (ix : Nat)
  /-- PORT_ENABLE (R259). Firmware enables an Ngaser port, and training starts. -/
  | portEnable (port : Nat)
  /-- TRAINING_COMPLETE (R259). Port training ends UP, DEGRADED or DOWN. -/
  | trainingComplete (port : Nat) (lanes : BitVec 8)
  /-- TRAINING_RETRY_TIMER (R259). A DOWN port retries training after 2^20 link cycles. -/
  | trainingRetryTimer (port : Nat)
  /-- LANE_FAULT (R259). A lane loses lock or the FEC error rate passes the limit, so the port retrains. -/
  | laneFault (port : Nat)
  /-- PORT_FENCE (R259). A port is fenced by firmware or after too many retrains. -/
  | portFence (port : Nat)
  /-- PORT_UNFENCE (R259). Firmware unfences a port, which goes DOWN. -/
  | portUnfence (port : Nat)
  /-- FRAME_RESEND_TIMEOUT (R261). An unacknowledged frame is resent, or its destination becomes unreachable. -/
  | frameResendTimeout (ix : Nat)
  /-- ROUTE_DETOUR (R257). After 64 lane cycles of XOFF on the x hop, a packet takes the y hop. -/
  | routeDetour (src : Nat) (dst : Nat)
  /-- FRAME_LNACK (R261). A received LNACK makes the sender resend the missing frames. -/
  | frameLnack (hdr : BitVec 256) (payload : List (BitVec 8))
  /-- FRAME_ACKONLY (R261). A received ACKONLY frame releases covered frames. -/
  | frameAckonly (hdr : BitVec 256) (payload : List (BitVec 8))
  /-- FRAME_READ (R263). A received READ is looked up, translated and answered. -/
  | frameRead (hdr : BitVec 256) (payload : List (BitVec 8))
  /-- FRAME_WRITE (R263). A received WRITE is performed at most once and answered with WRACK. -/
  | frameWrite (hdr : BitVec 256) (payload : List (BitVec 8))
  /-- FRAME_ATOMIC (R263). A received ATOMIC is performed at the home and answered. -/
  | frameAtomic (hdr : BitVec 256) (payload : List (BitVec 8))
  /-- FRAME_RESP (R265). A received response completes a remote load or atomic. -/
  | frameResp (hdr : BitVec 256) (payload : List (BitVec 8))
  /-- FRAME_WRACK (R265). A received WRACK acknowledges or NACKs a remote store. -/
  | frameWrack (hdr : BitVec 256) (payload : List (BitVec 8))
  /-- FRAME_MARKER (R266). A received end marker counts as one ARRIVE on its target object. -/
  | frameMarker (hdr : BitVec 256) (payload : List (BitVec 8))
  /-- FRAME_LAUNCH (R153). A received launch message is checked against the tenant table and queued or NACKed. -/
  | frameLaunch (hdr : BitVec 256) (payload : List (BitVec 8))
  /-- FRAME_LAUNCHNACK (R153). A received refusal of an inbound launch. -/
  | frameLaunchnack (hdr : BitVec 256) (payload : List (BitVec 8))
  /-- REMOTE_TIMEOUT (R265). A remote access gets no answer in 262,144 front cycles. -/
  | remoteTimeout (core : Nat) (txid : BitVec 32)
  /-- CLOCK_SETTING_REQUEST (R269). Requests a quarter's clock setting, which is applied or refused. -/
  | clockSettingRequest (die : Nat) (quarter : Nat) (front : Nat) (ratio : Nat)
  /-- CLOCK_RELOCK_COMPLETE (R269). The clocks relock, and issue resumes. -/
  | clockRelockComplete (die : Nat) (quarter : Nat)
  /-- PCAP_WRITE (R270). The hall controller writes the package power cap. -/
  | pcapWrite (watts : Nat)
  /-- SLEW_WRITE (R272). Bittern writes a die's SLEW and CLOAD. -/
  | slewWrite (die : Nat) (slew : Nat) (cload : Nat)
  /-- SLOPE_STEP (R271). A 1,024-cycle slope step ends; S is recomputed and placements, COR starts and releases advance. -/
  | slopeStep (die : Nat) (load : Nat)
  /-- POWER_ON_BOOT (R278). Verifies images, reads configuration records, scrubs cores and shows the functions; plugins are the digests of the plug-ins. -/
  | powerOnBoot (monitorA : Bool) (imagesA : Bool) (monitorB : Bool) (imagesB : Bool) (recordsOk : Bool) (plugins : List (List (BitVec 8)))
  /-- IMAGE_WRITE (R280). Writes a firmware image into a slot, which becomes PENDING; the same procedure writes a set of
  configuration records (R17). -/
  | imageWrite (slot : Nat) (image : List (BitVec 8) × Option ConfigRecords) (sigOk : Bool)
  /-- LIVE_UPDATE (R284). Quiesces, verifies and hands over to a PENDING image. -/
  | liveUpdate (sigOk : Bool)
  /-- UPDATE_HEARTBEAT (R280). The new image's first heartbeat makes its slot ACTIVE. -/
  | updateHeartbeat
  /-- HEARTBEAT_TIMEOUT (R284). A missed heartbeat fails the slot and restarts the old image. -/
  | heartbeatTimeout
  /-- PLUGIN_TIMEOUT (R277). A plug-in that exceeds its cycle budget or faults is unloaded. -/
  | pluginTimeout (tenant : Nat)
  /-- GET_VERSION (R282). Answers the SPDM GET_VERSION request. -/
  | getVersion
  /-- GET_CAPABILITIES (R282). Answers the SPDM GET_CAPABILITIES request. -/
  | getCapabilities
  /-- NEGOTIATE_ALGORITHMS (R282). Answers the SPDM NEGOTIATE_ALGORITHMS request. -/
  | negotiateAlgorithms
  /-- GET_DIGESTS (R282). Answers the SPDM GET_DIGESTS request. -/
  | getDigests
  /-- GET_CERTIFICATE (R282). Answers the SPDM GET_CERTIFICATE request. -/
  | getCertificate
  /-- CHALLENGE (R282). Answers an SPDM CHALLENGE with an XMSS signature. -/
  | challenge (nonce : BitVec 256)
  /-- GET_MEASUREMENTS (R282). Returns the measurement blocks. -/
  | getMeasurements (ix : Nat)
  /-- WAKE_FRAME (R283). A management frame that matches a filter entry is held and wakes control core 0. -/
  | wakeFrame (frame : List (BitVec 8))
  /-- RESERVED_ENCODING (R67). A bundle issues a word that is not an instruction and raises ILLEGAL_OPCODE, ILLEGAL_FIELD or REP_TARGET exactly. -/
  | reservedEncoding (code : BitVec 8)
  /-- RESERVED_TYPE_PACKET (R144). A fetched packet of reserved TYPE is malformed, so the queue halts at it. -/
  | reservedTypePacket (fn : Nat) (q : Nat)
  /-- DISCARDED_FRAME (R260). A received Ngaser frame with a failed CRC, a reserved TYPE or a nonzero zero field is discarded and treated as lost. -/
  | discardedFrame (hdr : BitVec 256) (payload : List (BitVec 8)) (crc : BitVec 32)
  /-- UNREACHABLE_CLEAR (R261). Firmware clears a sender's unreachable state for a destination device. -/
  | unreachableClear (dev : BitVec 12)
  /-- POWER_LOSS (R285). Power is lost, dropping all volatile state; a signing index already written is lost, and an interrupted update boots from the ACTIVE slot. -/
  | powerLoss
  /-- RESTORE_COMPLETE (R134). Restore finishes applying generations: the context becomes SAVED with its checkpointed queue pointers, or FAILED when no generation is valid; bad names the generations whose local copy and whose buddy copy fail. -/
  | restoreComplete (ctx : Nat) (bad : List Nat × List Nat) (tagBad : Bool)
  /-- CONTEXT_REPLAY (R136). System software creates a context from a checkpoint generation and a capture log and runs it with DET forced on; src is the context and the generation. -/
  | contextReplay (desc : List (BitVec 8)) (src : Nat × Nat) (log : List LogRec)
  /-- DEBUGGER_ATTACH (R115). A debugger attaches to or detaches from a context through firmware, which decides whether SYS.BKPT stops a group. -/
  | debuggerAttach (ctx : Nat) (attach : Bool)
  /-- CONTROL_CORE_WAKE (R283). Control core 0 finishes waking and receives the held management frames. -/
  | controlCoreWake
deriving DecidableEq, Repr

end Sys2Proof
end

