-- ==== Sys2Proof/Machine/Fields.lean ====
section
/-!
DEFINITION. What each word's fields name: the registers it reads and writes, its source codes, its predicate
destinations and its limited fields; and from that the ILLEGAL_FIELD checks (R42 to R55, R78) and the registers a word
touches (R57, R93).
-/
namespace Sys2Proof.Machine

/-- One operand of a word. -/
inductive Operand where
  /-- Destination of n registers, aligned to n, or none with w (R43, R46). -/
  | dst (r n : Nat) (w : Bool)
  /-- Registers r.. read, aligned to n. -/
  | rd (r n : Nat)
  /-- Registers r.. written, aligned to n. -/
  | wr (r n : Nat)
  /-- Registers r.. read and written, aligned to n. -/
  | rw (r n : Nat)
  /-- Registers r.. of a block that needs no alignment, read. -/
  | blk (r n : Nat)
  /-- A 32-bit source code (R44). -/
  | src (code : Nat)
  /-- A 64-bit source: an even register or a constant (R46, R293). -/
  | srcPair (code : Nat)
  /-- A source that must be a register or latch (R312, R313). -/
  | srcRL (code : Nat)
  /-- A source that must be an even register pair (R317). -/
  | srcRegPair (code : Nat)
  /-- A destination predicate, not p0 (R43, R49). -/
  | pdst (q : Nat)
  /-- A field that must lie in lo to hi (R78: scopes). -/
  | range (v lo hi : Nat)
  /-- A field that must not hold bad (R78: miss = 3). -/
  | differs (v bad : Nat)
  /-- A sync object and its scope (R373). -/
  | obj (o scope : Nat)
  /-- A special-register number, written or read (R299, R300). -/
  | sr (n : Nat) (write : Bool)
deriving DecidableEq, Repr

/-- Special registers of R300. -/
def srKnown (n : Nat) : Bool :=
  n <= 0x00D || (0x010 <= n && n <= 0x018) || n = 0x020 || n = 0x021 || (0x030 <= n && n <= 0x034)
    || (0x038 <= n && n <= 0x03A) || (0x040 <= n && n <= 0x04D) || n = 0x050 || n = 0x051

/-- Special registers that SWR may write (R300). -/
def srWritable (n : Nat) : Bool :=
  (0x030 <= n && n <= 0x034) || (0x038 <= n && n <= 0x03A) || (0x048 <= n && n <= 0x04A)

/-- The scope a SYNC object's kind has (R373); none for obj6 56 to 63. -/
def syncScope (o : Nat) : Option Nat :=
  if o < 32 then some 1 else if o < 48 then some 2 else if o < 56 then some 4 else none

/-- Registers r to r + n - 1 are aligned to n and lie below NREG. -/
def regsOk (nreg r n : Nat) : Bool := r % n = 0 && r + n <= nreg

/-- One operand keeps R42 to R55 and R78 for a thread with this NREG. -/
def Operand.ok (nreg : Nat) : Operand → Bool
  | .dst r n w => if w then r = 0 else regsOk nreg r n
  | .rd r n | .wr r n | .rw r n => regsOk nreg r n
  | .blk r n => r + n <= nreg
  | .src c => if c < 0x40 then c < nreg else c != 0x7F
  | .srcPair c => if c < 0x40 then regsOk nreg c 2 else 0x44 <= c && c != 0x7F
  | .srcRL c => if c < 0x40 then c < nreg else c < 0x44
  | .srcRegPair c => c < 0x40 && regsOk nreg c 2
  | .pdst q => q != 0
  | .range v lo hi => lo <= v && v <= hi
  | .differs v bad => v != bad
  | .obj o sc => syncScope o = some sc
  | .sr n b => srKnown n && (!b || srWritable n)

/-- Registers r to r + n - 1. -/
def regSpan (r n : Nat) : List Nat := (List.range n).map (r + ·)

/-- Registers an operand reads or writes. -/
def Operand.regs : Operand → List Nat
  | .dst r n w => if w then [] else regSpan r n
  | .rd r n | .wr r n | .rw r n | .blk r n => regSpan r n
  | .src c | .srcRL c => if c < 0x40 then [c] else []
  | .srcPair c | .srcRegPair c => if c < 0x40 then [c, c + 1] else []
  | _ => []

/-- The operands of each word; a device event has none. -/
def operands : Instr → List Operand
  | .nop _ => []
  | .iadd _ w d s t _ => [.dst d.toNat 1 w, .src s.toNat, .src t.toNat]
  | .isub _ w d s t _ => [.dst d.toNat 1 w, .src s.toNat, .src t.toNat]
  | .imul _ w d s t _ => [.dst d.toNat 1 w, .src s.toNat, .src t.toNat]
  | .imulh _ w d s t _ => [.dst d.toNat 1 w, .src s.toNat, .src t.toNat]
  | .imulhu _ w d s t _ => [.dst d.toNat 1 w, .src s.toNat, .src t.toNat]
  | .imad _ d s t _ => [.rw d.toNat 1, .src s.toNat, .src t.toNat]
  | .imin _ w d s t _ => [.dst d.toNat 1 w, .src s.toNat, .src t.toNat]
  | .imax _ w d s t _ => [.dst d.toNat 1 w, .src s.toNat, .src t.toNat]
  | .umin _ w d s t _ => [.dst d.toNat 1 w, .src s.toNat, .src t.toNat]
  | .umax _ w d s t _ => [.dst d.toNat 1 w, .src s.toNat, .src t.toNat]
  | .and _ w d s t _ => [.dst d.toNat 1 w, .src s.toNat, .src t.toNat]
  | .or _ w d s t _ => [.dst d.toNat 1 w, .src s.toNat, .src t.toNat]
  | .xor _ w d s t _ => [.dst d.toNat 1 w, .src s.toNat, .src t.toNat]
  | .andn _ w d s t _ => [.dst d.toNat 1 w, .src s.toNat, .src t.toNat]
  | .shl _ w d s t _ => [.dst d.toNat 1 w, .src s.toNat, .src t.toNat]
  | .shr _ w d s t _ => [.dst d.toNat 1 w, .src s.toNat, .src t.toNat]
  | .sar _ w d s t _ => [.dst d.toNat 1 w, .src s.toNat, .src t.toNat]
  | .popc _ w d s _ => [.dst d.toNat 1 w, .src s.toNat]
  | .clz _ w d s _ => [.dst d.toNat 1 w, .src s.toNat]
  | .brev _ w d s _ => [.dst d.toNat 1 w, .src s.toNat]
  | .prmb _ w d s t _ => [.dst d.toNat 1 w, .src s.toNat, .src t.toNat]
  | .iadds _ w d s t _ => [.dst d.toNat 1 w, .src s.toNat, .src t.toNat]
  | .idot4 _ d s t _ => [.rw d.toNat 1, .src s.toNat, .src t.toNat]
  | .iadd64 _ w d s t _ => [.dst d.toNat 2 w, .srcPair s.toNat, .srcPair t.toNat]
  | .isub64 _ w d s t _ => [.dst d.toNat 2 w, .srcPair s.toNat, .srcPair t.toNat]
  | .imadw _ d s t _ => [.rw d.toNat 2, .src s.toNat, .src t.toNat]
  | .shl64 _ w d s t _ => [.dst d.toNat 2 w, .srcPair s.toNat, .src t.toNat]
  | .icmp _ _ q s t _ => [.pdst q.toNat, .src s.toNat, .src t.toNat]
  | .icmp64 _ _ q s t _ => [.pdst q.toNat, .srcPair s.toNat, .srcPair t.toNat]
  | .sel _ w d s t _ => [.dst d.toNat 1 w, .src s.toNat, .src t.toNat]
  | .mov _ w d s _ => [.dst d.toNat 1 w, .src s.toNat]
  | .fadd _ w d s t _ => [.dst d.toNat 1 w, .src s.toNat, .src t.toNat]
  | .fsub _ w d s t _ => [.dst d.toNat 1 w, .src s.toNat, .src t.toNat]
  | .fmul _ w d s t _ => [.dst d.toNat 1 w, .src s.toNat, .src t.toNat]
  | .ffma _ d s t _ => [.rw d.toNat 1, .src s.toNat, .src t.toNat]
  | .fmin _ w d s t _ => [.dst d.toNat 1 w, .src s.toNat, .src t.toNat]
  | .fmax _ w d s t _ => [.dst d.toNat 1 w, .src s.toNat, .src t.toNat]
  | .fcmp _ _ q s t _ => [.pdst q.toNat, .src s.toNat, .src t.toNat]
  | .fsgn _ w d s t _ => [.dst d.toNat 1 w, .src s.toNat, .src t.toNat]
  | .hadd2 _ w d s t _ => [.dst d.toNat 1 w, .src s.toNat, .src t.toNat]
  | .hmul2 _ w d s t _ => [.dst d.toNat 1 w, .src s.toNat, .src t.toNat]
  | .hfma2 _ d s t _ => [.rw d.toNat 1, .src s.toNat, .src t.toNat]
  | .badd2 _ w d s t _ => [.dst d.toNat 1 w, .src s.toNat, .src t.toNat]
  | .bmul2 _ w d s t _ => [.dst d.toNat 1 w, .src s.toNat, .src t.toNat]
  | .bfma2 _ d s t _ => [.rw d.toNat 1, .src s.toNat, .src t.toNat]
  | .dadd _ w d s t _ => [.dst d.toNat 2 w, .srcPair s.toNat, .srcPair t.toNat]
  | .dmul _ w d s t _ => [.dst d.toNat 2 w, .srcPair s.toNat, .srcPair t.toNat]
  | .dfma _ d s t _ => [.rw d.toNat 2, .srcPair s.toNat, .srcPair t.toNat]
  | .cvtI32F32 _ w d s _ => [.dst d.toNat 1 w, .src s.toNat]
  | .cvtU32F32 _ w d s _ => [.dst d.toNat 1 w, .src s.toNat]
  | .cvtF32I32 _ w d s _ => [.dst d.toNat 1 w, .src s.toNat]
  | .cvtF32U32 _ w d s _ => [.dst d.toNat 1 w, .src s.toNat]
  | .cvtF32I32Rz _ w d s _ => [.dst d.toNat 1 w, .src s.toNat]
  | .cvtF32U32Rz _ w d s _ => [.dst d.toNat 1 w, .src s.toNat]
  | .cvtF32F16 _ d s _ => [.rw d.toNat 1, .src s.toNat]
  | .cvtF32Bf16 _ d s _ => [.rw d.toNat 1, .src s.toNat]
  | .cvtF16F32 _ w d s _ _ => [.dst d.toNat 1 w, .srcRL s.toNat]
  | .cvtBf16F32 _ w d s _ _ => [.dst d.toNat 1 w, .srcRL s.toNat]
  | .cvtF32E4m3 _ d s _ => [.rw d.toNat 1, .src s.toNat]
  | .cvtF32E5m2 _ d s _ => [.rw d.toNat 1, .src s.toNat]
  | .cvtE4m3F32 _ w d s _ _ => [.dst d.toNat 1 w, .srcRL s.toNat]
  | .cvtE5m2F32 _ w d s _ _ => [.dst d.toNat 1 w, .srcRL s.toNat]
  | .cvtF32F64 _ w d s _ => [.dst d.toNat 2 w, .src s.toNat]
  | .cvtF64F32 _ w d s _ => [.dst d.toNat 1 w, .srcPair s.toNat]
  | .cvtI32F64 _ w d s _ => [.dst d.toNat 2 w, .src s.toNat]
  | .cvtF64I32 _ w d s _ => [.dst d.toNat 1 w, .srcPair s.toNat]
  | .cvtF64I32Rz _ w d s _ => [.dst d.toNat 1 w, .srcPair s.toNat]
  | .sfuRcp _ w d s _ => [.dst d.toNat 1 w, .src s.toNat]
  | .sfuRsq _ w d s _ => [.dst d.toNat 1 w, .src s.toNat]
  | .sfuSqrt _ w d s _ => [.dst d.toNat 1 w, .src s.toNat]
  | .sfuEx2 _ w d s _ => [.dst d.toNat 1 w, .src s.toNat]
  | .sfuLg2 _ w d s _ => [.dst d.toNat 1 w, .src s.toNat]
  | .sfuSin _ w d s _ => [.dst d.toNat 1 w, .src s.toNat]
  | .sfuCos _ w d s _ => [.dst d.toNat 1 w, .src s.toNat]
  | .sfuTanh _ w d s _ => [.dst d.toNat 1 w, .src s.toNat]
  | .sfuSigm _ w d s _ => [.dst d.toNat 1 w, .src s.toNat]
  | .plop _ _ q _ _ _ => [.pdst q.toNat]
  | .qsc4Fold _ d s _ => [.rw d.toNat 2, .src s.toNat]
  | .qsc4Merge _ d s _ => [.rw d.toNat 2, .srcRegPair s.toNat]
  | .qsc4Scale _ w d s _ => [.dst d.toNat 1 w, .srcRegPair s.toNat]
  | .qsc8Fold _ d s _ => [.rw d.toNat 2, .src s.toNat]
  | .qsc8Merge _ d s _ => [.rw d.toNat 2, .srcRegPair s.toNat]
  | .qsc8Scale _ w d s _ => [.dst d.toNat 1 w, .srcRegPair s.toNat]
  | .qnt4 _ d s t _ => [.rw d.toNat 1, .src s.toNat, .src t.toNat]
  | .qnt8 _ d s t _ => [.rw d.toNat 1, .src s.toNat, .src t.toNat]
  | .dq _ w d s t _ => [.dst d.toNat 1 w, .src s.toNat, .src t.toNat]
  | .fclassF32 _ w d s _ => [.dst d.toNat 1 w, .src s.toNat]
  | .fclassF16 _ w d s _ => [.dst d.toNat 1 w, .srcRL s.toNat]
  | .fclassBf16 _ w d s _ => [.dst d.toNat 1 w, .srcRL s.toNat]
  | .fclassF64 _ w d s _ => [.dst d.toNat 1 w, .srcPair s.toNat]
  | .fclassE4m3 _ w d s _ => [.dst d.toNat 1 w, .srcRL s.toNat]
  | .fclassE5m2 _ w d s _ => [.dst d.toNat 1 w, .srcRL s.toNat]
  | .shr64 _ w d s t _ => [.dst d.toNat 2 w, .srcPair s.toNat, .src t.toNat]
  | .addi _ d s _ => [.wr d.toNat 1, .rd s.toNat 1]
  | .muli _ d s _ => [.wr d.toNat 1, .rd s.toNat 1]
  | .andi _ d s _ => [.wr d.toNat 1, .rd s.toNat 1]
  | .ori _ d s _ => [.wr d.toNat 1, .rd s.toNat 1]
  | .xori _ d s _ => [.wr d.toNat 1, .rd s.toNat 1]
  | .shli _ d s _ => [.wr d.toNat 1, .rd s.toNat 1]
  | .shri _ d s _ => [.wr d.toNat 1, .rd s.toNat 1]
  | .sari _ d s _ => [.wr d.toNat 1, .rd s.toNat 1]
  | .icmpi _ _ q s _ => [.pdst q.toNat, .rd s.toNat 1]
  | .movk _ d _ => [.wr d.toNat 1]
  | .addi64 _ d s _ => [.wr d.toNat 2, .rd s.toNat 2]
  | .srd _ d i => [.wr d.toNat 1, .sr i.toNat false]
  | .swr _ s i => [.rd s.toNat 1, .sr i.toNat true]
  | .ldb _ d a _ _ => [.wr d.toNat 1, .rd a.toNat 2]
  | .ldh _ d a _ _ => [.wr d.toNat 1, .rd a.toNat 2]
  | .ldw _ d a _ _ => [.wr d.toNat 1, .rd a.toNat 2]
  | .ldd _ d a _ _ => [.wr d.toNat 2, .rd a.toNat 2]
  | .ldq _ d a _ _ => [.wr d.toNat 4, .rd a.toNat 2]
  | .stb _ d a _ _ => [.rd d.toNat 1, .rd a.toNat 2]
  | .sth _ d a _ _ => [.rd d.toNat 1, .rd a.toNat 2]
  | .stw _ d a _ _ => [.rd d.toNat 1, .rd a.toNat 2]
  | .std _ d a _ _ => [.rd d.toNat 2, .rd a.toNat 2]
  | .stq _ d a _ _ => [.rd d.toNat 4, .rd a.toNat 2]
  | .ldwn _ d a q _ => [.wr d.toNat 1, .rd a.toNat 2, .pdst q.toNat]
  | .ldqn _ d a q _ => [.wr d.toNat 4, .rd a.toNat 2, .pdst q.toNat]
  | .lsw _ d a _ _ => [.wr d.toNat 1, .rd a.toNat 1]
  | .lsq _ d a _ _ => [.wr d.toNat 4, .rd a.toNat 1]
  | .ssw _ d a _ _ => [.rd d.toNat 1, .rd a.toNat 1]
  | .ssq _ d a _ _ => [.rd d.toNat 4, .rd a.toNat 1]
  | .amoAdd _ d a _ s _ => [.rw d.toNat 1, .rd a.toNat 2, .range s.toNat 0 5]
  | .amoAnd _ d a _ s _ => [.rw d.toNat 1, .rd a.toNat 2, .range s.toNat 0 5]
  | .amoOr _ d a _ s _ => [.rw d.toNat 1, .rd a.toNat 2, .range s.toNat 0 5]
  | .amoXor _ d a _ s _ => [.rw d.toNat 1, .rd a.toNat 2, .range s.toNat 0 5]
  | .amoMin _ d a _ s _ => [.rw d.toNat 1, .rd a.toNat 2, .range s.toNat 0 5]
  | .amoMax _ d a _ s _ => [.rw d.toNat 1, .rd a.toNat 2, .range s.toNat 0 5]
  | .amoUmin _ d a _ s _ => [.rw d.toNat 1, .rd a.toNat 2, .range s.toNat 0 5]
  | .amoUmax _ d a _ s _ => [.rw d.toNat 1, .rd a.toNat 2, .range s.toNat 0 5]
  | .amoXchg _ d a _ s _ => [.rw d.toNat 1, .rd a.toNat 2, .range s.toNat 0 5]
  | .amoCas _ d a _ s _ => [.rw d.toNat 2, .rd a.toNat 2, .range s.toNat 0 5]
  | .amoFadd _ d a _ s _ => [.rw d.toNat 1, .rd a.toNat 2, .range s.toNat 0 5]
  | .amoBadd2 _ d a _ s _ => [.rw d.toNat 1, .rd a.toNat 2, .range s.toNat 0 5]
  | .amoAdd64 _ d a _ s _ => [.rw d.toNat 2, .rd a.toNat 2, .range s.toNat 0 5]
  | .amoXchg64 _ d a _ s _ => [.rw d.toNat 2, .rd a.toNat 2, .range s.toNat 0 5]
  | .amoCas64 _ d a _ s _ => [.rw d.toNat 4, .rd a.toNat 2, .range s.toNat 0 5]
  | .samoAdd _ d a _ s _ => [.rw d.toNat 1, .rd a.toNat 1, .range s.toNat 0 2]
  | .samoAnd _ d a _ s _ => [.rw d.toNat 1, .rd a.toNat 1, .range s.toNat 0 2]
  | .samoOr _ d a _ s _ => [.rw d.toNat 1, .rd a.toNat 1, .range s.toNat 0 2]
  | .samoXor _ d a _ s _ => [.rw d.toNat 1, .rd a.toNat 1, .range s.toNat 0 2]
  | .samoMin _ d a _ s _ => [.rw d.toNat 1, .rd a.toNat 1, .range s.toNat 0 2]
  | .samoMax _ d a _ s _ => [.rw d.toNat 1, .rd a.toNat 1, .range s.toNat 0 2]
  | .samoUmin _ d a _ s _ => [.rw d.toNat 1, .rd a.toNat 1, .range s.toNat 0 2]
  | .samoUmax _ d a _ s _ => [.rw d.toNat 1, .rd a.toNat 1, .range s.toNat 0 2]
  | .samoXchg _ d a _ s _ => [.rw d.toNat 1, .rd a.toNat 1, .range s.toNat 0 2]
  | .samoCas _ d a _ s _ => [.rw d.toNat 2, .rd a.toNat 1, .range s.toNat 0 2]
  | .samoFadd _ d a _ s _ => [.rw d.toNat 1, .rd a.toNat 1, .range s.toNat 0 2]
  | .samoBadd2 _ d a _ s _ => [.rw d.toNat 1, .rd a.toNat 1, .range s.toNat 0 2]
  | .samoAdd64 _ d a _ s _ => [.rw d.toNat 2, .rd a.toNat 1, .range s.toNat 0 2]
  | .samoXchg64 _ d a _ s _ => [.rw d.toNat 2, .rd a.toNat 1, .range s.toNat 0 2]
  | .samoCas64 _ d a _ s _ => [.rw d.toNat 4, .rd a.toNat 1, .range s.toNat 0 2]
  | .ldlk _ d a _ s _ => [.wr d.toNat 1, .rd a.toNat 1, .range s.toNat 0 2]
  | .stul _ d a _ s _ => [.rd d.toNat 1, .rd a.toNat 1, .range s.toNat 0 2]
  | .bra _ _ => []
  | .call _ _ => []
  | .ret _ => []
  | .jmpr _ r => [.rd r.toNat 1]
  | .enrol _ _ _ => []
  | .rejoin _ _ _ => []
  | .strike _ _ _ => []
  | .yield _ _ => []
  | .shflIdx _ d s m => [.rw d.toNat 1, .rd s.toNat 1, .rd m.toNat 1]
  | .shflUp _ d s m => [.rw d.toNat 1, .rd s.toNat 1, .rd m.toNat 1]
  | .shflDn _ d s m => [.rw d.toNat 1, .rd s.toNat 1, .rd m.toNat 1]
  | .shflXor _ d s m => [.rw d.toNat 1, .rd s.toNat 1, .rd m.toNat 1]
  | .voteAll _ d s m => [.wr d.toNat 1, .rd s.toNat 1, .rd m.toNat 1]
  | .voteAny _ d s m => [.wr d.toNat 1, .rd s.toNat 1, .rd m.toNat 1]
  | .voteBallot _ d s m => [.wr d.toNat 1, .rd s.toNat 1, .rd m.toNat 1]
  | .voteEq _ d s m => [.wr d.toNat 1, .rd s.toNat 1, .rd m.toNat 1]
  | .reduxAdd _ d s m => [.wr d.toNat 1, .rd s.toNat 1, .rd m.toNat 1]
  | .reduxMin _ d s m => [.wr d.toNat 1, .rd s.toNat 1, .rd m.toNat 1]
  | .reduxMax _ d s m => [.wr d.toNat 1, .rd s.toNat 1, .rd m.toNat 1]
  | .reduxUmin _ d s m => [.wr d.toNat 1, .rd s.toNat 1, .rd m.toNat 1]
  | .reduxUmax _ d s m => [.wr d.toNat 1, .rd s.toNat 1, .rd m.toNat 1]
  | .reduxAnd _ d s m => [.wr d.toNat 1, .rd s.toNat 1, .rd m.toNat 1]
  | .reduxOr _ d s m => [.wr d.toNat 1, .rd s.toNat 1, .rd m.toNat 1]
  | .reduxXor _ d s m => [.wr d.toNat 1, .rd s.toNat 1, .rd m.toNat 1]
  | .match _ d s m => [.wr d.toNat 1, .rd s.toNat 1, .rd m.toNat 1]
  | .mmaFwd _ a _ o _ _ _ m => [.blk (16 * a.toNat) 16, .rd o.toNat 1, .differs m.toNat 3]
  | .mmaFwd2 _ a _ o _ _ _ m => [.blk (16 * a.toNat) 16, .rd o.toNat 1, .differs m.toNat 3]
  | .mmaFwdk _ a _ o _ _ _ _ => [.blk (16 * a.toNat) 16, .rd o.toNat 1]
  | .mmaBwd _ a _ o _ _ _ m => [.blk (16 * a.toNat) 16, .rd o.toNat 1, .differs m.toNat 3]
  | .mmaGrad _ a o _ _ m => [.blk (16 * a.toNat) 16, .blk o.toNat 16, .differs m.toNat 3]
  | .bankLd _ _ s _ _ => [.rd s.toNat 1]
  | .bankLdq _ _ s _ _ => [.rd s.toNat 1]
  | .bankEvict _ _ _ _ => []
  | .bankGzero _ _ _ _ => []
  | .bankGdrain _ _ s _ _ => [.rd s.toNat 1]
  | .bankQuery _ _ s _ _ => [.rd s.toNat 1]
  | .topkInit _ _ _ => []
  | .topkRead _ _ d => [.wr d.toNat 2]
  | .cpy _ a s n _ _ => [.rd a.toNat 2, .rd s.toNat 1, .rd n.toNat 1]
  | .cpw _ _ _ => []
  | .twkLoad _ r cc _ _ => [.rd r.toNat 1, .rd cc.toNat 4]
  | .twkStore _ r cc _ _ => [.rd r.toNat 1, .rd cc.toNat 4]
  | .twkGather _ r cc _ _ => [.rd r.toNat 1, .rd cc.toNat 4]
  | .twkScatteradd _ r cc _ _ => [.rd r.toNat 1, .rd cc.toNat 4]
  | .syncInit _ s o v _ => [.obj o.toNat s.toNat, .rd v.toNat 1]
  | .syncArrive _ s o v _ => [.obj o.toNat s.toNat, .wr v.toNat 1]
  | .syncWait _ s o v _ => [.obj o.toNat s.toNat, .rw v.toNat 1]
  | .syncArrw _ s o v _ => [.obj o.toNat s.toNat, .wr v.toNat 1]
  | .syncTest _ s o v _ => [.obj o.toNat s.toNat, .rw v.toNat 1]
  | .syncRel _ s o _ => [.obj o.toNat s.toNat]
  | .syncAcq _ s o v _ => [.obj o.toNat s.toNat, .wr v.toNat 1]
  | .syncBind _ s o v _ => [.obj o.toNat s.toNat, .rd v.toNat 4]
  | .syncUnbind _ s o v _ => [.obj o.toNat s.toNat, .rd v.toNat 1]
  | .syncExpect _ s o v _ => [.obj o.toNat s.toNat, .rd v.toNat 1]
  | .syncErr _ s o v _ => [.obj o.toNat s.toNat, .rd v.toNat 1]
  | .fenceRel _ s _ => [.range s.toNat 0 5]
  | .fenceAcq _ s _ => [.range s.toNat 0 5]
  | .fenceFull _ s _ => [.range s.toNat 0 5]
  | .fenceOprdy _ _ => []
  | .fenceTfence _ _ => []
  | .nobjCreate _ v _ => [.rw v.toNat 4]
  | .nobjOpen _ v _ => [.rw v.toNat 4]
  | .nobjClose _ v _ => [.rw v.toNat 4]
  | .nobjHand _ v _ => [.rw v.toNat 4]
  | .nobjDrop _ v _ => [.rw v.toNat 4]
  | .nobjQuery _ v _ => [.rw v.toNat 4]
  | .nobjMirror _ v _ => [.rw v.toNat 4]
  | .taskPush _ s v _ => [.range s.toNat 1 3, .rw v.toNat 1]
  | .taskPop _ s v _ => [.range s.toNat 1 3, .rw v.toNat 1]
  | .taskTrypop _ s v _ => [.range s.toNat 1 3, .rw v.toNat 1]
  | .taskEos _ s _ => [.range s.toNat 1 3]
  | .taskDone _ s v _ => [.range s.toNat 1 3, .rd v.toNat 2]
  | .sysTrap _ _ _ => []
  | .sysEret _ _ => []
  | .sysBkpt _ _ => []
  | .sysExit _ _ => []
  | .sysPyld _ _ => []
  | .sysCclr _ v _ => [.rd v.toNat 1]
  | .sysSleep _ v _ => [.rd v.toNat 1]
  | .sysHaltctx _ v _ => [.rd v.toNat 1]
  | .sendEmark _ v _ => [.rd v.toNat 2]
  | .rep _ _ _ _ _ => []
  | .registerWrite _ _ _ _ => []
  | .qnotify _ _ _ => []
  | .qctlEnable _ _ _ => []
  | .qctlDisable _ _ _ => []
  | .qctlResume _ _ _ => []
  | .qctlSkip _ _ _ => []
  | .packetNop _ _ => []
  | .packetLaunch _ _ => []
  | .packetSignal _ _ => []
  | .packetWaitval _ _ => []
  | .packetCheckpoint _ _ => []
  | .heldPacketDispatch _ _ => []
  | .waitvalMet _ _ => []
  | .waitvalTimeout _ _ => []
  | .functionLevelReset _ => []
  | .queueThaw _ => []
  | .vfAssign _ _ => []
  | .vfWithdraw _ _ => []
  | .tenantTableWrite _ _ _ _ _ _ _ _ _ _ => []
  | .chunkRequest _ _ => []
  | .clusterPlace _ _ => []
  | .corReservationComplete _ => []
  | .dispatchRoundExpiry _ => []
  | .objectCopyComplete _ _ => []
  | .objectRestoreComplete _ _ => []
  | .dieFence _ => []
  | .directoryRebuildComplete _ => []
  | .coreLost _ => []
  | .launchComplete _ => []
  | .contextCreate _ => []
  | .contextConfigWrite _ _ _ => []
  | .preemptRequest _ => []
  | .preemptWithdraw _ => []
  | .preemptDeadline _ => []
  | .contextResume _ => []
  | .checkpointRequest _ _ => []
  | .checkpointRecorded _ _ => []
  | .contextThaw _ => []
  | .restoreRequest _ => []
  | .contextTeardown _ => []
  | .coreReassign _ _ => []
  | .scrubComplete _ => []
  | .agemaxExceeded _ => []
  | .teamSwap _ => []
  | .teamSaveComplete _ => []
  | .teamReadmit _ => []
  | .readmitRoundExpiry _ => []
  | .convergenceTimeout _ _ _ _ => []
  | .loadLand _ _ => []
  | .teamKillDrained _ => []
  | .debugStopRequest _ _ => []
  | .groupStopped _ _ => []
  | .debugWrite _ _ _ _ _ => []
  | .debugResume _ _ => []
  | .engineWordStart _ => []
  | .mmaComplete _ => []
  | .bankLoadComplete _ _ => []
  | .bankDrainComplete _ _ => []
  | .bankQueryComplete _ => []
  | .twkJobStart _ => []
  | .twkTileDone _ _ => []
  | .twkJobComplete _ _ => []
  | .cpyRetire _ _ => []
  | .ackReceive _ _ _ => []
  | .lockRetry _ _ => []
  | .yieldExpiry _ _ => []
  | .sleepExpiry _ _ => []
  | .pageRequestPost => []
  | .resolveResolved _ _ => []
  | .resolveRefuseKill _ _ => []
  | .resolveRefuseFreeze _ _ => []
  | .frameopGrant _ => []
  | .frameopReclaim _ => []
  | .rangeInvalidateRequest _ _ _ => []
  | .rangeInvalidateComplete _ => []
  | .backgroundWalkComplete _ _ => []
  | .sluiceEpochEnd _ _ => []
  | .migrationComplete _ => []
  | .portEnable _ => []
  | .trainingComplete _ _ => []
  | .trainingRetryTimer _ => []
  | .laneFault _ => []
  | .portFence _ => []
  | .portUnfence _ => []
  | .frameResendTimeout _ => []
  | .routeDetour _ _ => []
  | .frameLnack _ _ => []
  | .frameAckonly _ _ => []
  | .frameRead _ _ => []
  | .frameWrite _ _ => []
  | .frameAtomic _ _ => []
  | .frameResp _ _ => []
  | .frameWrack _ _ => []
  | .frameMarker _ _ => []
  | .frameLaunch _ _ => []
  | .frameLaunchnack _ _ => []
  | .remoteTimeout _ _ => []
  | .clockSettingRequest _ _ _ _ => []
  | .clockRelockComplete _ _ => []
  | .pcapWrite _ => []
  | .slewWrite _ _ _ => []
  | .slopeStep _ _ => []
  | .powerOnBoot _ _ _ _ _ _ => []
  | .imageWrite _ _ _ => []
  | .liveUpdate _ => []
  | .updateHeartbeat => []
  | .heartbeatTimeout => []
  | .pluginTimeout _ => []
  | .getVersion => []
  | .getCapabilities => []
  | .negotiateAlgorithms => []
  | .getDigests => []
  | .getCertificate => []
  | .challenge _ => []
  | .getMeasurements _ => []
  | .wakeFrame _ => []
  | .reservedEncoding _ => []
  | .reservedTypePacket _ _ => []
  | .discardedFrame _ _ _ => []
  | .unreachableClear _ => []
  | .powerLoss => []
  | .restoreComplete _ _ _ => []
  | .contextReplay _ _ _ => []
  | .debuggerAttach _ _ => []
  | .controlCoreWake => []

/-- The word keeps every field rule for a thread with this NREG (R78). -/
def fieldCheck (nreg : Nat) (i : Instr) : Bool := (operands i).all (Operand.ok nreg)

/-- Registers the word reads or writes. -/
def regUses (i : Instr) : List Nat := (operands i).flatMap Operand.regs

end Sys2Proof.Machine
end

