-- ==== Sys2Proof/Config.lean ====
section
/-!
DEFINITION. What one implementation fixes, and the free values: constants without a body, of which nothing can be proved.
-/
namespace Sys2Proof.Config

/-- The approximate result of special function n (R315) for an operand whose result the manual does not list as exact.
Free value (DESIGN CHOICE, log entry 3). -/
opaque sfuValue : Nat → Word → Word

/-- An undefined value (R4) of the kth use: a register read by an MMA while a load into it is pending (R204), and the
like.  Free value (DESIGN CHOICE, log entry 4). -/
opaque undefinedWord : Nat → Word

/-- Bytes whose contents the manual does not lay out: firmware answers left to SPDM and XMSS (R281, R282); the kth byte of the nth
use.  Free value (DESIGN CHOICE, log entry 5). -/
opaque answerByte : Nat → Nat → Byte

/-- The 256-bit KMAC tag of a checkpoint block (R133); the key is held by the root of trust.  Free value (DESIGN CHOICE, log entry 6). -/
opaque kmacTag : List Byte → BitVec 256

/-- The tag of a block of team, tile-store or queue state, whose bytes the manual does not lay out (R133), of a context, a generation and
the block's number.  Free value (DESIGN CHOICE, log entry 33). -/
opaque stateTag : Nat → Nat → Nat → BitVec 256

/-- SHAKE256 with 256 bits of output, by which an image's DIGEST is computed (R279); the manual names the function and does not give it.
Free value (DESIGN CHOICE, log entry 90). -/
opaque shake256 : List Byte → BitVec 256

/-- The hash of a frame's TXID by which a route mask's port is chosen (R262).  Free value (DESIGN CHOICE, log entry 7). -/
opaque routeHash : BitVec 32 → Nat

/-- The version of the running firmware's hand-over structure (R284), which the manual does not give.  Free value
(DESIGN CHOICE, log entry 26). -/
opaque structVersion : Nat

end Sys2Proof.Config
end

