-- ==== Sys2Proof/Machine/Float.lean ====
section
/-!
DEFINITION. Number formats and exact arithmetic (R19 to R38): decoding a code into its exact value, exact sums and
products, and one rounding at the end.
-/
namespace Sys2Proof.Machine

/-- A floating-point format (R21): exponent bits, fraction bits, and whether it is E4M3, which has no infinity. -/
structure Fmt where
  eb : Nat
  fb : Nat
  e4m3 : Bool
deriving DecidableEq, Repr

/-- E4M3 (R21). -/
def fmtE4M3 : Fmt := ⟨4, 3, true⟩
/-- E5M2 (R21). -/
def fmtE5M2 : Fmt := ⟨5, 2, false⟩
/-- FP16 (R21). -/
def fmtF16 : Fmt := ⟨5, 10, false⟩
/-- BF16 (R21). -/
def fmtBF16 : Fmt := ⟨8, 7, false⟩
/-- FP32 (R21). -/
def fmtF32 : Fmt := ⟨8, 23, false⟩
/-- FP64 (R21). -/
def fmtF64 : Fmt := ⟨11, 52, false⟩

/-- Bias of a format (R21). -/
def Fmt.bias (f : Fmt) : Int := 2 ^ (f.eb - 1) - 1

/-- An exact operand: a NaN, an infinity, or (-1)^neg * m * 2^e. -/
inductive FVal where
  | nan (signalling : Bool)
  | inf (neg : Bool)
  | fin (neg : Bool) (m : Nat) (e : Int)
deriving DecidableEq, Repr

/-- Flag masks of %FFLAGS (R26). -/
def flNX : Nat := 1
/-- UF (R26). -/
def flUF : Nat := 2
/-- OF (R26). -/
def flOF : Nat := 4
/-- DZ (R26). -/
def flDZ : Nat := 8
/-- NV (R26). -/
def flNV : Nat := 16
/-- QS (R26). -/
def flQS : Nat := 32
/-- RC (R26). -/
def flRC : Nat := 64

/-- The value of a code (R21, R22). -/
def fdec (f : Fmt) (code : Nat) : FVal :=
  let s := code / 2 ^ (f.eb + f.fb) % 2 = 1
  let e := code / 2 ^ f.fb % 2 ^ f.eb
  let m := code % 2 ^ f.fb
  if f.e4m3 && e = 15 && m = 7 then .nan false
  else if !f.e4m3 && e = 2 ^ f.eb - 1 then
    (if m = 0 then .inf s else .nan (m < 2 ^ (f.fb - 1)))
  else if e = 0 then .fin s m (1 - f.bias - f.fb)
  else .fin s (m + 2 ^ f.fb) (e - f.bias - f.fb)

/-- The canonical NaN (R23). -/
def canonNaN (f : Fmt) : Nat := if f.e4m3 then 0x7F else (2 ^ f.eb - 1) * 2 ^ f.fb + 2 ^ (f.fb - 1)

/-- The sign bit's place value. -/
def signBit (f : Fmt) (neg : Bool) : Nat := if neg then 2 ^ (f.eb + f.fb) else 0

/-- The largest finite code without sign (R21). -/
def maxFinite (f : Fmt) : Nat := if f.e4m3 then 0x7E else (2 ^ f.eb - 1) * 2 ^ f.fb - 1

/-- Infinity's code without sign. -/
def infCode (f : Fmt) : Nat := (2 ^ f.eb - 1) * 2 ^ f.fb

/-- n * 2^e as a fraction. -/
def scaleFrac (n d : Nat) (e : Int) : Nat × Nat :=
  if 0 <= e then (n * 2 ^ e.toNat, d) else (n, d * 2 ^ (-e).toNat)

/-- floor (log2 (n / d)) for n, d > 0. -/
def log2Frac (n d : Nat) : Int :=
  let k : Int := (Nat.log2 n : Int) - (Nat.log2 d : Int)
  let (a, b) := scaleFrac n d (-k)
  if b <= a then k else k - 1

/-- Round n / d to an integer in a direction (R25): 0 RNE, 1 RTZ, 2 RDN, 3 RUP; neg is the sign of the value. -/
def roundNat (mode : Nat) (neg : Bool) (n d : Nat) : Nat × Bool :=
  let q := n / d
  let r := n % d
  let up := match mode with
    | 0 => d < 2 * r || (2 * r = d && q % 2 = 1)
    | 1 => false
    | 2 => neg && r != 0
    | _ => !neg && r != 0
  (if up then q + 1 else q, r != 0)

/-- Tininess after rounding (R24): n / d rounded with unbounded exponent lies below the smallest normal. -/
def tinyFrac (f : Fmt) (mode : Nat) (neg : Bool) (n d : Nat) : Bool :=
  let e := log2Frac n d
  if 1 - f.bias <= e then false
  else
    let (a, b) := scaleFrac n d (f.fb - e)
    let (m, _) := roundNat mode neg a b
    !(e = -f.bias && 2 ^ (f.fb + 1) <= m)

/-- Round the positive fraction n / d with sign neg into a format: code and flags (R24, R28). -/
def roundFrac (f : Fmt) (mode : Nat) (neg : Bool) (n d : Nat) : Nat × Nat :=
  if n = 0 then (signBit f neg, 0) else
  let e := log2Frac n d
  let q := max (e - f.fb) (1 - f.bias - f.fb)
  let (a, b) := scaleFrac n d (-q)
  let (m, inexact) := roundNat mode neg a b
  let code := if m < 2 ^ f.fb then m else (q + f.fb + f.bias).toNat * 2 ^ f.fb + (m - 2 ^ f.fb)
  if maxFinite f < code then
    let toInf := match mode with
      | 0 => true
      | 1 => false
      | 2 => neg
      | _ => !neg
    let c := if f.e4m3 || !toInf then maxFinite f else infCode f
    (signBit f neg + c, flOF + flNX)
  else
    let fl := if inexact then (if tinyFrac f mode neg n d then flNX + flUF else flNX) else 0
    (signBit f neg + code, fl)

/-- Round an exact value into a format (R28); an infinity into E4M3 is its NaN with NV. -/
def roundV (f : Fmt) (mode : Nat) (v : FVal) : Nat × Nat :=
  match v with
  | .nan _ => (canonNaN f, 0)
  | .inf neg => if f.e4m3 then (canonNaN f, flNV) else (signBit f neg + infCode f, 0)
  | .fin neg m e => let (n, d) := scaleFrac m 1 e; roundFrac f mode neg n d

/-- NV for a signalling NaN operand (R24). -/
def sigFlag : FVal → Nat
  | .nan true => flNV
  | _ => 0

/-- The exact product; the flags are those of Inf times 0 and of signalling NaNs. -/
def mulV (a b : FVal) : FVal × Nat :=
  let sg := sigFlag a ||| sigFlag b
  match a, b with
  | .nan _, _ => (.nan false, sg)
  | _, .nan _ => (.nan false, sg)
  | .inf s, .inf t => (.inf (s != t), 0)
  | .inf s, .fin t m _ => if m = 0 then (.nan false, flNV) else (.inf (s != t), 0)
  | .fin s m _, .inf t => if m = 0 then (.nan false, flNV) else (.inf (s != t), 0)
  | .fin s m e, .fin t m' e' => (.fin (s != t) (m * m') (e + e'), 0)

/-- A signed mantissa at exponent e, for a value whose exponent is at least e. -/
def alignInt (neg : Bool) (m : Nat) (e0 e : Int) : Int :=
  let v : Int := m * 2 ^ (e0 - e).toNat
  if neg then -v else v

/-- The exact sum; an exact zero is signed as R306 gives for the rounding direction. -/
def addV (mode : Nat) (a b : FVal) : FVal × Nat :=
  let sg := sigFlag a ||| sigFlag b
  match a, b with
  | .nan _, _ => (.nan false, sg)
  | _, .nan _ => (.nan false, sg)
  | .inf s, .inf t => if s = t then (.inf s, 0) else (.nan false, flNV)
  | .inf s, .fin _ _ _ => (.inf s, 0)
  | .fin _ _ _, .inf t => (.inf t, 0)
  | .fin s m e, .fin t m' e' =>
    let q := min e e'
    let x := alignInt s m e q + alignInt t m' e' q
    if x = 0 then
      let neg := if m = 0 && m' = 0 && s = t then s else mode = 2
      (.fin neg 0 q, 0)
    else (.fin (x < 0) x.natAbs q, 0)

/-- Negation of an operand. -/
def negV : FVal → FVal
  | .nan s => .nan s
  | .inf s => .inf (!s)
  | .fin s m e => .fin (!s) m e

/-- Add two codes with one rounding (R306). -/
def fadd (f : Fmt) (mode a b : Nat) : Nat × Nat :=
  let (v, fl) := addV mode (fdec f a) (fdec f b)
  let (c, fl') := roundV f mode v
  (c, fl ||| fl')

/-- Subtract two codes with one rounding (R306). -/
def fsub (f : Fmt) (mode a b : Nat) : Nat × Nat :=
  let (v, fl) := addV mode (fdec f a) (negV (fdec f b))
  let (c, fl') := roundV f mode v
  (c, fl ||| fl')

/-- Multiply two codes with one rounding (R306). -/
def fmul (f : Fmt) (mode a b : Nat) : Nat × Nat :=
  let (v, fl) := mulV (fdec f a) (fdec f b)
  let (c, fl') := roundV f mode v
  (c, fl ||| fl')

/-- a * b + c with one rounding (R306). -/
def ffma (f : Fmt) (mode a b c : Nat) : Nat × Nat :=
  let (p, fl) := mulV (fdec f a) (fdec f b)
  let (v, fl') := addV mode p (fdec f c)
  let (r, fl'') := roundV f mode v
  (r, fl ||| fl' ||| fl'')

/-- Exact order of two finite or infinite values: -1, 0 or 1; none when either is a NaN. -/
def cmpV (a b : FVal) : Option Int :=
  match a, b with
  | .nan _, _ => none
  | _, .nan _ => none
  | .inf s, .inf t => some (if s = t then 0 else if s then -1 else 1)
  | .inf s, .fin _ _ _ => some (if s then -1 else 1)
  | .fin _ _ _, .inf t => some (if t then 1 else -1)
  | .fin s m e, .fin t m' e' =>
    let q := min e e'
    let x := alignInt s m e q - alignInt t m' e' q
    some (if x < 0 then -1 else if x = 0 then 0 else 1)

/-- FMIN (lo) or FMAX (R307): a bit copy of the operand chosen. -/
def fminmax (lo : Bool) (a b : Word) : Nat × Nat :=
  let x := fdec fmtF32 a.toNat
  let y := fdec fmtF32 b.toNat
  let fl := sigFlag x ||| sigFlag y
  match x, y with
  | .nan _, .nan _ => (canonNaN fmtF32, fl)
  | .nan _, _ => (b.toNat, fl)
  | _, .nan _ => (a.toNat, fl)
  | _, _ =>
    let less := match cmpV x y with
      | some c => c < 0 || (c = 0 && a.getLsbD 31 && !b.getLsbD 31)
      | none => false
    (if less = lo then a.toNat else b.toNat, fl)

/-- FCMP's condition and NV (R308). -/
def fcond (k : Nat) (a b : Word) : Bool × Nat :=
  let x := fdec fmtF32 a.toNat
  let y := fdec fmtF32 b.toNat
  let sig := sigFlag x ||| sigFlag y
  match cmpV x y with
  | none => (k = 1 || k = 6, if 2 <= k && k <= 5 then flNV else sig)
  | some c =>
    (match k with
      | 0 => c = 0
      | 1 => c != 0
      | 2 => c < 0
      | 3 => c <= 0
      | 4 => 0 < c
      | 5 => 0 <= c
      | 6 => false
      | _ => true, 0)

/-- FCLASS's one-hot mask (R312). -/
def fclass (f : Fmt) (code : Nat) : Nat :=
  match fdec f code with
  | .nan true => 2 ^ 8
  | .nan false => 2 ^ 9
  | .inf true => 1
  | .inf false => 2 ^ 7
  | .fin neg m _ =>
    if m = 0 then (if neg then 2 ^ 3 else 2 ^ 4)
    else if m < 2 ^ f.fb then (if neg then 2 ^ 2 else 2 ^ 5)
    else (if neg then 2 else 2 ^ 6)

/-- Convert a code between formats with one rounding (R313). -/
def fconv (src dst : Fmt) (mode code : Nat) : Nat × Nat :=
  let v := fdec src code
  let (c, fl) := roundV dst mode v
  (c, fl ||| sigFlag v)

/-- An integer into a format (R313). -/
def ofInt (f : Fmt) (mode : Nat) (x : Int) : Nat × Nat := roundFrac f mode (x < 0) x.natAbs 1

/-- A float to an integer between lo and hi (R314): the integer and the flags. -/
def toIntV (mode : Nat) (lo hi : Int) (v : FVal) : Int × Nat :=
  match v with
  | .nan _ => (0, flNV)
  | .inf neg => (if neg then lo else hi, flNV)
  | .fin neg m e =>
    let (n, d) := scaleFrac m 1 e
    let (q, inexact) := roundNat mode neg n d
    let x : Int := if neg then -(q : Int) else q
    if hi < x then (hi, flNV) else if x < lo then (lo, flNV) else (x, if inexact then flNX else 0)

/-- Integer square root, from bit k down. -/
def isqrtGo (n : Nat) : Nat → Nat → Nat
  | 0, r => r
  | k + 1, r => isqrtGo n k (if (r + 2 ^ k) * (r + 2 ^ k) <= n then r + 2 ^ k else r)

/-- Square root of a positive finite FP32 value, correctly rounded (R315). -/
def fsqrtPos (mode m : Nat) (e : Int) : Nat × Nat :=
  let odd := e % 2 != 0
  let m' := (if odd then 2 * m else m) * 2 ^ 64
  let e' := (if odd then e - 1 else e) - 64
  let r := isqrtGo m' 50 0
  let x := 2 * r + (if r * r = m' then 0 else 1)
  let (n, d) := scaleFrac x 2 (e' / 2)
  roundFrac fmtF32 mode false n d

/-- m is a power of two. -/
def isPow2 (m : Nat) : Bool := m != 0 && 2 ^ Nat.log2 m = m

/-- Exact comparison helpers on finite values as signed fractions over a common exponent: the smaller of two. -/
def minV (a b : FVal) : FVal := match cmpV a b with
  | some c => if c <= 0 then a else b
  | none => .nan false

/-- The larger of two. -/
def maxV (a b : FVal) : FVal := match cmpV a b with
  | some c => if 0 <= c then a else b
  | none => .nan false

/-- A finite value. -/
def FVal.isFin : FVal → Bool
  | .fin _ _ _ => true
  | _ => false

/-- A value as numerator (signed) and denominator. -/
def FVal.frac : FVal → Int × Nat
  | .fin neg m e =>
    let (n, d) := scaleFrac m 1 e
    (if neg then -(n : Int) else n, d)
  | _ => (0, 1)

/-- One FOLD or MERGE step on a range state (R317): codes of mn and mx. -/
def foldRange (lo hi : Word) (xs : List Word) : Word × Word :=
  let vs := (lo :: hi :: xs).map (fun w => fdec fmtF32 w.toNat)
  if vs.all FVal.isFin then
    let zero := FVal.fin false 0 0
    let l := (fdec fmtF32 lo.toNat :: xs.map (fun w => fdec fmtF32 w.toNat)).foldl minV zero
    let h := (fdec fmtF32 hi.toNat :: xs.map (fun w => fdec fmtF32 w.toNat)).foldl maxV zero
    let enc (v : FVal) : Word :=
      match v with
      | .fin _ 0 _ => 0
      | _ => BitVec.ofNat 32 (roundV fmtF32 0 v).1
    (enc l, enc h)
  else (BitVec.ofNat 32 (canonNaN fmtF32), BitVec.ofNat 32 (canonNaN fmtF32))

/-- Round a signed fraction to the nearest integer, ties to even. -/
def rneInt (n : Int) (d : Nat) : Int :=
  let (q, _) := roundNat 0 (n < 0) n.natAbs d
  if n < 0 then -(q : Int) else q

/-- Bound an integer (Sat of R73). -/
def satInt (x lo hi : Int) : Int := if x < lo then lo else if hi < x then hi else x

/-- R37 steps 1 to 7: scale and zero point from mn and mx, and the flags. -/
def quantScale (qmax : Nat) (lo hi : Word) : Nat × Nat × Nat :=
  let l := fdec fmtF32 lo.toNat
  let h := fdec fmtF32 hi.toNat
  if !(l.isFin && h.isFin) then (0x7E00, 0, flNV)
  else
    let zero := FVal.fin false 0 0
    let mn := minV l zero
    let mx := maxV h zero
    let (a, b) := mn.frac
    let (c, d) := mx.frac
    -- sigma = (mx - mn) / qmax
    let num : Int := c * b - a * d
    let den := b * d * qmax
    if num = 0 then (0x3C00, 0, 0)
    else
      let sn := num.natAbs
      let s := if 65504 * den < sn then 0x7BFF
        else if sn * 2 ^ 14 < den then 0x0400
        else (roundFrac fmtF16 3 false sn den).1
      let (p, q) := (fdec fmtF16 s).frac
      let z := satInt (rneInt (-a * q) (b * p.natAbs)) 0 qmax
      (s, z.toNat, 0)

/-- R319: the code of x under a scale word, and the flags. -/
def quantCode (qmax : Nat) (x w : Word) : Nat × Nat :=
  let s := fdec fmtF16 (w.toNat % 2 ^ 16)
  let z := w.toNat / 2 ^ 16 % 2 ^ 8
  if w.toNat / 2 ^ 25 != 0 || qmax < z then (0, flNV + flRC)
  else match s, fdec fmtF32 x.toNat with
    | .fin false (sm + 1) se, .fin neg m e =>
      let (p, q) := (FVal.fin false (sm + 1) se).frac
      let (n, d) := (FVal.fin neg m e).frac
      let v := rneInt (n * q) (d * p.natAbs) + z
      let c := satInt v 0 qmax
      (c.toNat, if c = v then 0 else flOF + flQS)
    | _, _ => (0, flNV)

/-- R38, R320: the value of code q under scale s and zero point z. -/
def dequant (q z qmax s : Nat) : Nat × Nat :=
  if qmax < z then (canonNaN fmtF32, flNV + flRC)
  else match fdec fmtF16 s with
    | .nan _ => (canonNaN fmtF32, flNV)
    | .inf neg =>
      if q = z then (canonNaN fmtF32, flNV)
      else (signBit fmtF32 (neg != (q < z)) + infCode fmtF32, flNV)
    | .fin neg m e =>
      let diff : Int := (q : Int) - z
      let (n, d) := scaleFrac (m * diff.natAbs) 1 e
      ((roundFrac fmtF32 0 (neg != (diff < 0)) n d).1, 0)

end Sys2Proof.Machine
end

