-- ==== Sys2Proof/Machine/State.lean ====
section
/-!
DEFINITION. The state of one OQ6400 package as plain data, and the machine right after reset.

Units of which there are many (cores, dies, contexts, teams, queues) are held in lists keyed by their number; a unit
that is not listed stands at its reset value.  A core is named by its %CORE value (R8) as a natural number.
-/
namespace Sys2Proof.Machine

/-- Why the machine itself could stop.  No event of the manual stops the package. -/
inductive Fault where
  /-- Raised by no step of this model (safe): every unusual event of the manual is a cause with a delivery (R102). -/
  | machineCheck
deriving DecidableEq, Repr

/-- Why a step gives no meaning. -/
inductive Refusal where
  /-- Raised by an arm of `exec` whose instruction has no meaning yet (safe). -/
  | notModelled (mnemonic : String)
deriving DecidableEq, Repr

/-- A cause code (R102). -/
abbrev Cause := BitVec 8

/-- A byte memory: strictly rising addresses, no entry equal to the byte an unlisted address reads as. -/
abbrev Memory := CellList

/-- A program counter: a packet index and a slot (R40). -/
structure Pc where
  pkt : Word
  slot : Nat
deriving DecidableEq, Repr

/-- A thread, by its team's serial number and its %TID. -/
structure ThreadRef where
  team : Nat
  tid : Nat
deriving DecidableEq, Repr

/-- Where an access is performed (R192). -/
inductive Home where
  | dev (pa : Nat)
  | peer (dev : Nat) (wa : Nat)
  | host (a : Nat)
  | scratch (core off : Nat)
deriving DecidableEq, Repr

/-- One memory access of a thread, with the operands it read at issue.  Replay records hold these (R92). -/
inductive Access where
  /-- Load of size bytes at va into registers d.. (R327). -/
  | load (va : DWord) (size d : Nat)
  /-- Non-faulting load, writing predicate pk (R328). -/
  | nfLoad (va : DWord) (size d pk : Nat)
  /-- Store (R327). -/
  | store (va : DWord) (data : List Byte)
  /-- Global atomic (R330). -/
  | amo (va : DWord) (fn : Nat) (ops : List Word) (d ord scope : Nat)
  /-- Scratch load. -/
  | sload (sa : Word) (size d : Nat)
  /-- Scratch store. -/
  | sstore (sa : Word) (data : List Byte)
  /-- Scratch atomic (R332). -/
  | samo (sa : Word) (fn : Nat) (ops : List Word) (d ord scope : Nat)
  /-- LDLK (R332). -/
  | ldlk (sa : Word) (d ord scope : Nat)
  /-- STUL (R332). -/
  | stul (sa : Word) (v : Word) (ord scope : Nat)
  /-- CPY of k bytes (R334). -/
  | cpy (ga : DWord) (sa : Word) (k tag : Nat)
  /-- Part of a fetch block of a context, read from another device (R40, R265); no record holds it. -/
  | fetch (ctx : Nat) (va : DWord) (n : Nat)
  /-- An access of TASK.DONE to a counter or record at another device (R150, R265); no record holds it. -/
  | task (va : DWord) (stage : Nat)
deriving DecidableEq, Repr

/-- What a thread in WAITING lacks when it waits for a bounded structure, or for something in flight, rather than for an operand
or another thread.  Its word issues again when that is there (R83, R101). -/
inductive Room where
  /-- The access cannot be performed yet: a held address, a live range, an earlier access to the same bytes, a full %ACKN or copy
  counter (R196, R206, R224, R228, R338). -/
  | access (a : Access)
  /-- n bytes of scratch of the own core or a member's, at a scratch address, under a live range or with the team away (R338). -/
  | span (sa : Word) (n : Nat)
  /-- A write of a mirror's block (R177). -/
  | mirror (va : DWord)
  /-- A packet that is being fetched. -/
  | packet (pkt : Word)
  /-- The line of a peer that an earlier word of the issue group reads. -/
  | line (dev wa : Nat)
  /-- A place in the engine queue, with a collector to take, and with a region that the word reads, or takes as its range (R235,
  R248, R338). -/
  | engine (take : Bool) (region : Option (Nat × Nat × Bool))
  /-- A place in the walker queue, and the job's record (R341). -/
  | walker (sa : Word)
  /-- A page of the context that a range invalidation or a page lock holds. -/
  | page (va : Nat)
  /-- Queued writes of the core to n bytes at a home. -/
  | queued (h : Home) (n : Nat)
  /-- The answer to an access of TASK.DONE at another device (R150). -/
  | answer
deriving DecidableEq, Repr

/-- What a thread in WAITING waits for (R101).  `word` kinds hold the thread at the word, which it issues again. -/
inductive WaitKind where
  /-- A REJOIN on mask j (R88); released by the thread that completes the mask. -/
  | rejoin (j : Nat)
  /-- A member-mask collective reached with this mask (R89), and where the word stands: the thread may stand at the first word of its
  issue group. -/
  | collective (mask : Word) (at_ : Pc)
  /-- A full-group word reached (R91), and where it stands. -/
  | fullGroup (at_ : Pc)
  /-- SYNC.WAIT or ARRW on object obj for a token (R184). -/
  | sync (obj : Nat) (token : Word)
  /-- CPW of a tag down to n copies (R336). -/
  | cpw (tag n : Nat)
  /-- A lock bit held by another thread (R332). -/
  | lock
  /-- YIELD or SYS.SLEEP until this front cycle of the core (R352, R361). -/
  | timer (sleep : Bool) (until_ : Nat)
  /-- A release at a scope that earlier writes hold back (R195). -/
  | release (scope : Nat)
  /-- SEND.EMARK toward a device (R380). -/
  | marker (dev : Nat)
  /-- FENCE.OPRDY: every pending load of the thread. -/
  | operand
  /-- An operand of the next issue group, which a pending load targets (R57, R101). -/
  | pending
  /-- Room in a bounded structure, or the end of something in flight. -/
  | room (what : Room)
  /-- A task record (R149). -/
  | task (level : Nat)
  /-- A DEFER MMA of the group that has not arrived (R245). -/
  | deferMma
  /-- TOPK.READ queued in the engine (R372); released when it starts. -/
  | engine
  /-- A TASK word whose group, the lanes named, waits for the releases of all of them at a scope (R379). -/
  | together (scope : Nat) (lanes : Word)
deriving DecidableEq, Repr

/-- The states of a thread (R101).  `yielded` is a thread stopped at SYS.PYLD (R124). -/
inductive ThreadStatus where
  | ready
  | waiting (w : WaitKind)
  | parked (cause : Cause)
  | exited
  | yielded
deriving DecidableEq, Repr

/-- What a thread held before the issue group that it is in the middle of: the registers and predicates that the group
uses, and its special registers.  A departure from the group brings them back (R42, R60). -/
structure GroupStart where
  /-- Register, value, and how often it had been written (R204). -/
  regs : List (Nat × Word × Nat)
  /-- Registers that a load in flight targeted: its landing is no effect of the group. -/
  loading : List Nat
  preds : List (Nat × Bool)
  fflags : Word
  fenable : Word
  frm : Word
  seltag : Word
  selg : Word
  epc : Word
  ecause : Word
  stkp : Word
deriving DecidableEq, Repr

/-- A thread (R81, R82, R300). -/
structure Thread where
  regs : List Word
  /-- How often each register has been written: an MMA's operand read finds a register changed by it (R204; the model's own). -/
  writes : List Nat
  preds : BitVec 8
  latches : List Word
  /-- Results of the issue group in progress that enter the latches at its end (R59). -/
  pushes : List Word
  pc : Pc
  inRun : Bool
  runStart : Pc
  runLen : Nat
  /-- Where a departure resumes when only NOP groups of the run remain (R60). -/
  tail : Option Pc
  status : ThreadStatus
  stopped : Bool
  record : List Access
  /-- The cause that record entry 0 met (R92). -/
  recCause : Cause
  aside : List Access
  /-- The result of a wait that has ended; the waiting word takes it when it issues again.  A thread whose phase has completed
  holds it from then on, though it waits for its cluster's release (R191). -/
  grant : Option Word
  /-- The ranges bound to the object when the thread's wait issued: its acquire covers these (R185). -/
  bound : List (DWord × Nat)
  fflags : Word
  fenable : Word
  frm : Word
  seltag : Word
  selg : Word
  epc : Word
  ecause : Word
  stkp : Word
  repc : Nat
  ackScr : Nat
  ackAll : Nat
  /-- Hidden count of writes to package memory (R196). -/
  ackPkg : Nat
  /-- Hidden counts of writes per peer device (R196). -/
  ackDev : List (Nat × Nat)
  nackPending : Bool
  /-- An acquire ordering of an earlier atomic waits for the thread's remote loads; no later word goes before it (R198, R200). -/
  acq : Bool
  copyFault : Bool
  /-- The release of a SEND.EMARK has begun: a NACK of the wait it makes is no longer met by it (R380). -/
  marking : Bool
  cnt : List Nat
  cycSnap : Word
  lastIssue : Nat
  /-- Front cycle of the core at which the thread was last seen not ready (R83, R86). -/
  readyAt : Nat
  /-- Front cycle at which another thread last issued from the path on which this one stands (R86). -/
  pathAt : Nat
  /-- Set while the thread waits in the middle of an issue group. -/
  before : Option GroupStart
  parkedAt : Nat
  /-- The object and token of an ARRW that has arrived, kept by a thread that restarts at its run's first word while it waits: the word
  arrives no second time (R117, R131). -/
  kept : Option (Nat × Word)
  /-- Page on which the thread is parked without a record: a fetch, or a TASK.DONE (R40, R219). -/
  waitPage : Option Nat
deriving DecidableEq, Repr

/-- A rejoin mask (R88): EMPTY when enrolled is zero. -/
structure RejoinMask where
  enrolled : BitVec 32
  arrived : BitVec 32
deriving DecidableEq, Repr

/-- The count of the convergence limit for one collective instance, or for one full-group word (R90, R91). -/
structure Limit where
  pc : Pc
  full : Bool
  /-- Lanes that have arrived, and lanes that are named. -/
  arrived : Word
  named : Word
  count : Nat
  /-- A named member was parked or stopped when the count was last brought forward. -/
  held : Bool
deriving DecidableEq, Repr

/-- A group (R81). -/
structure Group where
  role : Nat
  nreg : Nat
  masks : List RejoinMask
  causes : BitVec 256
  dqbase : Word
  dqlen : Word
  dqcnt : Word
  stopReq : Bool
  stopped : Bool
  limits : List Limit
  threads : List Thread
deriving DecidableEq, Repr

/-- STATE of a sync object (R182). -/
inductive SyncState where
  | uninit
  | active
  | error
deriving DecidableEq, Repr

/-- A sync object (R182). -/
structure SyncObj where
  state : SyncState
  exp : Nat
  xtra : Nat
  arr : Nat
  phase : Nat
  ecode : Cause
  ranges : List (DWord × Nat)
deriving DecidableEq, Repr

/-- States of a residency-table entry (R239). -/
inductive BankState where
  | empty | loading | resident | draining
deriving DecidableEq, Repr

/-- One weight bank with its accumulator and residency-table entry (R236, R240). -/
structure Bank where
  id : BitVec 8
  state : BankState
  before : BankState
  quant : Bool
  gacc : Bool
  lost : Bool
  /-- QBITS, GSZ of the header; bad for a header R238 calls reserved. -/
  qbits : Nat
  gsz : Nat
  bad : Bool
  scales : List (BitVec 16)
  zeros : List Byte
  cells : List (BitVec 16)
  acc : List Word
deriving DecidableEq, Repr

/-- A held operand collector (R248). -/
structure Collector where
  team : Nat
  grp : Nat
  rows : List (List Word)
deriving DecidableEq, Repr

/-- A Sedge set (R249): rows of (FP32 value, index). -/
structure Sedge where
  k : Nat
  owner : Option Nat
  rows : List (List (Word × BitVec 16))
deriving DecidableEq, Repr

/-- States of a named object (R169). -/
inductive ObjState where
  | resident | moving | spilled | restoring | lost
deriving DecidableEq, Repr

/-- A live directory entry with its region (R167, R168). -/
structure Obj where
  ctx : Nat
  name : DWord
  state : ObjState
  doomed : Bool
  k : Nat
  holder : Nat
  base : Nat
  size : Nat
  mirror : Option Nat
  /-- Blocks of 256 bytes written since the last mirror write (R177). -/
  dirty : List Nat
  target : Nat
  targetBase : Nat
  backing : Memory
  /-- The move is a placement move for this launch. -/
  forLaunch : Option Nat
deriving DecidableEq, Repr

/-- A tile-walker job (R341 to R343). -/
structure TwkJob where
  team : Nat
  tid : Nat
  fn : Nat
  recd : List Byte
  coords : List Word
  sig : Nat
  tile : Nat
  /-- Where the tile that has begun lies, the offsets of its region and of the index list, and how many of its elements are done. -/
  at_ : Option (Nat × Nat)
  elem : Nat
  running : Bool
  /-- Virtual address of the absent page, or of the protected one, at which the job pauses. -/
  paused : Option Nat
  /-- The job pauses until the thaw, rather than for a reply (R221, R223). -/
  thaw : Bool
  error : Bool
  /-- Base of the scoreboard range of the current tile, once it is taken. -/
  ranged : Option Nat
  /-- The remote access the tile waits for, and the answers it has (R265): element number and data. -/
  txid : Option Nat
  got : List (Nat × List Byte)
deriving DecidableEq, Repr

/-- Team states (R100). -/
inductive TeamState where
  | resident
  | saving
  | swapped
  /-- Killed; in-flight work drains before its room is freed (R109). -/
  | killing
  | ended
deriving DecidableEq, Repr

/-- A named object a team has open; lost after the loss of its holder (R179).  One that the team has handed on is closed, but for
tile-walker jobs issued before, until its copy begins (R175). -/
structure OpenRef where
  name : DWord
  lost : Bool
  handed : Bool
deriving DecidableEq, Repr

/-- A team (R81, R97, R100). -/
structure Team where
  id : Nat
  launch : Nat
  cix : Nat
  ctx : Nat
  x : Nat
  y : Nat
  z : Nat
  clx : Nat
  core : Nat
  winBase : Nat
  scrsz : Nat
  pad : Bool
  state : TeamState
  groups : List Group
  syncs : List SyncObj
  opens : List OpenRef
  /-- The window's bytes while the team is saved (R97). -/
  savedWin : Memory
  /-- Order of placement on the core, and of swapping (R96, R98). -/
  placedAt : Nat
  swappedAt : Nat
  forced : Bool
  /-- The swapped COR teams on whose reservations the team runs (R99). -/
  lent : List Nat
  /-- The save belongs to a pre-emption rather than to a swap. -/
  preempted : Bool
  roundFailed : Bool
  /-- Front cycle of the former core at which the first attempt to return failed (R98). -/
  roundFrom : Nat
  anyCore : Bool
  savedCols : List Collector
  savedSedge : List (Nat × Sedge)
  /-- Tile-walker jobs stopped at a tile boundary by the save (R97). -/
  savedJobs : List TwkJob
deriving DecidableEq, Repr

/-- A role of a launch record (R154). -/
structure RoleRec where
  entry : Word
  nreg : Nat
  ngrp : Nat
deriving DecidableEq, Repr

/-- A bucket entry (R157). -/
structure BucketRec where
  lo : Nat
  hi : Nat
  entry : Word
  sel : Nat
  valid : Bool
  tile : Nat
deriving DecidableEq, Repr

/-- A launch record (R154). -/
structure LaunchRec where
  cor : Bool
  det : Bool
  reissue : Bool
  sys : Bool
  roles : List RoleRec
  teamdim : List Nat
  shx : Nat
  shy : Nat
  grid : List Nat
  scrsz : Nat
  names : List DWord
  buckets : List BucketRec
  pdeadline : Nat
  waitmax : Nat
  sigaddr : DWord
  sigscope : Nat
  handler : Word
  placeEn : Bool
  placeDie : Nat
  placeMask : BitVec 48
deriving DecidableEq, Repr

/-- States of a launch (R166). -/
inductive LaunchState where
  | dispatching
  | running
  | ended
deriving DecidableEq, Repr

/-- A launch (R154 to R166). -/
structure Launch where
  id : Nat
  ctx : Nat
  fn : Nat
  q : Nat
  pkt : Word
  recd : LaunchRec
  args : DWord
  sh : List Word
  sigval : DWord
  bucket : Nat
  grid : List Nat
  det : Bool
  state : LaunchState
  /-- The declared name that draws the clusters (R172). -/
  draw : Option DWord
  /-- Plan of a COR launch (R160): origin core of each cluster, in ascending cluster index, until all are placed. -/
  plan : List Nat
  /-- Next cluster index to hand out, then indices to hand out again (R161, R163). -/
  next : Nat
  again : List Nat
  /-- Chunk table: die, first index, length (R162). -/
  chunks : List (Nat × Nat × Nat)
  /-- The die whose Heron is master, and the die that holds a copy of the table: chunks, and clusters that have ended (R162). -/
  master : Nat
  copyDie : Option Nat
  copy : List (Nat × Nat × Nat) × List Nat
  /-- Windows reserved on the cores of a placement move (R174): core and base. -/
  wins : List (Nat × Nat)
  /-- Clusters handed to a die and not placed: (die, cluster index). -/
  todo : List (Nat × Nat)
  endedTeams : Nat
  killed : Nat
  dieLost : Bool
  rounds : Nat
  /-- Front cycle of the holder's core at which the dispatch round in progress began (R173). -/
  roundFrom : Nat
  turn : Nat
  roff : Nat
  gsyncs : List SyncObj
  /-- Grid objects whose completed phase is still being released (R191): object, clusters in order. -/
  releasing : List (Nat × List Nat)
  /-- Clusters of a COR launch whose teams may issue (R160). -/
  started : List Nat
  /-- For each grid object, the cycles of its last local arrival and of its last completion (R276). -/
  gtimes : List (Nat × Nat)
  /-- Phases that remote markers completed: wait and length, the last eight (R276). -/
  skew : List (Nat × Nat)
  /-- Die, quarter and the front clock before firmware first lowered it (R276). -/
  ceil : List (Nat × Nat × Nat)
deriving DecidableEq, Repr

/-- A cluster (R159, R181): its sync objects and the grid phases it has been released into (R191). -/
structure Cluster where
  launch : Nat
  cix : Nat
  origin : Nat
  syncs : List SyncObj
  gview : List Nat
  ended : Bool
deriving DecidableEq, Repr

/-- Context states (R120). -/
inductive CtxState where
  | free | ready | running | preempting | saved | checkpointing | frozen | restoring | failed | teardown | scrubbing
deriving DecidableEq, Repr

/-- A fetched packet that is not complete (R143), or complete but not passed by QDONE. -/
structure Packet where
  /-- The context the queue named when the packet was fetched (R143). -/
  ctx : Nat
  index : Word
  addr : Nat
  type : Nat
  body : List Byte
  /-- Waits for earlier packets before it is dispatched. -/
  held : Bool
  complete : Bool
  /-- Control-core cycle at which the packet was dispatched; a TIMEOUT counts from it (R142). -/
  since : Nat
deriving DecidableEq, Repr

/-- A task queue (R148): level 1 core, 2 quarter, 3 die.  Each record is held with the launch that pushed it. -/
structure TaskQueue where
  ctx : Nat
  level : Nat
  ix : Nat
  recs : List (Nat × List Byte)
deriving DecidableEq, Repr

/-- A recorded checkpoint generation (R132, R133). -/
structure Generation where
  num : Nat
  base : Bool
  buddy : Bool
  teams : List Team
  launches : List Launch
  clusters : List Cluster
  /-- Function, queue, read pointers and packets not complete. -/
  queues : List (Nat × Nat × Word × Word × List Packet)
  /-- Pages by physical base at the time: virtual page, bytes it maps, contents. -/
  pages : List (Nat × Nat × Memory)
  /-- KMAC tags of the 4 KiB blocks of each page and of each object, and of those that hold the rest (R133). -/
  tags : List (Nat × List (BitVec 256))
  restTags : List (BitVec 256)
  objs : List (Obj × Memory)
  /-- Tile-store images: core, banks, Sedge sets, collectors. -/
  tiles : List (Nat × List Bank × List Sedge × List Collector)
  tasks : List TaskQueue
deriving DecidableEq, Repr

/-- Part of a fetch block that lies on another device: its read is under way (txid), or it has come, or it met a cause. -/
structure PeerLine where
  va : Nat
  txid : Option Nat
  data : List Byte
  cause : Option Cause
deriving DecidableEq, Repr

/-- A context: its descriptor (R118) and its life (R120). -/
structure Ctx where
  id : Nat
  state : CtxState
  before : CtxState
  capture : Bool
  det : Bool
  sysok : Bool
  ckpt : Bool
  ptroot : Nat
  codebase : Nat
  savebase : Nat
  savesz : Nat
  agemax : Nat
  convlim : Nat
  swapfrac : Nat
  swapcyc : Nat
  pdefault : Nat
  ntag : BitVec 16
  /-- The 512 bytes of the descriptor as they stand (R118). -/
  desc : List Byte
  modes : List Nat
  buddy : BitVec 12
  buddyaddr : DWord
  buddysz : DWord
  capbase : Nat
  capsz : Nat
  /-- Code bytes as fetch sees them: package memory as it stood at the context's last launch (R40). -/
  code : Memory
  /-- The same for host memory. -/
  hostCode : Memory
  /-- Code of pages on other devices, as fetched since the last launch. -/
  peerCode : List PeerLine
  /-- Ranges of pages, first and last, whose instruction-cache lines have been dropped since: the next fetch from such a page
  reads it anew (R221, R224). -/
  stale : List (Nat × Nat)
  gen : Nat
  gens : List Generation
  ckptPending : Bool
  ckptBase : Bool
  preemptPending : Bool
  /-- A FREEZE met during a forced save: what firmware is told when the save has finished (R120). -/
  freezeAfter : Option (List Nat)
  capUsed : Nat
  /-- The records that the capture log holds (R135). -/
  log : List LogRec
  /-- Under replay, the records that are still to be supplied (R136). -/
  replay : Option (List LogRec)
  /-- Reads of %CYCL and %CYCH by each thread, by core and TID (R135, R136). -/
  reads : List (Nat × Nat × Nat)
  /-- Undefined words that the context's MMAs have read: the next one's number (R4, R204; the model's own). -/
  undef : Nat
  vfs : List Nat
  /-- Pages of package memory that the context held at its teardown, base and bytes: they are cleared before it is FREE (R120, R137). -/
  toClear : List (Nat × Nat)
  /-- The context's energy count, in nanojoules: its own work, and the scrubs and fillers of its departures (R274). -/
  energy : Nat
deriving DecidableEq, Repr

/-- An MMA with what it captured at issue (R368).  `seen` holds, lane by lane, how often each operand register had been
written, none for a register with a load pending (R204). -/
structure MmaOp where
  team : Nat
  grp : Nat
  fn : Nat
  fmt : Nat
  abase : Nat
  o : Nat
  keep : Bool
  acc : Bool
  /-- Core-physical output address. -/
  out : Nat
  sig : Nat
  /-- Miss policy; for FWDK the Sedge set. -/
  miss : Nat
  useCol : Bool
  tags : List Word
  gates : List Word
  seen : List (List (Option Nat))
deriving DecidableEq, Repr

/-- A word of the engine queue (R235, R370, R372). -/
inductive EngOp where
  | mma (m : MmaOp)
  | bank (team grp fn bank : Nat) (sa : Nat) (id8 : BitVec 8) (sig : Nat)
  | topkInit (team grp k set : Nat)
  | topkRead (team grp set d : Nat)
deriving DecidableEq, Repr

/-- A started engine word: the bank each row slot of an MMA resolved to (R241), the bytes a BANK word read or will write. -/
structure EngRun where
  op : EngOp
  hits : List (Option Nat × Option Nat)
  data : List Byte
deriving DecidableEq, Repr

/-- A copy in flight (R334, R335). -/
structure Copy where
  ref : ThreadRef
  tag : Nat
  ga : DWord
  dst : Nat
  k : Nat
  held : Option Nat
  /-- The copy is held until the thaw, rather than for a reply (R221, R223). -/
  thaw : Bool
  /-- The remote read the copy waits for, and the answers it has: address and data. -/
  txid : Option Nat
  got : List (Nat × List Byte)
  /-- The read was refused or lost: zeros, and a copy fault (R335). -/
  failed : Bool
deriving DecidableEq, Repr

/-- A scoreboard range of core-physical scratch (R338). -/
structure SbRange where
  base : Nat
  len : Nat
  writes : Nat
  cpy : Bool
deriving DecidableEq, Repr

/-- What an acknowledgement counts down (R196): package memory, a peer device, remote scratch; or ALL alone, which is host
memory and an atomic on the own core's scratch. -/
inductive AckKind where
  | pkg
  | host
  | dev (d : Nat)
  | scr
deriving DecidableEq, Repr

/-- A load, atomic response or non-faulting load in flight (R57): registers d.. take words, pk the predicate. -/
structure InFlight where
  ref : ThreadRef
  d : Nat
  words : List Word
  pk : Option (Nat × Bool)
  /-- The landing is also the acknowledgement of an atomic (R197). -/
  ack : Option AckKind
  /-- Waits for a remote answer with this transaction id. -/
  txid : Option Nat
  /-- The virtual address of a global access (R224). -/
  va : Option Nat
deriving DecidableEq, Repr

/-- A write in a core's store queue, or acknowledged later (R193, R197). -/
structure QStore where
  ref : ThreadRef
  ctx : Nat
  va : Nat
  home : Home
  data : List Byte
  /-- The write has been performed and awaits only its acknowledgement. -/
  done : Bool
  txid : Option Nat
deriving DecidableEq, Repr

/-- A line of an L1 data cache (R194), tagged by context and virtual address. -/
structure L1Line where
  ctx : Nat
  va : Nat
  data : List Byte
deriving DecidableEq, Repr

/-- A cached translation (R215): level 1, 2 or 3 leaf and the entry as filled. -/
structure TlbEntry where
  ctx : Nat
  level : Nat
  page : Nat
  pte : DWord
  pteAt : Nat
deriving DecidableEq, Repr

/-- A held scratch lock bit (R331). -/
structure LockBit where
  bank : Nat
  ix : Nat
  holder : ThreadRef
deriving DecidableEq, Repr

/-- %PREQ of a context on a core (R123). -/
structure Preq where
  ctx : Nat
  req : Bool
  ckpt : Bool
  /-- Front cycle of the core at which REQ was set; deadlines count from it (R125). -/
  since : Nat
deriving DecidableEq, Repr

/-- A core's held run: the bundle that R84 holds the core to. -/
structure HeldRun where
  bundle : List ThreadRef
deriving DecidableEq, Repr

/-- A core (R81, R236, R338, R339). -/
structure Core where
  id : Nat
  disabled : Bool
  fenced : Bool
  owner : Option Nat
  scrubbing : Bool
  /-- The context whose state the scrub in progress clears (R121, R137). -/
  departing : Option Nat
  ramp : Bool
  cyc : Nat
  /-- Control-core cycles up to which the core's front cycles have been counted (the model's own). -/
  ns : Nat
  /-- The cycle up to which the waits of the core's threads have been counted (R86, R90). -/
  counted : Nat
  scratch : Memory
  held : Option HeldRun
  oldest : Bool
  loads : List InFlight
  storeq : List QStore
  l1 : List L1Line
  l1tlb : List TlbEntry
  wtlb : List TlbEntry
  copies : List Copy
  ranges : List SbRange
  locks : List LockBit
  banks : List Bank
  collectors : List Collector
  sedge : List Sedge
  engq : List EngOp
  engRun : List EngRun
  twq : List TwkJob
  preqs : List Preq
  /-- That the save area has no room for an object of the core has been reported (R176). -/
  short : Bool
  /-- Tile-store images saved for contexts that left the core (R126). -/
  images : List (Nat × List Bank × List Sedge × List Collector)
deriving DecidableEq, Repr

/-- A die: translation, Sluice, slope limiter (R215, R225, R226, R229, R271). -/
structure Die where
  id : Nat
  fenced : Bool
  rebuilding : Bool
  tlb : List TlbEntry
  walkCache : List TlbEntry
  /-- Background walks pending: context, page, core (R218). -/
  bgWalks : List (Nat × Nat × Nat)
  /-- Sluice counters: context, page, requester die, count, and whether a store reached the page (R225). -/
  counts : List (Nat × Nat × Nat × Nat × Bool)
  /-- Replica table: context, page, frame address (R229). -/
  replicas : List (Nat × Nat × Nat)
  slew : Nat
  cload : Nat
  newSlew : Nat
  newCload : Nat
  est : Nat
  real : Nat
  filler : Nat
  placedThisStep : Nat
  /-- Front cycles of quarter 0 since reset, and the number of the step (R271) and of the epoch (R225) that have been taken account
of. -/
  q0 : Nat
  stepAt : Nat
  epochAt : Nat
  /-- The contexts whose departures caused the ramp (R274). -/
  rampCtx : List Nat
  /-- Energy of what the estimate counts, in nanojoules, since the last step boundary (R271; the model's own). -/
  work : Nat
  /-- What the last reported load had beyond that, in watts (the model's own). -/
  rest : Nat
deriving DecidableEq, Repr

/-- A quarter's clock (R12, R269): front clock in MHz and lane ratio in halves. -/
structure Quarter where
  die : Nat
  ix : Nat
  front : Nat
  ratio2 : Nat
  relocking : Bool
  /-- The instant by which the clocks have relocked: 2,048 cycles of the old front clock after the change (R269). -/
  until_ : Nat
  /-- Front cycles since reset that had been counted when the setting changed last, and that instant (the model's own). -/
  base : Nat
  at_ : Nat
deriving DecidableEq, Repr

/-- An access that a queue makes for itself and that has no end yet (R395): for the packet pkt, at va.  It waits for a
page request (no txid), for a remote answer (txid), or for a thaw (hold); res is its end, none inside for a failure. -/
structure QAccess where
  /-- The context in whose addresses it is made. -/
  ctx : Nat
  pkt : Word
  va : Nat
  txid : Option Nat
  dev : Nat
  hold : Bool
  res : Option (Option (List Byte))
  /-- When it was made, in control-core cycles. -/
  since : Nat
  /-- The header of the launch message for which it is made, if it is for one (R153). -/
  frame : Option Nat
deriving DecidableEq, Repr

/-- A host queue (R139). -/
structure HostQueue where
  fn : Nat
  q : Nat
  qbase : DWord
  log2n : Nat
  ctxid : Nat
  inbound : Bool
  en : Bool
  qrd : Word
  qdone : Word
  evbase : DWord
  evwr : Word
  evrd : Word
  evlost : Bool
  noterr : Bool
  frozen : Bool
  halted : Bool
  /-- The context and the ring address of the packet at which the queue halted, fixed when it was fetched (R143, R144). -/
  haltAt : Nat × Nat
  limit : Option Word
  pkts : List Packet
  accs : List QAccess
deriving DecidableEq, Repr

/-- A tenant-table entry (R152). -/
structure Tenant where
  ix : Nat
  valid : Bool
  frozen : Bool
  srcdev : BitVec 12
  tag : BitVec 16
  reclo : BitVec 56
  rechi : BitVec 56
  func : BitVec 8
  queue : BitVec 4
  maxgrid : BitVec 32
deriving DecidableEq, Repr

/-- An open page request (R220). -/
structure PageReq where
  ctx : Nat
  page : Nat
  kinds : BitVec 5
  core : Nat
  level : Nat
  posted : Bool
deriving DecidableEq, Repr

/-- A record that firmware holds for the page-request ring (R220): the ABSENT record of an open request, or eight words. -/
inductive PrqItem where
  | absent (ctx page : Nat)
  | words (ws : List Word)
deriving DecidableEq, Repr

/-- A pending range invalidation (R224). -/
structure RangeInv where
  ctx : Nat
  base : Nat
  len : Nat
  /-- False while it waits for one of the 64 places. -/
  active : Bool
deriving DecidableEq, Repr

/-- A migration or replication copy in progress (R228, R229). -/
structure Migration where
  ctx : Nat
  page : Nat
  src : Nat
  dst : Nat
  pteAt : Nat
  pte : DWord
  replica : Option Nat
deriving DecidableEq, Repr

/-- Ngaser port states (R259). -/
inductive PortState where
  | down | training | up | degraded | fenced
deriving DecidableEq, Repr

/-- An Ngaser port (R259). -/
structure Port where
  ix : Nat
  state : PortState
  /-- When the port entered TRAINING, within the last 2^30 link cycles. -/
  trainings : List Nat
  /-- When its training failed: it is tried again 2^20 link cycles later. -/
  failedAt : Option Nat
deriving DecidableEq, Repr

/-- A frame this device has sent and no ACKSEQ has covered (R261). -/
structure Sent where
  dst : Nat
  vc : Nat
  seq : Nat
  hdr : BitVec 256
  payload : List Byte
  /-- The CRC-32 that closes the frame (R260). -/
  crc : BitVec 32
  tries : Nat
  port : Nat
  /-- When it was last sent, in link cycles. -/
  since : Nat
deriving DecidableEq, Repr

/-- A frame that waits.  An access that has passed step 1 of R263 is not turned away by a later freeze of its entry (R264). -/
structure HeldFrame where
  hdr : BitVec 256
  payload : List Byte
  passed : Bool
deriving DecidableEq, Repr

/-- Receive side of one (source, VC) (R261): every number below next has come, and the numbers above it that have. -/
structure RxState where
  src : Nat
  vc : Nat
  next : Nat
  above : List Nat
deriving DecidableEq, Repr

/-- A remote access without an answer (R265). -/
structure Remote where
  txid : Nat
  core : Nat
  ref : ThreadRef
  dev : Nat
  /-- The address at the device. -/
  wa : Nat
  acc : Access
  /-- Its answer may fill a line of the core's L1: no acquire and no invalidation has come since it was issued (R194, R198). -/
  fills : Bool
  /-- Front cycle of the issuing core at issue. -/
  since : Nat
deriving DecidableEq, Repr

/-- An access that TASK.DONE has made at another device, for the lowest issuing thread of a group: its stage and, when it has come,
its answer, or the cause with which it failed. -/
structure TaskAsk where
  ref : ThreadRef
  stage : Nat
  data : Option (List Byte)
  cause : Option Cause
deriving DecidableEq, Repr

/-- Firmware slot states (R280). -/
inductive SlotState where
  | empty | pending | active | standby | failed
deriving DecidableEq, Repr

/-- An image of a slot, with the numbers of its header (R279). -/
structure Image where
  version : Nat
  statever : Nat
  digest : List Byte
  body : List Byte
deriving DecidableEq, Repr

/-- A firmware image slot (R279, R280): the monitor's image, the scheduler's, and those of plug-ins in tenant order (R277, R278). -/
structure Slot where
  state : SlotState
  images : List Image
deriving DecidableEq, Repr

/-- What survives power loss: secure flash and the configuration records (R16, R17, R280, R281). -/
structure Flash where
  slots : List Slot
  minVersion : Nat
  recVersion : Nat
  keyIndex : Nat
  /-- Cores and dies that firmware has added to the disabled list (R18). -/
  disabled : List Nat
  /-- The record set that boot reads. -/
  records : ConfigRecords
deriving DecidableEq, Repr

/-- Stage of a live update (R284): it waits for a checkpoint in progress, with the outcome of its signature check (R285), or the new
image has control since an instant. -/
inductive UpdateStage where
  | none
  | waiting (sigOk : Bool)
  | handed (slot since : Nat)
deriving DecidableEq, Repr

/-- What the old image hands over (R284). -/
structure HandOver where
  /-- Contexts and their states. -/
  contexts : List (Nat × CtxState)
  /-- Queue indices: function, queue, QRD, QDONE, EVWR and EVRD. -/
  queues : List (Nat × Nat × List Word)
  pageReqs : List PageReq
  /-- Chunk tables: launch, and die, first index and length of each chunk. -/
  chunks : List (Nat × List (Nat × Nat × Nat))
  /-- EPOCH, THRESH, QMAX, WATER and MAXREPL. -/
  sluice : List Nat
  /-- PCAP; die, SLEW and CLOAD; die, quarter, front clock and ratio. -/
  pcap : Nat
  slews : List (Nat × Nat × Nat)
  clocks : List (Nat × Nat × Nat × Nat)
deriving DecidableEq, Repr

/-- Energies in nanojoules of what a die's estimate counts: a thread's word, an engine word, an access to DRAM or over Causeway, a scrub
of a core (R271, R274, R275). -/
structure Meter where
  word : Nat
  engine : Nat
  access : Nat
  scrub : Nat
deriving DecidableEq, Repr

/-- Something the device tells firmware or system software: a kind and its numbers. -/
structure Notice where
  kind : String
  args : List Nat
deriving DecidableEq, Repr

/-- The word being issued: its core, its bundle, its place and the word after it in its packet.  `raised` collects the
exact causes met, `group` counts the words of the issue group before this one. -/
structure Issue where
  core : Nat
  bundle : List ThreadRef
  pc : Pc
  next : Option Word
  raised : List (ThreadRef × Cause)
  /-- A REP stands where its group or its run does not allow it (R66). -/
  bad : Bool
  /-- What REP adds to the off9 of its target (R64). -/
  bump : Nat
  /-- The first word of the issue group. -/
  start : Pc
  /-- Front cycles since the group's first word issued: words of one pipe and iterations of a REP issue one after another (R57, R87). -/
  off : Nat
  /-- The whole bundle waits, at the word where it stands or back at the first word of its group (R84). -/
  hold : Bool
deriving DecidableEq, Repr

/-- The package. -/
structure State where
  /-- Device events that have arrived and not been taken, oldest first (the model's own). -/
  inputs : List Instr
  /-- Choices the manual leaves to the picker and to completion order; an empty list chooses the first (the model's own). -/
  sched : List Nat
  /-- Counter of free values used (the model's own). -/
  fresh : Nat
  /-- Counter of steps; issue and completions take turns by it (the model's own). -/
  tick : Nat
  /-- Control-core cycles since reset, at a fixed 1.0 GHz, which a link cycle is as long as (R3, R259; the model's own): the units
  of the package keep no time base in common, and this one only says how far each has gone. -/
  ns : Nat
  issue : Issue
  /-- Package DRAM by physical address (R10, R213). -/
  mem : Memory
  /-- 64-byte blocks of package DRAM, by block number, whose contents are lost to an uncorrectable error (R102). -/
  ecc : List Nat
  /-- Host-visible memory (R211). -/
  hostMem : Memory
  booted : Bool
  failedBoot : Bool
  flash : Flash
  /-- The configuration records in force (R16). -/
  records : ConfigRecords
  update : UpdateStage
  /-- The hand-over structure of an update in progress (R284). -/
  handover : Option HandOver
  /-- The slot whose images run (R278, R280). -/
  running : Option Nat
  /-- Block 1 as the root of trust recorded it at step 1 of the boot (R278, R282). -/
  rootBlock : List Byte
  /-- The nonce of the signature that is being made, its index written, and those of requests that wait (R281). -/
  signing : Option (BitVec 256)
  signs : List (BitVec 256)
  /-- Teardowns and function-level resets held by an update (R285). -/
  heldTeardowns : List Nat
  heldResets : List Nat
  unplugged : List Nat
  measured : List (List Byte)
  attachedEver : Bool
  debuggers : List Nat
  gated : Bool
  wakeFilter : List (Nat × Word × Word)
  wakeHeld : List (List Byte)
  wakeDropped : Nat
  answers : List (List Byte)
  notices : List Notice
  pcap : Nat
  /-- What the dies' estimates weigh (the model's own: the manual gives no number). -/
  meter : Meter
  dies : List Die
  quarters : List Quarter
  cores : List Core
  ctxs : List Ctx
  launches : List Launch
  clusters : List Cluster
  teams : List Team
  /-- Kill records not yet written to their event rings (R145): function, queue and the 64 bytes. -/
  killRecs : List (Nat × Nat × List Byte)
  /-- Firmware's writes, oldest first, that wait for a range invalidation or a page lock (R224, R228): context, address, bytes. -/
  fwHeld : List (Nat × Nat × List Byte)
  serial : Nat
  objs : List Obj
  queues : List HostQueue
  taskqs : List TaskQueue
  tenants : List Tenant
  prqbase : DWord
  prqwr : Word
  prqrd : Word
  /-- Records for the page-request ring, oldest first (R220). -/
  prqHeld : List PrqItem
  pageReqs : List PageReq
  frames : List Nat
  frameErr : Bool
  sluiceEpoch : Nat
  sluiceThresh : Nat
  sluiceQmax : Nat
  sluiceWater : Nat
  sluiceMaxrepl : Nat
  rangeInvs : List RangeInv
  migrations : List Migration
  ports : List Port
  routes : List (Nat × BitVec 16)
  txNext : List (Nat × Nat × Nat)
  sent : List Sent
  /-- Frames this device has sent to itself and not yet received (R263). -/
  loopback : List (BitVec 256 × List Byte)
  /-- Frames received that wait for a page, for an answer or for the end of an update. -/
  heldFrames : List HeldFrame
  rx : List RxState
  remotes : List Remote
  /-- Accesses of TASK.DONE at other devices whose word has not ended (R150). -/
  taskAsks : List TaskAsk
  nextTx : Nat
  unreachable : List Nat
  /-- Route detours taken (R257): source and destination die. -/
  detours : List (Nat × Nat)
deriving DecidableEq, Repr

/-- A thread as R82 starts it, before its launch sets role and entry. -/
def Thread.fresh (nreg : Nat) (entry : Word) : Thread where
  regs := List.replicate nreg 0
  writes := List.replicate nreg 0
  preds := 0
  latches := [0, 0, 0, 0]
  pushes := []
  pc := ⟨entry, 0⟩
  inRun := false
  runStart := ⟨entry, 0⟩
  runLen := 0
  tail := none
  status := .ready
  stopped := false
  record := []
  recCause := 0
  aside := []
  grant := none
  bound := []
  fflags := 0
  fenable := 0
  frm := 0
  seltag := 0x0000FFFF
  selg := 0x00003F80
  epc := 0
  ecause := 0
  stkp := 0
  repc := 0
  ackScr := 0
  ackAll := 0
  ackPkg := 0
  ackDev := []
  nackPending := false
  acq := false
  copyFault := false
  marking := false
  cnt := [0, 0, 0, 0]
  cycSnap := 0
  lastIssue := 0
  readyAt := 0
  pathAt := 0
  before := none
  parkedAt := 0
  kept := none
  waitPage := none

/-- An UNINIT sync object (R182). -/
def SyncObj.fresh : SyncObj := ⟨.uninit, 0, 0, 0, 0, 0, [(0, 0), (0, 0), (0, 0), (0, 0)]⟩

/-- A group at launch (R82). -/
def Group.fresh (role nreg : Nat) (entry : Word) : Group where
  role := role
  nreg := nreg
  masks := List.replicate 8 ⟨0, 0⟩
  causes := 0
  dqbase := 0
  dqlen := 0
  dqcnt := 0
  stopReq := false
  stopped := false
  limits := []
  threads := List.replicate 32 (Thread.fresh nreg entry)

/-- A bank after a scrub (R121, R239). -/
def Bank.scrubbed : Bank := ⟨0xFF, .empty, .empty, false, false, false, 0, 0, false, [], [], [], []⟩

/-- A Sedge set after a scrub: every entry empty. -/
def Sedge.scrubbed : Sedge := ⟨1, none, []⟩

/-- A core after reset and scrub (R121, R278). -/
def Core.blank (id : Nat) : Core where
  id := id
  disabled := false
  fenced := false
  owner := none
  scrubbing := false
  departing := none
  ramp := false
  cyc := 0
  ns := 0
  counted := 0
  scratch := []
  held := none
  oldest := false
  loads := []
  storeq := []
  l1 := []
  l1tlb := []
  wtlb := []
  copies := []
  ranges := []
  locks := []
  banks := List.replicate 4 Bank.scrubbed
  collectors := []
  sedge := List.replicate 4 Sedge.scrubbed
  engq := []
  engRun := []
  twq := []
  preqs := []
  short := false
  images := []

/-- A die after reset (R272: SLEW 16 W, CLOAD 2 W). -/
def Die.blank (id : Nat) : Die :=
  ⟨id, false, false, [], [], [], [], [], 16, 2, 16, 2, 0, 0, 0, 0, 0, 0, 0, [], 0, 0⟩

/-- A quarter's clock after reset (R12: 0.95 GHz, ratio 2). -/
def Quarter.blank (die ix : Nat) : Quarter := ⟨die, ix, 950, 4, false, 0, 0, 0⟩

/-- A host queue's registers after reset (R139). -/
def HostQueue.blank (fn q : Nat) : HostQueue :=
  ⟨fn, q, 0, 4, 0, false, false, 0, 0, 0, 0, 0, false, false, false, false, (0, 0), none, [], []⟩

/-- The 256 default delivery modes (R102, R103): 0 PARK, 1 HANDLER, 2 KILL, 3 FREEZE. -/
def defaultMode (c : Nat) : Nat :=
  if c = 1 then 0
  else if c = 2 then 3
  else if c = 0xA9 then 2
  else 1

/-- No word is being issued. -/
def Issue.idle : Issue := ⟨0, [], ⟨0, 0⟩, none, [], false, 0, ⟨0, 0⟩, 0, false⟩

/-- Secure flash as a part is delivered: slot 0 holds the running image (PRESUMED, log entry 8). -/
def Flash.fresh : Flash :=
  let image : Image := ⟨0, 0, List.replicate 32 0, []⟩
  ⟨[⟨.active, [image, image]⟩, ⟨.empty, []⟩], 0, 0, 0, [], ⟨0, [], [], [], 0, [], []⟩⟩

/-- The machine right after reset: the compute complex waits for boot (R278), nothing is placed, no context is bound. -/
def State.reset : State where
  inputs := []
  sched := []
  fresh := 0
  tick := 0
  ns := 0
  issue := Issue.idle
  mem := []
  ecc := []
  hostMem := []
  booted := false
  failedBoot := false
  flash := Flash.fresh
  records := ⟨0, [], [], [], 0, [], []⟩
  update := .none
  handover := none
  running := none
  rootBlock := []
  signing := none
  signs := []
  heldTeardowns := []
  heldResets := []
  unplugged := []
  measured := []
  attachedEver := false
  debuggers := []
  gated := false
  wakeFilter := []
  wakeHeld := []
  wakeDropped := 0
  answers := []
  notices := []
  pcap := 8000
  meter := ⟨0, 0, 0, 0⟩
  dies := []
  quarters := []
  cores := []
  ctxs := []
  launches := []
  clusters := []
  teams := []
  killRecs := []
  fwHeld := []
  serial := 0
  objs := []
  queues := []
  taskqs := []
  tenants := []
  prqbase := 0
  prqwr := 0
  prqrd := 0
  prqHeld := []
  pageReqs := []
  frames := []
  frameErr := false
  sluiceEpoch := 65536
  sluiceThresh := 512
  sluiceQmax := 256
  sluiceWater := 1024
  sluiceMaxrepl := 4
  rangeInvs := []
  migrations := []
  ports := []
  routes := []
  txNext := []
  sent := []
  loopback := []
  heldFrames := []
  rx := []
  remotes := []
  taskAsks := []
  nextTx := 0
  unreachable := []
  detours := []

end Sys2Proof.Machine
end

