-- ==== Sys2Proof/Machine/Ops.lean ====
section
/-!
DEFINITION. Named operations over the state: finding and updating a unit, byte memories, registers and predicates of a
thread, program counters, and taking a cause (R102 to R113).
-/
namespace Sys2Proof.Machine

/-! ## Byte memories -/

/-- The byte an unlisted address reads as (DESIGN CHOICE, log entry 1). -/
def Memory.blank : Byte := 0

/-- One byte. -/
def Memory.read : Memory → Nat → Byte
  | [], _ => Memory.blank
  | (k, v) :: rest, a => if k = a then v else Memory.read rest a

/-- Write one byte, keeping the canonical form. -/
def Memory.write : Memory → Nat → Byte → Memory
  | [], a, b => if b = Memory.blank then [] else [(a, b)]
  | (k, v) :: rest, a, b =>
    if a < k then (if b = Memory.blank then (k, v) :: rest else (a, b) :: (k, v) :: rest)
    else if k = a then (if b = Memory.blank then rest else (a, b) :: rest)
    else (k, v) :: Memory.write rest a b

/-- Every listed address lies above lo, addresses rise strictly, and no byte is the blank byte. -/
def Memory.wfFrom : Option Nat → Memory → Bool
  | _, [] => true
  | lo, (k, v) :: rest =>
    (match lo with
      | none => true
      | some l => l < k) && v != Memory.blank && Memory.wfFrom (some k) rest

/-- The canonical form. -/
def Memory.wf (m : Memory) : Bool := Memory.wfFrom none m

/-- n bytes from a. -/
def Memory.readBytes (m : Memory) (a : Nat) : Nat → List Byte
  | 0 => []
  | n + 1 => m.read a :: Memory.readBytes m (a + 1) n

/-- Write bytes from a upward. -/
def Memory.writeBytes (m : Memory) (a : Nat) : List Byte → Memory
  | [] => m
  | b :: bs => Memory.writeBytes (m.write a b) (a + 1) bs

/-- Zero the n bytes from a: the listed entries there are dropped. -/
def Memory.clear (m : Memory) (a n : Nat) : Memory := m.filter fun c => !(a <= c.1 && c.1 < a + n)

/-- The listed bytes of a region, at offsets from its base. -/
def Memory.slice (m : Memory) (a n : Nat) : Memory :=
  (m.filter fun c => a <= c.1 && c.1 < a + n).map fun c => (c.1 - a, c.2)

/-- Copy a slice to a region at base a. -/
def Memory.paste (m : Memory) (a : Nat) (sl : Memory) : Memory :=
  sl.foldl (fun acc c => acc.write (a + c.1) c.2) m

/-- A little-endian number from bytes (R20). -/
def leNat : List Byte → Nat
  | [] => 0
  | b :: bs => b.toNat + 256 * leNat bs

/-- n little-endian bytes of a number. -/
def leBytes (v : Nat) : Nat → List Byte
  | 0 => []
  | n + 1 => BitVec.ofNat 8 v :: leBytes (v / 256) n

/-- Words of a byte list, four bytes each. -/
def wordsOf (bs : List Byte) : Nat → List Word
  | 0 => []
  | n + 1 => BitVec.ofNat 32 (leNat (bs.take 4)) :: wordsOf (bs.drop 4) n

/-- Bytes of a word list. -/
def bytesOf (ws : List Word) : List Byte := ws.flatMap fun w => leBytes w.toNat 4

/-- A field of a byte record: n bytes at an offset, as a number. -/
def fieldAt (bs : List Byte) (off n : Nat) : Nat := leNat ((bs.drop off).take n)

/-- Every byte of a span is zero. -/
def zeroAt (bs : List Byte) (off n : Nat) : Bool := ((bs.drop off).take n).all (· == 0)

/-- Bits hi down to lo of a number. -/
def bitsOf (v hi lo : Nat) : Nat := v / 2 ^ lo % 2 ^ (hi - lo + 1)

/-! ## Units -/

/-- Die index of a core (R8). -/
def dieOf (core : Nat) : Nat := core / 256

/-- Core number on its die (R8). -/
def numOf (core : Nat) : Nat := core % 64

/-- A core by die and number. -/
def coreOf (die num : Nat) : Nat := die * 256 + num

/-- Quarter of a core number (R8). -/
def quarterOf (num : Nat) : Nat := (if num % 8 < 4 then 0 else 1) + (if num / 8 < 3 then 0 else 2)

/-- Cycles of a clock of so many MHz between two instants, given in control-core cycles. -/
def cyclesIn (mhz t0 t1 : Nat) : Nat := t1 * mhz / 1000 - t0 * mhz / 1000

/-- A quarter's clock. -/
def State.quarter (s : State) (d q : Nat) : Quarter :=
  (s.quarters.find? fun k => k.die == d && k.ix == q).getD (Quarter.blank d q)

/-- Update a quarter's clock. -/
def State.updQuarter (s : State) (d q : Nat) (f : Quarter → Quarter) : State :=
  if s.quarters.any (fun k => k.die == d && k.ix == q) then
    { s with quarters := s.quarters.map fun k => if k.die = d && k.ix = q then f k else k }
  else { s with quarters := f (Quarter.blank d q) :: s.quarters }

/-- Front cycles that a quarter has counted since reset by an instant, at the settings that it has had (R3, R269). -/
def Quarter.cyclesAt (k : Quarter) (t : Nat) : Nat := k.base + cyclesIn k.front k.at_ t

/-- A core on which nothing has happened yet: it has counted the front cycles of its quarter (R3). -/
def State.coreAtRest (s : State) (c : Nat) : Core :=
  let k := s.quarter (dieOf c) (quarterOf (numOf c))
  { Core.blank c with cyc := k.base, ns := k.at_, counted := k.base }

/-- A core, at its reset value when unlisted. -/
def State.core (s : State) (c : Nat) : Core := (s.cores.find? (·.id == c)).getD (s.coreAtRest c)

/-- Update a core. -/
def State.updCore (s : State) (c : Nat) (f : Core → Core) : State :=
  if s.cores.any (·.id == c) then { s with cores := s.cores.map fun k => if k.id = c then f k else k }
  else { s with cores := f (s.coreAtRest c) :: s.cores }

/-- A die on which nothing has happened yet: its quarter 0 has counted since reset. -/
def State.dieAtRest (s : State) (d : Nat) : Die :=
  let n := (s.quarter d 0).cyclesAt s.ns
  { Die.blank d with q0 := n, stepAt := n / 1024, epochAt := n / s.sluiceEpoch }

/-- A die, at its reset value when unlisted. -/
def State.die (s : State) (d : Nat) : Die := (s.dies.find? (·.id == d)).getD (s.dieAtRest d)

/-- Update a die. -/
def State.updDie (s : State) (d : Nat) (f : Die → Die) : State :=
  if s.dies.any (·.id == d) then { s with dies := s.dies.map fun k => if k.id = d then f k else k }
  else { s with dies := f (s.dieAtRest d) :: s.dies }

/-- Energy in nanojoules is spent on a die, by a context or for its departure (R271, R274). -/
def State.spend (s : State) (die ctx nj : Nat) : State :=
  if nj = 0 then s
  else
    let s := s.updDie die fun d => { d with work := d.work + nj }
    { s with ctxs := s.ctxs.map fun k => if k.id = ctx then { k with energy := k.energy + nj } else k }

/-- Load of a context leaves a die: a ramp that follows is of its departure (R274). -/
def State.departs (s : State) (die ctx : Nat) : State :=
  s.updDie die fun d => { d with rampCtx := if d.rampCtx.contains ctx then d.rampCtx else d.rampCtx ++ [ctx] }

/-- A new image has control and has not yet been accepted: an update is in progress (R284). -/
def State.updating (s : State) : Bool := match s.update with
  | .handed _ _ => true
  | .none | .waiting _ => false

/-- A context. -/
def State.ctx? (s : State) (c : Nat) : Option Ctx := s.ctxs.find? (·.id == c)

/-- Update a context. -/
def State.updCtx (s : State) (c : Nat) (f : Ctx → Ctx) : State :=
  { s with ctxs := s.ctxs.map fun k => if k.id = c then f k else k }

/-- A launch. -/
def State.launch? (s : State) (l : Nat) : Option Launch := s.launches.find? (·.id == l)

/-- Update a launch. -/
def State.updLaunch (s : State) (l : Nat) (f : Launch → Launch) : State :=
  { s with launches := s.launches.map fun k => if k.id = l then f k else k }

/-- A cluster of a launch. -/
def State.cluster? (s : State) (l cix : Nat) : Option Cluster :=
  s.clusters.find? fun k => k.launch == l && k.cix == cix

/-- Update a cluster. -/
def State.updCluster (s : State) (l cix : Nat) (f : Cluster → Cluster) : State :=
  { s with clusters := s.clusters.map fun k => if k.launch = l && k.cix = cix then f k else k }

/-- A team. -/
def State.team? (s : State) (t : Nat) : Option Team := s.teams.find? (·.id == t)

/-- Update a team. -/
def State.updTeam (s : State) (t : Nat) (f : Team → Team) : State :=
  { s with teams := s.teams.map fun k => if k.id = t then f k else k }

/-- A group. -/
def State.group? (s : State) (t g : Nat) : Option Group := (s.team? t).bind fun tm => tm.groups[g]?

/-- Update a group. -/
def State.updGroup (s : State) (t g : Nat) (f : Group → Group) : State :=
  s.updTeam t fun tm => { tm with groups := tm.groups.modify g f }

/-- A thread. -/
def State.thread? (s : State) (r : ThreadRef) : Option Thread :=
  (s.group? r.team (r.tid / 32)).bind fun g => g.threads[r.tid % 32]?

/-- Update a thread. -/
def State.updThread (s : State) (r : ThreadRef) (f : Thread → Thread) : State :=
  s.updGroup r.team (r.tid / 32) fun g => { g with threads := g.threads.modify (r.tid % 32) f }

/-- A thread's status. -/
def State.status? (s : State) (r : ThreadRef) : Option ThreadStatus := (s.thread? r).map Thread.status

/-- The context of a thread's team. -/
def State.ctxOf? (s : State) (r : ThreadRef) : Option Nat := (s.team? r.team).map Team.ctx

/-- A host queue. -/
def State.queue (s : State) (fn q : Nat) : HostQueue :=
  (s.queues.find? fun k => k.fn == fn && k.q == q).getD (HostQueue.blank fn q)

/-- Update a host queue. -/
def State.updQueue (s : State) (fn q : Nat) (f : HostQueue → HostQueue) : State :=
  if s.queues.any (fun k => k.fn == fn && k.q == q) then
    { s with queues := s.queues.map fun k => if k.fn = fn && k.q = q then f k else k }
  else { s with queues := f (HostQueue.blank fn q) :: s.queues }

/-- Update a named object. -/
def State.updObj (s : State) (ctx : Nat) (name : DWord) (f : Obj → Obj) : State :=
  { s with objs := s.objs.map fun k => if k.ctx = ctx && k.name = name then f k else k }

/-- Tell firmware or system software. -/
def State.tell (s : State) (kind : String) (args : List Nat) : State :=
  { s with notices := s.notices ++ [⟨kind, args⟩] }

/-- References of every thread of a team. -/
def Team.refs (tm : Team) : List ThreadRef := (List.range (32 * tm.groups.length)).map fun i => ⟨tm.id, i⟩

/-- Fold an operation over threads in order. -/
def State.forRefs (s : State) (rs : List ThreadRef) (f : State → ThreadRef → State) : State := rs.foldl f s

/-- Drop a thread from the bundle being issued. -/
def State.leaveBundle (s : State) (r : ThreadRef) : State :=
  { s with issue := { s.issue with bundle := s.issue.bundle.filter (· != r) } }

/-! ## Clocks (R3, R12)

Each core counts front cycles of its quarter, each die those of its quarter 0, and the control cores and the link count a clock
of 1.0 GHz.  The model counts the last and gives every other clock its cycles at the rate its quarter is set to (DEDUCED, log entry
31). -/

/-- The instant at which a clock of so many MHz has counted n cycles more. -/
def instantAfter (mhz t0 n : Nat) : Nat := if mhz = 0 then t0 else ((t0 * mhz / 1000 + n) * 1000 + mhz - 1) / mhz

/-- The instant that the package has reached: that of the core that has gone furthest. -/
def State.now (s : State) : Nat := s.cores.foldl (fun m c => max m c.ns) s.ns

/-- The front clock of a core, in MHz. -/
def State.mhz (s : State) (core : Nat) : Nat := (s.quarter (dieOf core) (quarterOf (numOf core))).front

/-- Front cycles that a core has counted by an instant. -/
def State.cycAt (s : State) (core t : Nat) : Nat := (s.core core).cyc + cyclesIn (s.mhz core) (s.core core).ns t

/-- A core whose count has reached an instant. -/
def State.liftCore (s : State) (core t : Nat) : State :=
  let n := s.cycAt core t
  s.updCore core fun c => { c with cyc := n, ns := max c.ns t }

/-- A core goes on until it has counted n front cycles. -/
def State.countTo (s : State) (core n : Nat) : State :=
  s.updCore core fun c => if n <= c.cyc then c else { c with cyc := n, ns := instantAfter (s.mhz core) c.ns (n - c.cyc) }

/-! ## Threads -/

/-- Register n (R81). -/
def Thread.reg (th : Thread) (n : Nat) : Word := th.regs.getD n 0

/-- Write register n; the write is counted (R204). -/
def Thread.setReg (th : Thread) (n : Nat) (v : Word) : Thread :=
  { th with regs := th.regs.set n v, writes := th.writes.modify n (· + 1) }

/-- The pair at n, low word in n (R46). -/
def Thread.pair (th : Thread) (n : Nat) : DWord := th.reg (n + 1) ++ th.reg n

/-- Write the pair at n. -/
def Thread.setPair (th : Thread) (n : Nat) (v : DWord) : Thread :=
  (th.setReg n (v.extractLsb' 0 32)).setReg (n + 1) (v.extractLsb' 32 32)

/-- Write registers from n upward. -/
def Thread.setRegs (th : Thread) (n : Nat) : List Word → Thread
  | [] => th
  | w :: ws => (th.setReg n w).setRegs (n + 1) ws

/-- Read k registers from n upward. -/
def Thread.regsFrom (th : Thread) (n k : Nat) : List Word := (List.range k).map fun i => th.reg (n + i)

/-- Predicate n; p0 is always true (R43). -/
def Thread.pred (th : Thread) (n : Nat) : Bool := n = 0 || th.preds.getLsbD n

/-- Write predicate n. -/
def Thread.setPred (th : Thread) (n : Nat) (b : Bool) : Thread :=
  { th with preds := if b then th.preds ||| BitVec.ofNat 8 (2 ^ n) else th.preds &&& ~~~(BitVec.ofNat 8 (2 ^ n)) }

/-- Hand a result to the latches at the end of the issue group (R59). -/
def Thread.push (th : Thread) (v : Word) : Thread := { th with pushes := th.pushes ++ [v] }

/-- OR flags into %FFLAGS (R26). -/
def Thread.orFlags (th : Thread) (fl : Nat) : Thread := { th with fflags := th.fflags ||| BitVec.ofNat 32 fl }

/-- Flags of engine work enter %FFLAGS at its completion (R35): no departure from an issue group in progress takes them back. -/
def Thread.engineFlags (th : Thread) (fl : Nat) : Thread :=
  { th.orFlags fl with before := th.before.map fun b => { b with fflags := b.fflags ||| BitVec.ofNat 32 fl } }

/-- Registers that a load in flight targeted when the issue group began hold its value whatever becomes of the group. -/
def Thread.keepLanded (th : Thread) (d n : Nat) : Thread :=
  { th with before := th.before.map fun b => { b with regs := b.regs.map fun q =>
      if d <= q.1 && q.1 < d + n && b.loading.contains q.1 then (q.1, th.reg q.1, th.writes.getD q.1 0) else q } }

/-- The word after a place in its packet, or slot 0 of the next packet (R348). -/
def Pc.succ (p : Pc) : Pc := if p.slot < 2 then ⟨p.pkt, p.slot + 1⟩ else ⟨p.pkt + 1, 0⟩

/-- A departure from the middle of an issue group: its earlier words have no effect on the thread (R42, R60). -/
def Thread.rollback (th : Thread) : Thread :=
  match th.before with
  | none => th
  | some b => { th with
    regs := b.regs.foldl (fun rs q => rs.set q.1 q.2.1) th.regs
    writes := b.regs.foldl (fun ws q => ws.set q.1 q.2.2) th.writes
    preds := (b.preds.foldl (fun (x : Thread) q => x.setPred q.1 q.2) th).preds
    fflags := b.fflags, fenable := b.fenable, frm := b.frm, seltag := b.seltag, selg := b.selg
    epc := b.epc, ecause := b.ecause, stkp := b.stkp, before := none }

/-- Leave the run (R60): resume at its first word, or after its NOP tail, with latches zero. -/
def Thread.leaveRun (th : Thread) : Thread :=
  { th.rollback with
    marking := false
    pc := if th.inRun then th.tail.getD th.runStart else th.pc
    inRun := false
    tail := none
    latches := [0, 0, 0, 0]
    pushes := [] }

/-- Move to a new place outside any run: a branch target, a handler, a return. -/
def Thread.goto (th : Thread) (p : Pc) : Thread :=
  { th with pc := p, inRun := false, runStart := p, tail := none, latches := [0, 0, 0, 0], pushes := [], before := none, kept := none, marking := false }

/-- The bit of a lane. -/
def laneBit (lane : Nat) : BitVec 32 := BitVec.ofNat 32 (2 ^ lane)

/-- The thread stands at its word, which issues again from the start when the wait is over; the other waits are ended by
another act, at the word where the thread stands. -/
def WaitKind.reissues : WaitKind → Bool
  | .cpw _ _ | .lock | .release _ | .marker _ | .operand | .pending | .room _ | .task _ | .deferMma | .together _ _ => true
  | .rejoin _ | .collective _ _ | .fullGroup _ | .sync _ _ | .timer _ _ | .engine => false

/-- A thread whose team stops issuing (R60, R97, R130): it leaves its run.  One that has arrived somewhere, whose
wait another act ends, or that has the result of such a wait to take, stays there (R97, R101), with latches zero (R59; DEDUCED, log entry 59). -/
def Thread.leaveToSave (th : Thread) : Thread :=
  match th.status with
  | .ready => if th.grant.isSome then { th with latches := [0, 0, 0, 0], pushes := [] } else th.leaveRun
  | .waiting w =>
    if w.reissues then { th.leaveRun with status := .ready } else { th with latches := [0, 0, 0, 0], pushes := [] }
  | _ => th

/-- A thread goes on at the first word of its run, with latches zero (R117, R131).  It arrives anew at what it waited for, but for
an ARRW, whose arrival stands, and a TOPK.READ, which is in the engine (DEDUCED, log entry 59). -/
def Thread.restart (th : Thread) : Thread :=
  match th.status with
  | .ready => th.leaveRun
  | .waiting (.sync o t) => { th.leaveRun with status := .ready, kept := if th.grant.isSome then none else some (o, t) }
  | .waiting .engine => th.leaveRun
  | .waiting _ => { th.leaveRun with status := .ready }
  | _ => th

/-- The lanes that wait at a REJOIN of mask j and have not been released. -/
def Group.rejoining (g : Group) (j : Nat) : Word :=
  g.threads.zipIdx.foldl (fun (m : Word) (q : Thread × Nat) =>
    if q.1.status = .waiting (.rejoin j) && q.1.grant.isNone then m ||| laneBit q.2 else m) 0

/-- Every thread of a group goes on at the first word of its run: one that waited at a REJOIN has not arrived any more (R117). -/
def Group.restart (g : Group) : Group :=
  { g with
    threads := g.threads.map Thread.restart
    masks := g.masks.mapIdx fun j (m : RejoinMask) => { m with arrived := m.arrived &&& ~~~(g.rejoining j) } }

/-- The first word of the run that holds the thread (R111). -/
def Thread.runPc (th : Thread) : Pc := if th.inRun then th.runStart else th.pc

/-- A thread inside a handler (%ECAUSE.ACTIVE, R110). -/
def Thread.inHandler (th : Thread) : Bool := th.ecause.getLsbD 11

/-- Park a thread on a cause: it leaves its run (R93), at a front cycle of its core. -/
def Thread.park (th : Thread) (c : Cause) (cyc : Nat) : Thread :=
  { th.leaveRun with status := .parked c, parkedAt := cyc }

/-- Make a thread wait at its word, which it issues again when the wait is over. -/
def State.block (s : State) (r : ThreadRef) (w : WaitKind) : State :=
  (s.updThread r fun th => { th with status := .waiting w, pc := s.issue.pc }).leaveBundle r

/-- Not EXITED. -/
def Thread.live (th : Thread) : Bool := th.status != .exited

/-! ## Sync objects: completion and the error phase (R184, R187) -/

/-- A token has passed (R183). -/
def SyncObj.passed (_o : SyncObj) (phase : Nat) (t : Word) : Bool :=
  let d := (phase + 2 ^ 31 - t.toNat % 2 ^ 31) % 2 ^ 31
  !t.getLsbD 31 && 1 <= d && d < 2 ^ 30

/-- A token is invalid (R183). -/
def SyncObj.invalid (phase : Nat) (t : Word) : Bool :=
  t.getLsbD 31 || 2 ^ 30 <= (phase + 2 ^ 31 - t.toNat % 2 ^ 31) % 2 ^ 31

/-- Complete the current phase (R184). -/
def SyncObj.complete (o : SyncObj) : SyncObj := { o with phase := (o.phase + 1) % 2 ^ 31, arr := 0, xtra := 0 }

/-- The error phase with a cause (R187). -/
def SyncObj.errorPhase (o : SyncObj) (c : Cause) : SyncObj :=
  if o.state = .active then { o.complete with state := .error, ecode := c } else o

/-- One arrival on an ACTIVE object (R184). -/
def SyncObj.arrive (o : SyncObj) : SyncObj :=
  if o.state = .active then
    let o' := { o with arr := o.arr + 1 }
    if o'.arr = o'.exp + o'.xtra then o'.complete else o'
  else o

/-- The object obj6 that belongs to a team (R181). -/
def State.syncObj (s : State) (tm : Team) (o : Nat) : SyncObj :=
  if o < 32 then tm.syncs.getD o SyncObj.fresh
  else if o < 48 then (((s.cluster? tm.launch tm.cix).map (·.syncs)).getD []).getD (o - 32) SyncObj.fresh
  else (((s.launch? tm.launch).map (·.gsyncs)).getD []).getD (o - 48) SyncObj.fresh

/-- The phase of a grid object that a cluster has been released into, or the object's phase (R191, R374). -/
def State.seenPhase (s : State) (tm : Team) (o : Nat) : Nat :=
  if o < 48 then (s.syncObj tm o).phase
  else (((s.cluster? tm.launch tm.cix).map (·.gview)).getD []).getD (o - 48) 0

/-- A stand-in team for reaching the cluster and grid objects of a cluster. -/
def Team.stub (launch cix : Nat) : Team where
  id := 0
  launch := launch
  cix := cix
  ctx := 0
  x := 0
  y := 0
  z := 0
  clx := 0
  core := 0
  winBase := 0
  scrsz := 0
  pad := false
  state := .ended
  groups := []
  syncs := []
  opens := []
  savedWin := []
  placedAt := 0
  swappedAt := 0
  forced := false
  lent := []
  preempted := false
  roundFailed := false
  roundFrom := 0
  anyCore := false
  savedCols := []
  savedSedge := []
  savedJobs := []

/-- A grid object of a launch set, with the instant of an arrival or of a completion (R276). -/
def Launch.setGrid (l : Launch) (g : Nat) (v : SyncObj) (clock : Nat) : Launch :=
  let old := l.gsyncs.getD g SyncObj.fresh
  let t := l.gtimes.getD g (0, 0)
  let t' := if v.phase != old.phase then (clock, clock) else if old.arr < v.arr then (clock, t.2) else t
  { l with gsyncs := l.gsyncs.set g v, gtimes := l.gtimes.set g t' }

/-- Store a sync object back. -/
def State.setSync (s : State) (tm : Team) (o : Nat) (v : SyncObj) : State :=
  if o < 32 then s.updTeam tm.id fun t => { t with syncs := t.syncs.set o v }
  else if o < 48 then s.updCluster tm.launch tm.cix fun c => { c with syncs := c.syncs.set (o - 32) v }
  else s.updLaunch tm.launch fun l => l.setGrid (o - 48) v s.now

/-- Answers under way fill no line of a core's L1. -/
def State.fillNone (s : State) (core : Nat) : State :=
  { s with remotes := s.remotes.map fun (q : Remote) => if q.core = core then { q with fills := false } else q }

/-- Lines of a core's L1 that overlap a bound range are invalidated (R198). -/
def State.invalidateRanges (s : State) (core ctx : Nat) (rs : List (DWord × Nat)) : State :=
  (s.updCore core fun c => { c with l1 := c.l1.filter fun ln =>
    !(ln.ctx = ctx && rs.any fun r => r.2 != 0 && ln.va < r.1.toNat + r.2 && r.1.toNat < ln.va + 64) }).fillNone core

/-- Every line of a core's L1 is invalidated (R198). -/
def State.invalidateL1 (s : State) (core : Nat) : State := (s.updCore core fun c => { c with l1 := [] }).fillNone core

/-- What the waiters of an object take at the completion of a phase (R184, R187). -/
def SyncObj.result (o : SyncObj) : Word := if o.state = .error then o.ecode.setWidth 32 else 0

/-- At the completion of a phase every waiter of one team whose token has passed has its result, however long it still waits
for its cluster's release (R191). -/
def State.grantTeam (s : State) (tm : Team) (o : Nat) : State :=
  let ob := s.syncObj tm o
  s.forRefs tm.refs fun s r =>
    match s.status? r with
    | some (.waiting (.sync o' t)) =>
      if o' = o && (ob.passed ob.phase t || ob.state = .error) then
        s.updThread r fun th => { th with grant := th.grant.or (some ob.result) }
      else s
    | _ => s

/-- The waits on an object of one team's threads that have their result, or whose token has passed for the team's cluster, end:
each acquires what was bound when its wait issued (R185, R198). -/
def State.wakeTeam (s : State) (tm : Team) (o : Nat) : State :=
  let ob := s.syncObj tm o
  let ph := s.seenPhase tm o
  s.forRefs tm.refs fun s r =>
    match s.thread? r with
    | some th =>
      match th.status with
      | .waiting (.sync o' t) =>
        if o' = o && (th.grant.isSome || ob.passed ph t) then
          (s.updThread r fun th => { th with status := .ready, grant := th.grant.or (some 0) }).invalidateRanges tm.core tm.ctx th.bound
        else s
      | _ => s
    | none => s

/-- A thread of the team waits on the object. -/
def State.waits (s : State) (tm : Team) (o : Nat) : Bool :=
  tm.refs.any fun r => match s.status? r with
    | some (.waiting (.sync o' _)) => o' = o
    | _ => false

/-- Teams that share an object with a team (R181). -/
def State.sharers (s : State) (tm : Team) (o : Nat) : List Team :=
  s.teams.filter fun t => if o < 32 then t.id = tm.id
    else if o < 48 then t.launch = tm.launch && t.cix = tm.cix
    else t.launch = tm.launch

/-- S of a die's slope limiter for clusters of n cores (R272). -/
def Die.stepSize (d : Die) (n : Nat) : Nat := max 1 (d.slew / (d.cload * n))

/-- One step of a grid release (R191): each die releases the next clusters of its own, at most S. -/
def State.releaseStep (s : State) (l g : Nat) (only : Option Nat) : State :=
  match s.launch? l with
  | none => s
  | some la =>
    match la.releasing.find? (·.1 == g) with
    | none => s
    | some (_, order) =>
      let dieOfC (c : Nat) : Nat := ((s.cluster? l c).map fun k => dieOf k.origin).getD 0
      let ncore := la.recd.shx * la.recd.shy
      let allowed (d : Nat) : Bool := match only with
        | none => true
        | some x => x = d
      let (rel, _) := order.foldl (fun (acc : List Nat × List Nat) c =>
        let d := dieOfC c
        if allowed d && acc.2.count d < (s.die d).stepSize ncore then (acc.1 ++ [c], d :: acc.2) else acc) ([], [])
      let left := order.filter fun c => !rel.contains c
      let ph := (la.gsyncs.getD g SyncObj.fresh).phase
      let n := max 1 ((la.grid.getD 0 1 / la.recd.shx) * (la.grid.getD 1 1 / la.recd.shy) * la.grid.getD 2 1)
      let s := s.updLaunch l fun k => { k with
        releasing := (k.releasing.filter (·.1 != g)) ++ (if left.isEmpty then [] else [(g, left)])
        roff := if only.isNone then (k.roff + rel.length) % n else k.roff }
      let s := rel.foldl (fun s c => s.updCluster l c fun k => { k with gview := k.gview.set g ph }) s
      (s.teams.filter fun t => t.launch = l && rel.contains t.cix).foldl (fun s t => s.wakeTeam t (48 + g)) s

/-- After an object's phase has completed: end the waits, for a grid object in steps (R184, R191). -/
def State.released (s : State) (tm : Team) (o : Nat) : State :=
  let s := (s.sharers tm o).foldl (fun s t => s.grantTeam t o) s
  if o < 48 then (s.sharers tm o).foldl (fun s t => s.wakeTeam t o) s
  else
    match s.launch? tm.launch with
    | none => s
    | some la =>
      let g := o - 48
      let n := max 1 ((la.grid.getD 0 1 / la.recd.shx) * (la.grid.getD 1 1 / la.recd.shy) * la.grid.getD 2 1)
      let cs := (s.clusters.filter fun c => c.launch = la.id).map (·.cix)
      let waiting := cs.filter fun c => (s.teams.filter fun t => t.launch = la.id && t.cix = c).any fun t => s.waits t o
      let key (c : Nat) : Nat := (c + n - la.roff % n) % n
      let order := waiting.insertionSort fun a b => key a <= key b
      let idle := cs.filter fun c => !waiting.contains c
      let ph := (la.gsyncs.getD g SyncObj.fresh).phase
      let s := idle.foldl (fun s c => s.updCluster la.id c fun k => { k with gview := k.gview.set g ph }) s
      let s := s.updLaunch la.id fun k => { k with releasing := (k.releasing.filter (·.1 != g)) ++ [(g, order)] }
      s.releaseStep la.id g none

/-- Store an object back and, when its phase has moved, end the waits on it. -/
def State.putSync (s : State) (tm : Team) (o : Nat) (v : SyncObj) : State :=
  let old := s.syncObj tm o
  let s := s.setSync tm o v
  if v.phase != old.phase then s.released tm o else s

/-- One arrival of an engine or a marker on an object of a team (R186); an object in ERROR or UNINIT discards it. -/
def State.arriveOn (s : State) (tm : Team) (o : Nat) : State := s.putSync tm o (s.syncObj tm o).arrive

/-- The error phase on an object of a team (R187). -/
def State.errorOn (s : State) (tm : Team) (o : Nat) (c : Cause) : State :=
  s.putSync tm o ((s.syncObj tm o).errorPhase c)

/-! ## Taking a cause (R102 to R113) -/

/-- Set a cause's bit in the group's bitmap (R105). -/
def State.setCause (s : State) (t g : Nat) (c : Cause) : State :=
  s.updGroup t g fun gr => { gr with causes := gr.causes ||| BitVec.ofNat 256 (2 ^ c.toNat) }

/-- Clear a cause's bit (R106). -/
def State.clearCause (s : State) (t g : Nat) (c : Cause) : State :=
  s.updGroup t g fun gr => { gr with causes := gr.causes &&& ~~~(BitVec.ofNat 256 (2 ^ c.toNat)) }

/-- The mode-table entry of a cause for a team's context (R103); PAGE_PROT always freezes (R129). -/
def State.modeOf (s : State) (tm : Team) (c : Cause) : Nat :=
  if c = 2 then 3 else ((s.ctx? tm.ctx).map fun k => k.modes.getD c.toNat 1).getD 1

/-- The launch's HANDLER (R104). -/
def State.handlerOf (s : State) (tm : Team) : Word := ((s.launch? tm.launch).map (·.recd.handler)).getD 0xFFFFFFFF

/-- Handler entry (R111) for one thread; the words of its issue group before the one that met the cause have no effect on it
(R42). -/
def Thread.enterHandler (th : Thread) (handler : Word) (c : Cause) (inrec : Bool) : Thread :=
  let th := th.rollback
  let p := th.runPc
  let th' := th.goto ⟨handler, 0⟩
  { th' with
    status := .ready
    epc := p.pkt
    ecause := BitVec.ofNat 32 (c.toNat + (if inrec then 2 ^ 8 else 0) + p.slot * 2 ^ 9 + 2 ^ 11)
    record := if inrec then [] else th.record
    recCause := if inrec then 0 else th.recCause
    aside := if inrec then th.record.drop 1 else th.aside }

/-- Free the lock bits a thread holds (R333). -/
def State.freeLocks (s : State) (p : ThreadRef → Bool) : State :=
  { s with cores := s.cores.map fun c => { c with locks := c.locks.filter fun l => !p l.holder } }

/-- Open counts fall by one for each object a team has open; a DOOMED object whose count reaches 0 is dropped (R169). -/
def State.closeAll (s : State) (tm : Team) : State :=
  let s := tm.opens.foldl (fun s o =>
    if o.lost || o.handed then s else
    { s with objs := (s.objs.map fun ob =>
        if ob.ctx = tm.ctx && ob.name = o.name then { ob with k := ob.k - 1 } else ob) }) s
  let s := s.updTeam tm.id fun t => { t with opens := [] }
  let gone := s.objs.filter fun ob => ob.doomed && ob.k = 0 && ob.state = .resident
  let s := gone.foldl (fun s ob => s.updCore ob.holder fun c => { c with scratch := c.scratch.clear ob.base ob.size }) s
  { s with objs := s.objs.filter fun ob => !(ob.doomed && ob.k = 0 && ob.state = .resident) }

/-- Every cluster and grid object of a team takes the error phase (R109 step 4). -/
def State.errorShared (s : State) (tm : Team) (c : Cause) : State :=
  (List.range 24).foldl (fun s i =>
    match s.team? tm.id with
    | some t => s.errorOn t (32 + i) c
    | none => s) s

/-- The OR of a team's cause bitmaps (R145). -/
def Team.bitmap (tm : Team) : BitVec 256 := tm.groups.foldl (fun acc g => acc ||| g.causes) 0

/-- The 64 bytes of a kill record (R145). -/
def killRecord (pkt : Word) (tm : Team) (c : Cause) (tid epc : Nat) : List Byte :=
  leBytes (1 + 256 * c.toNat) 4 ++ leBytes pkt.toNat 4 ++ leBytes tm.x 4 ++ leBytes tm.y 4 ++ leBytes tm.z 4
    ++ leBytes tid 4 ++ leBytes epc 4 ++ leBytes 0 4 ++ leBytes tm.bitmap.toNat 32

/-- A kill record is posted to the launch's queue (R109, R145). -/
def State.postKill (s : State) (tm : Team) (c : Cause) (tid epc : Nat) : State :=
  match s.launch? tm.launch with
  | none => s
  | some la => { s with killRecs := s.killRecs ++ [(la.fn, la.q, killRecord la.pkt tm c tid epc)] }

/-- Every thread of a team leaves its run (R60, R130), but for those whose issue group is in progress. -/
def Team.leaveRuns (tm : Team) (busy : List ThreadRef) : Team :=
  let leave (gi ti : Nat) (th : Thread) : Thread :=
    if busy.contains (ThreadRef.mk tm.id (32 * gi + ti)) then th else th.leaveToSave
  { tm with groups := tm.groups.mapIdx fun gi (g : Group) => { g with threads := g.threads.mapIdx (leave gi) } }

/-- Threads that satisfy p leave every bundle that a core is held to. -/
def State.dropHeld (s : State) (p : ThreadRef → Bool) : State :=
  { s with cores := s.cores.map fun (co : Core) => { co with
      held := co.held.map fun h => { h with bundle := h.bundle.filter fun r => !p r } } }

/-- Threads that satisfy p leave every bundle that a core is held to, and the bundle being issued. -/
def State.dropBundles (s : State) (p : ThreadRef → Bool) : State :=
  { s.dropHeld p with issue := { s.issue with bundle := s.issue.bundle.filter fun r => !p r } }

/-- One write of the range holding an address is performed; a range with none left retires (R338). -/
def retireIn (rs : List SbRange) (base : Nat) : List SbRange :=
  (rs.map fun q => if q.base <= base && base < q.base + q.len then { q with writes := q.writes - 1 } else q).filter fun q =>
    q.writes != 0

/-- A job of a killed team that is not moving a tile: it has not begun one, or it is paused. -/
def TwkJob.idle (j : TwkJob) : Bool := j.at_.isNone

/-- R109 steps 1 to 3: the team stops, its records, loads and collectors are discarded, locks freed, objects closed.  What is in
flight goes on until its writes have completed; a tile-walker job that has not started, or that pauses at a page, has no write in
flight and is dropped with its range, without an arrival (DEDUCED, log entry 71). -/
def State.stopTeam (s : State) (tm : Team) : State :=
  let s := s.updTeam tm.id fun t => { t with
    state := .killing
    groups := t.groups.map fun g => { g with threads := g.threads.map fun th =>
      { th.leaveRun with status := .exited, record := [], aside := [], grant := none, nackPending := false } } }
  let s := s.updCore tm.core fun c => { c with
    loads := c.loads.filter fun l => l.ref.team != tm.id || l.ack.isSome
    twq := c.twq.filter fun j => j.team != tm.id || !j.idle
    ranges := ((c.twq.filter fun j => j.team = tm.id && j.idle).filterMap TwkJob.ranged).foldl retireIn c.ranges
    collectors := c.collectors.filter fun k => k.team != tm.id }
  let s : State := { s with taskAsks := s.taskAsks.filter fun k => k.ref.team != tm.id }
  ((s.freeLocks fun r => r.team = tm.id).closeAll tm).dropBundles fun r => r.team = tm.id

/-- KILL (R109): who names the thread of the kill record, none when the cause was raised for no thread. -/
def State.killTeam (s : State) (t : Nat) (c : Cause) (who : Option ThreadRef) : State :=
  match s.team? t with
  | none => s
  | some tm =>
    if tm.state = .killing || tm.state = .ended then s else
    let (tid, epc) := match who with
      | some r => (r.tid, ((s.thread? r).map fun th => th.runPc.pkt.toNat).getD 0)
      | none => (2 ^ 32 - 1, 2 ^ 32 - 1)
    let s := s.stopTeam tm
    let s := s.errorShared tm c
    let s := s.postKill tm c tid epc
    s.updLaunch tm.launch fun l => { l with killed := l.killed + 1 }

/-- R109 steps 1 to 3 alone, without a kill record. -/
def State.endTeamQuietly (s : State) (t : Nat) : State :=
  match s.team? t with
  | none => s
  | some tm => if tm.state = .killing || tm.state = .ended then s else s.stopTeam tm

/-- FREEZE (R130): the context's ready threads leave their runs at issue-group boundaries (those of the issue group in
progress when it ends); the state before is kept for the thaw.  A forced save in progress finishes first (R120).  A checkpoint in
progress is discarded (R131). -/
def State.freezeCtx (s : State) (c : Nat) (why : List Nat) : State :=
  match s.ctx? c with
  | none => s
  | some k =>
    if k.state = .running || k.state = .preempting || k.state = .checkpointing then
      let forced := s.teams.any fun t => t.ctx = c && t.state = .saving && t.forced
      if k.state = .preempting && forced then
        if k.freezeAfter.isSome then s else s.updCtx c fun k => { k with freezeAfter := some why }
      else
      let s := s.updCtx c fun k => { k with
        state := .frozen
        before := if k.state = .checkpointing then .running else k.state
        gen := if k.state = .checkpointing then (k.gen + 1) % 2 ^ 32 else k.gen
        ckptPending := k.ckptPending && k.state != .checkpointing }
      let busy := s.issue.bundle
      let s : State := { s with teams := s.teams.map fun (t : Team) =>
        if t.ctx = c then { t.leaveRuns busy with
          -- a swap that has begun is given up: all state stays resident (R130)
          state := if t.state = .saving && !t.preempted then .resident else t.state
          forced := t.forced && !(k.state = .checkpointing && t.state = .resident) } else t }
      let s := s.dropHeld fun r => s.ctxOf? r = some c
      s.tell "FREEZE" (c :: why)
    else s

/-- A replay diverges from its log: its context is FROZEN, one that is READY as well (R136). -/
def State.diverge (s : State) (c : Nat) (why : List Nat) : State :=
  if (s.ctx? c).any fun k => k.state = .ready then
    (s.updCtx c fun k => { k with state := .frozen, before := .ready }).tell "FREEZE" (c :: why)
  else s.freezeCtx c why

/-- A thread for which a cause freezes its context: it goes on, after the thaw, at the first word of its run (R131). -/
def Thread.toFreeze (th : Thread) : Thread :=
  match th.status with
  | .waiting _ => { th.leaveRun with status := .ready }
  | _ => th.leaveRun

/-- Deliver a raised cause to a thread by its mode (R102 to R109): its bit is set, and the thread parks, enters the
handler, or its team ends, or its context freezes.  `inrec` tells that a replay entry met it. -/
def State.deliver (s : State) (r : ThreadRef) (c : Cause) (inrec : Bool) : State :=
  match s.team? r.team with
  | none => s
  | some tm =>
    let s := s.setCause r.team (r.tid / 32) c
    let s := s.dropBundles (· == r)
    let s := { s with issue := { s.issue with raised := s.issue.raised ++ [(r, c)] } }
    let h := s.handlerOf tm
    let inH := ((s.thread? r).map (·.inHandler)).getD false
    match s.modeOf tm c with
    | 0 => s.updThread r fun th => th.park c (s.core tm.core).cyc
    | 1 =>
      if h = 0xFFFFFFFF || inH then s.killTeam r.team c (some r)
      else s.updThread r fun th => th.enterHandler h c inrec
    | 2 => s.killTeam r.team c (some r)
    | _ => (s.updThread r Thread.toFreeze).freezeCtx tm.ctx [c.toNat, r.team, r.tid]

/-- Raise an exact cause at the word being issued. -/
def State.raise (s : State) (r : ThreadRef) (c : Cause) : State := s.deliver r c false

/-- Several causes of one thread at once (R108): every bit is set, the strongest mode decides, and HANDLER takes the
lowest-numbered cause with that mode.  The list is in ascending order.  Where KILL or FREEZE decides, the kill record or the
freeze report names the lowest-numbered cause of that mode too, which R108 leaves open (DESIGN CHOICE, log entry 72). -/
def State.raiseAll (s : State) (r : ThreadRef) (cs : List Cause) : State :=
  match s.team? r.team with
  | none => s
  | some tm =>
    let s := cs.foldl (fun s c => s.setCause r.team (r.tid / 32) c) s
    let best := cs.foldl (fun m c => max m (s.modeOf tm c)) 0
    match cs.find? fun c => s.modeOf tm c = best with
    | some c => s.raise r c
    | none => s

/-- Post a cause: its bit is set in the group, and no thread stops (R102). -/
def State.post (s : State) (t g : Nat) (c : Cause) : State := s.setCause t g c

/-- Return from the handler (R112), for a thread inside one; the entries held aside go back to the record. -/
def Thread.leaveHandler (th : Thread) : Thread :=
  let th' := th.goto ⟨th.epc, (th.ecause.extractLsb' 9 2).toNat⟩
  { th' with ecause := th.ecause &&& ~~~(0x900#32), record := th.aside ++ th.record, recCause := 0, aside := [] }

/-! Cause codes (R102). -/
def cPAGE_ABSENT : Cause := 0x01
def cPAGE_PROT : Cause := 0x02
def cALIGN : Cause := 0x03
def cSCRATCH_RANGE : Cause := 0x04
def cREMOTE_FAULT : Cause := 0x05
def cREMOTE_TIMEOUT : Cause := 0x06
def cSTORE_NACK : Cause := 0x07
def cECC_UNCORR : Cause := 0x08
def cMEMORY_LOST : Cause := 0x09
def cILLEGAL_OPCODE : Cause := 0x60
def cILLEGAL_FIELD : Cause := 0x61
def cILLEGAL_CONVERGENCE : Cause := 0x62
def cMEMBER_GONE : Cause := 0x63
def cCONVERGE_TIMEOUT : Cause := 0x64
def cILLEGAL_MASK : Cause := 0x65
def cREP_TARGET : Cause := 0x67
def cSTACK_OVERFLOW : Cause := 0x68
def cPRIV : Cause := 0x69
def cLOCK_NEST : Cause := 0x6A
def cTAG_MISS : Cause := 0x80
def cDEFER_OVERFLOW : Cause := 0x81
def cBANK_BUSY : Cause := 0x82
def cCOPY_FAULT : Cause := 0x83
def cWALKER_FAULT : Cause := 0x84
def cSYNC_ERROR : Cause := 0xA3
def cTASK_OVERFLOW : Cause := 0xA5
def cPREEMPT_FORCED : Cause := 0xA8
def cDIE_LOST : Cause := 0xA9

end Sys2Proof.Machine
end

