-- ==== Sys2Proof/Machine/Flags.lean ====
section
/-!
DEFINITION. Flag computations: the flags a result sets in %FFLAGS (R24, R26, R289) and the causes FENCE.TFENCE raises
from them (R27, R114).
-/
namespace Sys2Proof.Machine

/-- The cause of each enabled flag, in ascending order of cause (R27). -/
def flagCauses (fflags fenable : Word) : List Cause :=
  let on (k : Nat) : Bool := fflags.getLsbD k && fenable.getLsbD k
  (if on 4 then [0x40] else []) ++ (if on 3 then [0x41] else []) ++ (if on 2 then [0x42] else [])
    ++ (if on 1 then [0x43] else []) ++ (if on 0 then [0x44] else []) ++ (if on 5 then [0x46] else [])
    ++ (if on 6 then [0x47] else [])

/-- The causes FENCE.TFENCE raises for a thread (R114). -/
def tfenceCauses (th : Thread) : List Cause :=
  (if th.nackPending then [cSTORE_NACK] else []) ++ flagCauses th.fflags th.fenable

/-- Signed sum of two words with saturation, and whether it saturated (R289). -/
def satAdd (a b : Word) : Word × Bool :=
  let sum := a.toInt + b.toInt
  let r := satInt sum (-2147483648) 2147483647
  (BitVec.ofInt 32 r, r != sum)

/-- Rounding direction of a thread (R25). -/
def Thread.mode (th : Thread) : Nat := th.frm.toNat % 4

end Sys2Proof.Machine
end

