-- ==== Sys2Proof/Machine/Operands.lean ====
section
/-!
DEFINITION. Source operands (R44, R46), the destination forms (R43, R59), and the common shape of an issued word: field
checks for every thread of the bundle, then the effect for the threads whose predicate is true (R42, R45).
-/
namespace Sys2Proof.Machine

/-- What a meaning answers. -/
abbrev Res := Host.Outcome State Fault Refusal

/-- Integer constants of R44: 0 to 31, then -1 to -16. -/
def smallConst (c : Nat) : Int := if c < 0x64 then (c : Int) - 0x44 else 0x63 - (c : Int)

/-- FP32 bit patterns of the codes 0x74 to 0x7E as integer operations read them (R44). -/
def patternConst (c : Nat) : Word :=
  match c with
  | 0x74 => 0x3F000000
  | 0x75 => 0x3E800000
  | 0x76 => 0xBF000000
  | 0x77 => 0x3FB8AA3B
  | 0x78 => 0x3F317218
  | 0x79 => 0x40490FDB
  | 0x7A => 0x7F800000
  | 0x7B => 0xFF800000
  | 0x7C => 0x7FC00000
  | 0x7D => 0x7F7FFFFF
  | _ => 0x80000000

/-- A 32-bit source as an integer operation reads it (R44). -/
def Thread.src (th : Thread) (code : BitVec 7) : Word :=
  let c := code.toNat
  if c < 0x40 then th.reg c
  else if c < 0x44 then th.latches.getD (c - 0x40) 0
  else if c < 0x74 then BitVec.ofInt 32 (smallConst c)
  else patternConst c

/-- log2(e), ln(2) and pi as fractions of 10^30 (R44). -/
def realConst (c : Nat) : Nat :=
  match c with
  | 0x77 => 1442695040888963407359924681002
  | 0x78 => 693147180559945309417232121458
  | _ => 3141592653589793238462643383280

/-- A constant code as a float operation of a format reads it (R44). -/
def floatConst (f : Fmt) (c : Nat) : Nat :=
  if c < 0x74 then (ofInt f 0 (smallConst c)).1
  else match c with
    | 0x74 => (roundFrac f 0 false 1 2).1
    | 0x75 => (roundFrac f 0 false 1 4).1
    | 0x76 => (roundFrac f 0 true 1 2).1
    | 0x77 | 0x78 | 0x79 => (roundFrac f 0 false (realConst c) (10 ^ 30)).1
    | 0x7A => infCode f
    | 0x7B => signBit f true + infCode f
    | 0x7C => canonNaN f
    | 0x7D => maxFinite f
    | _ => signBit f true

/-- A 32-bit source as an FP32 operation reads it (R44). -/
def Thread.fsrc (th : Thread) (code : BitVec 7) : Word :=
  if code.toNat < 0x44 then th.src code else BitVec.ofNat 32 (floatConst fmtF32 code.toNat)

/-- A packed FP16 or BF16 source: a constant stands in both halves (R44, R310). -/
def Thread.hsrc (th : Thread) (f : Fmt) (code : BitVec 7) : Word :=
  if code.toNat < 0x44 then th.src code
  else let k := floatConst f code.toNat; BitVec.ofNat 32 (k + k * 2 ^ 16)

/-- A 64-bit source of an integer operation (R46). -/
def Thread.src64 (th : Thread) (code : BitVec 7) : DWord :=
  let c := code.toNat
  if c < 0x40 then th.pair c
  else if c < 0x74 then BitVec.ofInt 64 (smallConst c)
  else if c = 0x7E then 0x80000000
  else BitVec.ofNat 64 (floatConst fmtF64 c)

/-- A 64-bit source of an FP64 operation (R46, R311). -/
def Thread.dsrc (th : Thread) (code : BitVec 7) : DWord :=
  if code.toNat < 0x40 then th.pair code.toNat else BitVec.ofNat 64 (floatConst fmtF64 code.toNat)

/-- A 32-bit result: written unless W suppresses it, and pushed (R43, R59). -/
def Thread.result (th : Thread) (w : Bool) (d : Nat) (v : Word) : Thread :=
  (if w then th else th.setReg d v).push v

/-- A 64-bit result: the pair unless W suppresses it; the low word is pushed (R46). -/
def Thread.result64 (th : Thread) (w : Bool) (d : Nat) (v : DWord) : Thread :=
  (if w then th else th.setPair d v).push (v.extractLsb' 0 32)

/-- A predicate result, pushed as 1 or 0 (R59). -/
def Thread.resultPred (th : Thread) (q : Nat) (b : Bool) : Thread :=
  (th.setPred q b).push (if b then 1 else 0)

/-- NREG of a thread's group. -/
def State.nregOf (s : State) (r : ThreadRef) : Option Nat := (s.group? r.team (r.tid / 32)).map (·.nreg)

/-- Act for each thread still in the bundle: ILLEGAL_FIELD where the word breaks a field rule for its NREG (R42, R45:
whatever its predicate), and the effect elsewhere. -/
def State.eachIssuing (s : State) (i : Instr) (f : State → ThreadRef → State) : State :=
  s.forRefs s.issue.bundle fun s r =>
    if s.issue.bundle.contains r then
      match s.nregOf r with
      | some n => if fieldCheck n i then f s r else s.raise r cILLEGAL_FIELD
      | none => s
    else s

/-- A word that acts on its own thread alone: a predicated-off thread pushes zero (R45). -/
def aluWord (i : Instr) (p : BitVec 3) (f : Thread → Thread) (s : State) : Res :=
  .next (s.eachIssuing i fun s r => s.updThread r fun th => if th.pred p.toNat then f th else th.push 0)

/-- A predicated word that acts on the state, for the threads whose predicate is true; others do nothing. -/
def predWord (i : Instr) (p : Nat) (f : State → ThreadRef → State) (s : State) : Res :=
  .next (s.eachIssuing i fun s r =>
    match s.thread? r with
    | some th => if th.pred p then f s r else s
    | none => s)

end Sys2Proof.Machine
end

