-- ==== Sys2Proof/Machine/Translate.lean ====
section
/-!
DEFINITION. Address translation: the four-level table (R210 to R213), the walker with ACC and DIRTY (R214), the TLBs and
the walk cache (R215 to R217), non-faulting lookups (R218), and the home an address reaches (R192, R229, R230).
-/
namespace Sys2Proof.Machine

/-- What kind of access translates. -/
inductive AccKind where
  | load | store | fetch | copy
  /-- A tile of the walker, which writes memory or not. -/
  | tile (write : Bool)
deriving DecidableEq, Repr

/-- The access writes memory. -/
def AccKind.writes : AccKind → Bool
  | .store => true
  | .tile w => w
  | _ => false

/-- How a translation ends. -/
inductive Trans where
  | home (h : Home)
  /-- Waits for a range invalidation or a page lock (R224, R228). -/
  | wait
  /-- A cause, with the level at which V = 0 was found. -/
  | cause (c : Cause) (level : Nat)
  /-- A non-canonical address: PAGE_ABSENT that firmware refuses at once (R219). -/
  | badVa
deriving DecidableEq, Repr

/-! ## Page-table entries (R211) -/

def pteValid (p : DWord) : Bool := p.getLsbD 0
def pteLeaf (p : DWord) : Bool := p.getLsbD 1
def pteW (p : DWord) : Bool := p.getLsbD 2
def pteX (p : DWord) : Bool := p.getLsbD 3
def pteRepl (p : DWord) : Bool := p.getLsbD 4
def pteDirty (p : DWord) : Bool := p.getLsbD 5
def pteKind (p : DWord) : Nat := (p.extractLsb' 7 2).toNat
def pteAddr (p : DWord) : Nat := (p.extractLsb' 13 39).toNat * 2 ^ 13
def pteDev (p : DWord) : Nat := (p.extractLsb' 52 12).toNat

/-- Lowest bit of the index of a level; also log2 of the size a leaf there maps (R210). -/
def levelShift (level : Nat) : Nat := 46 - 10 * level

/-- The die of a package physical address (R213). -/
def paDie (pa : Nat) : Nat := pa / 2 ^ 36 % 64

/-- The channel of a package physical address (R213). -/
def paChan (pa : Nat) : Nat := pa / 2 ^ 30 % 64

/-- A KIND DEV address that R213 allows. -/
def paOk (pa : Nat) : Bool := pa < 2 ^ 42 && paChan pa < 44

/-- A valid entry that R212 calls malformed. -/
def pteMalformed (level : Nat) (p : DWord) : Bool :=
  p.extractLsb' 9 4 != 0 || pteKind p = 3
    || (if pteLeaf p then
          level = 0 || (level = 1 && pteKind p = 0) || pteAddr p % 2 ^ levelShift level != 0
            || (pteDev p != 0 && pteKind p != 1) || (pteKind p = 0 && !paOk (pteAddr p))
        else level = 3 || p &&& ~~~(0x000FFFFFFFFFE003#64) != 0)

/-- The entry at a physical address. -/
def State.readPte (s : State) (pa : Nat) : DWord := BitVec.ofNat 64 (leNat (s.mem.readBytes pa 8))

/-- Atomic OR of ACC and DIRTY at an entry's home (R214). -/
def State.orPte (s : State) (pa : Nat) (bits : Byte) : State :=
  { s with mem := s.mem.write pa (s.mem.read pa ||| bits) }

/-- The die is fenced. -/
def State.dieFenced (s : State) (d : Nat) : Bool := (s.die d).fenced

/-! ## Walks -/

/-- How a walk ends. -/
inductive WalkEnd where
  | leaf (level : Nat) (pte : DWord) (pteAt : Nat)
  | absent (level : Nat)
  | malformed (pteAt : Nat)
  | lost
deriving DecidableEq, Repr

/-- Walk from a table at a level; the table pointers passed are returned for the walk cache. -/
def State.walkLevels (s : State) (va : Nat) : Nat → Nat → Nat → List (Nat × DWord × Nat) × WalkEnd
  | 0, level, _ => ([], .absent level)
  | fuel + 1, level, table =>
    if s.dieFenced (paDie table) then ([], .lost) else
    let pa := table + 8 * (va / 2 ^ levelShift level % 1024)
    let p := s.readPte pa
    if !pteValid p then ([], .absent level)
    else if pteMalformed level p then ([], .malformed pa)
    else if pteLeaf p then ([], .leaf level p pa)
    else
      let (ptrs, e) := s.walkLevels va fuel (level + 1) (pteAddr p)
      ((level, p, pa) :: ptrs, e)

/-- Put an entry at the front of a bounded structure; a full one loses its oldest entry (DESIGN CHOICE, log entry 10). -/
def addEntry (cap : Nat) (l : List TlbEntry) (e : TlbEntry) : List TlbEntry :=
  (e :: l.filter fun x => !(x.ctx = e.ctx && x.level = e.level && x.page = e.page)).take cap

/-- An entry of the structure covers an address. -/
def TlbEntry.covers (e : TlbEntry) (ctx va : Nat) : Bool := e.ctx = ctx && e.page = va / 2 ^ levelShift e.level

/-- A walk for a context on a die, from the deepest pointer its walk cache holds (R215); pointers passed are cached. -/
def State.walk (s : State) (die ctx va : Nat) : State × WalkEnd :=
  let wc := (s.die die).walkCache
  let at? (l : Nat) : Option TlbEntry := wc.find? fun e => e.level = l && e.covers ctx va
  let root := ((s.ctx? ctx).map Ctx.ptroot).getD 0
  let (level, table) := match at? 2, at? 1, at? 0 with
    | some e, _, _ => (3, pteAddr e.pte)
    | none, some e, _ => (2, pteAddr e.pte)
    | none, none, some e => (1, pteAddr e.pte)
    | none, none, none => (0, root)
  let (ptrs, e) := s.walkLevels va 4 level table
  let s := s.updDie die fun d => { d with walkCache := ptrs.foldl (fun acc (q : Nat × DWord × Nat) =>
    addEntry 8192 acc ⟨ctx, q.1, va / 2 ^ levelShift q.1, q.2.1, q.2.2⟩) d.walkCache }
  match e with
  | .malformed pa => (s.tell "MALFORMED_PTE" [ctx, pa], e)
  | _ => (s, e)

/-- Fill the die TLB, and the core's L1 TLB or walk-ahead TLB, from a leaf; ACC is set first, and DIRTY for a write. -/
def State.fill (s : State) (core ctx va level : Nat) (pte : DWord) (pteAt : Nat) (tile write : Bool) : State :=
  let bits : Byte := if write then 0x60 else 0x40
  let s := s.orPte pteAt bits
  let e : TlbEntry := ⟨ctx, level, va / 2 ^ levelShift level, pte ||| bits.setWidth 64, pteAt⟩
  let s := s.updDie (dieOf core) fun d => { d with tlb := addEntry 16384 d.tlb e }
  s.updCore core fun c =>
    if tile then { c with wtlb := addEntry 256 c.wtlb e } else { c with l1tlb := addEntry 64 c.l1tlb e }

/-! ## Lookups -/

/-- A pending range invalidation or a page lock holds the address back (R224, R228). -/
def State.vaHeld (s : State) (ctx va : Nat) : Bool :=
  (s.rangeInvs.any fun q => q.active && q.ctx = ctx && q.base <= va && va < q.base + q.len)
    || s.migrations.any fun m => m.replica.isNone && m.ctx = ctx && m.page = va / 65536

/-- The entry that the first TLB level holding one gives (R215). -/
def State.tlbHit (s : State) (core ctx va : Nat) (tile : Bool) : Option TlbEntry :=
  let c := s.core core
  ((if tile then c.wtlb else c.l1tlb).find? (·.covers ctx va)).or ((s.die (dieOf core)).tlb.find? (·.covers ctx va))

/-- The entry permits the access without a further walk (R214, R217). -/
def ptePermits (kind : AccKind) (p : DWord) : Bool :=
  (!kind.writes || pteW p) && (kind != .fetch || pteX p)

/-- Where a leaf sends the access: a fenced home loses it; plain loads read the die's replica (R229, R230). -/
def State.leafHome (s : State) (core ctx va : Nat) (kind : AccKind) (level : Nat) (p : DWord) : Trans :=
  let off := va % 2 ^ levelShift level
  let base := pteAddr p / 2 ^ levelShift level * 2 ^ levelShift level
  match pteKind p with
  | 1 => .home (.peer (pteDev p) (base + off))
  | 2 => .home (.host (base + off))
  | _ =>
    let rep := if kind = .load then
        (s.die (dieOf core)).replicas.find? fun q => q.1 = ctx && q.2.1 = va / 65536
      else none
    match rep with
    | some q => .home (.dev (q.2.2 + va % 65536))
    | none => if s.dieFenced (paDie base) then .cause cMEMORY_LOST 0 else .home (.dev (base + off))

/-- Translate an access of a context from a core (R210 to R219, R222, R230). -/
def State.translate (s : State) (core ctx va : Nat) (kind : AccKind) : State × Trans :=
  let tile := match kind with
    | .tile _ => true
    | _ => false
  if 2 ^ 56 <= va then (s, .badVa)
  else if s.vaHeld ctx va then (s, .wait)
  else
    let hit := (s.tlbHit core ctx va tile).filter fun e => ptePermits kind e.pte && (!kind.writes || pteDirty e.pte)
    match hit with
    | some e => (s, s.leafHome core ctx va kind e.level e.pte)
    | none =>
      match s.walk (dieOf core) ctx va with
      | (s, .absent l) => (s, .cause cPAGE_ABSENT l)
      | (s, .malformed _) => (s, .cause cPAGE_PROT 0)
      | (s, .lost) => (s, .cause cMEMORY_LOST 0)
      | (s, .leaf l p pa) =>
        if ptePermits kind p then
          (s.fill core ctx va l p pa tile kind.writes, s.leafHome core ctx va kind l p)
        else (s, .cause cPAGE_PROT 0)

/-- A non-faulting lookup (R218): the TLBs only; a miss starts a background walk unless one is pending on the die. -/
def State.translateNf (s : State) (core ctx va : Nat) : State × Trans :=
  if 2 ^ 56 <= va then (s, .badVa)
  else if s.vaHeld ctx va then (s, .wait)
  else match s.tlbHit core ctx va false with
    | some e => (s, s.leafHome core ctx va .load e.level e.pte)
    | none =>
      let pending := (s.die (dieOf core)).bgWalks.any fun q => q.1 = ctx && q.2.1 = va / 65536
      (if pending then s else s.updDie (dieOf core) fun d => { d with bgWalks := d.bgWalks ++ [(ctx, va / 65536, core)] },
        .cause cPAGE_ABSENT 0)

/-- Where a page is homed: an access that a replica serves is counted there too (R225, R229). -/
def State.primary (s : State) (ctx va pa : Nat) : Nat :=
  let rep := s.dies.any fun d => d.replicas.any fun q => q.1 = ctx && q.2.1 = va / 65536 && q.2.2 = pa / 65536 * 65536
  if !rep then pa
  else match (s.walkLevels va 4 0 (((s.ctx? ctx).map Ctx.ptroot).getD 0)).2 with
    | .leaf _ p _ => pteAddr p
    | _ => pa

/-- Count an access of a requester die at its home's Sluice (R225). -/
def State.sluiceFrom (s : State) (me ctx va : Nat) (h : Home) (write : Bool) : State :=
  match h with
  | .dev at_ =>
    let pa := s.primary ctx va at_
    s.updDie (paDie pa) fun d =>
      let key (q : Nat × Nat × Nat × Nat × Bool) : Bool := q.1 = ctx && q.2.1 = va / 65536 && q.2.2.1 = me
      let old := (d.counts.find? key).getD (ctx, va / 65536, me, 0, false)
      let e := (ctx, va / 65536, me, min 65535 (old.2.2.2.1 + 1), old.2.2.2.2 || write)
      { d with counts := (e :: d.counts.filter fun q => !key q).take 8192 }
  | _ => s

/-- Count an access of a core. -/
def State.sluiceCount (s : State) (core ctx va : Nat) (h : Home) (write : Bool) : State := s.sluiceFrom (dieOf core) ctx va h write

/-- Count an access that no core makes: a queue's, firmware's or a peer's.  Its requester is taken to be the home die itself
(DESIGN CHOICE, log entry 70). -/
def State.sluiceHome (s : State) (ctx va : Nat) (h : Home) (write : Bool) : State :=
  match h with
  | .dev pa => s.sluiceFrom (paDie pa) ctx va h write
  | _ => s

/-! ## Memory at a home -/

/-- n bytes at a home of this package or of the host. -/
def State.homeRead (s : State) (h : Home) (n : Nat) : List Byte :=
  match h with
  | .dev pa => s.mem.readBytes pa n
  | .host a => s.hostMem.readBytes a n
  | .scratch c o => (s.core c).scratch.readBytes o n
  | .peer _ _ => List.replicate n 0

/-- Apply bytes at a home of this package or of the host (R192). -/
def State.homeWrite (s : State) (h : Home) (bs : List Byte) : State :=
  match h with
  | .dev pa => { s with mem := s.mem.writeBytes pa bs }
  | .host a => { s with hostMem := s.hostMem.writeBytes a bs }
  | .scratch c o => s.updCore c fun k => { k with scratch := k.scratch.writeBytes o bs }
  | .peer _ _ => s

/-- A store or atomic that reaches the primary of a page with replicas drops every replica first: its table entry, the
page's translations on that die, and its frame, which joins the pool (R229). -/
def State.dropReplicas (s : State) (ctx va : Nat) : State :=
  let pg := va / 65536
  let frames := s.dies.flatMap fun d => (d.replicas.filter fun q => q.1 = ctx && q.2.1 = pg).map (·.2.2)
  if frames.isEmpty then s else
  let had := (s.dies.filter fun d => d.replicas.any fun q => q.1 = ctx && q.2.1 = pg).map Die.id
  { s with
    frames := s.frames ++ frames
    cores := s.cores.map fun (c : Core) =>
      if had.contains (dieOf c.id) then { c with
        l1 := c.l1.filter fun ln => !(ln.ctx = ctx && ln.va / 65536 = pg)
        l1tlb := c.l1tlb.filter fun e => !e.covers ctx va
        wtlb := c.wtlb.filter fun e => !e.covers ctx va } else c
    dies := s.dies.map fun (d : Die) => { d with
      replicas := d.replicas.filter fun q => !(q.1 = ctx && q.2.1 = pg)
      walkCache := if had.contains d.id then d.walkCache.filter fun e => !e.covers ctx va else d.walkCache
      tlb := if had.contains d.id then d.tlb.filter fun e => !e.covers ctx va else d.tlb } }

/-! ## Accesses that no core makes -/

/-- Translate for an access of a queue, of a peer or of firmware: the whole table is walked, ACC and DIRTY are set, nothing
is cached (DEDUCED, log entry 14). -/
def State.tableWalkNow (s : State) (ctx va : Nat) (write : Bool) : State × Trans :=
  if 2 ^ 56 <= va then (s, .badVa)
  else match s.ctx? ctx with
    | none => (s, .cause cPAGE_ABSENT 0)
    | some k =>
      match (s.walkLevels va 4 0 k.ptroot).2 with
      | .absent l => (s, .cause cPAGE_ABSENT l)
      | .malformed pa => (s.tell "MALFORMED_PTE" [ctx, pa], .cause cPAGE_PROT 0)
      | .lost => (s, .cause cMEMORY_LOST 0)
      | .leaf l p pa =>
        if write && !pteW p then (s, .cause cPAGE_PROT 0)
        else (s.orPte pa (if write then 0x60 else 0x40), s.leafHome 0 ctx va (if write then .store else .copy) l p)

/-- The same, held back by a pending range invalidation or a page lock (R224, R228). -/
def State.tableWalk (s : State) (ctx va : Nat) (write : Bool) : State × Trans :=
  if s.vaHeld ctx va then (s, .wait) else s.tableWalkNow ctx va write

end Sys2Proof.Machine
end

