-- ==== Sys2Proof/Machine/Frames.lean ====
section
/-!
DEFINITION. Ngaser frames: the header (R260), sending with sequence numbers and port choice (R261, R262).
-/
namespace Sys2Proof.Machine

/-- A frame header (R260). -/
structure FrameHdr where
  dst : Nat
  src : Nat
  vc : Nat
  type : Nat
  seq : Nat
  ackseq : Nat
  tag : Nat
  len : Nat
  addr : Nat
  txid : Nat
  ops : Nat
  why : Nat
deriving DecidableEq, Repr

/-- The header as its 32 bytes. -/
def FrameHdr.pack (h : FrameHdr) : BitVec 256 :=
  BitVec.ofNat 256 (h.dst + h.src * 2 ^ 12 + h.vc * 2 ^ 24 + h.type * 2 ^ 26
    + h.seq * 2 ^ 32 + h.ackseq * 2 ^ 64 + h.tag * 2 ^ 96 + h.len * 2 ^ 112 + h.addr * 2 ^ 128 + h.txid * 2 ^ 192
    + h.ops * 2 ^ 224 + h.why * 2 ^ 232)

/-- One byte into the CRC-32 of IEEE 802.3, least significant bit first. -/
def crcByte (c : BitVec 32) (b : Byte) : BitVec 32 :=
  (List.range 8).foldl (fun c _ => if c.getLsbD 0 then (c >>> 1) ^^^ 0xEDB88320#32 else c >>> 1) (c ^^^ b.setWidth 32)

/-- The CRC-32 that closes a frame, over its header and its payload (R260). -/
def frameCrc (hdr : BitVec 256) (payload : List Byte) : BitVec 32 :=
  ~~~((leBytes hdr.toNat 32 ++ payload).foldl crcByte 0xFFFFFFFF#32)

/-- The header's fields. -/
def FrameHdr.unpack (b : BitVec 256) : FrameHdr :=
  let f (lo n : Nat) : Nat := (b.extractLsb' lo n).toNat
  ⟨f 0 12, f 12 12, f 24 2, f 26 6, f 32 24, f 64 24, f 96 16, f 112 16, f 128 64, f 192 32, f 224 8, f 232 8⟩

/-- A zero field of the header is nonzero, or the type is reserved (R260). -/
def frameBad (b : BitVec 256) : Bool :=
  b.extractLsb' 56 8 != 0 || b.extractLsb' 88 8 != 0 || b.extractLsb' 240 16 != 0 || 10 <= (b.extractLsb' 26 6).toNat

/-- Usable ports of a destination's route mask (R262). -/
def State.usablePorts (s : State) (dst : Nat) : List Nat :=
  let mask := ((s.routes.find? (·.1 == dst)).map (·.2)).getD 0
  (List.range 16).filter fun p => mask.getLsbD p && s.ports.any fun q => q.ix = p && (q.state = .up || q.state = .degraded)

/-- This device's number on the fabric: the default of the configuration records (R16). -/
abbrev State.recDevice (s : State) : BitVec 12 := s.records.device

/-- A device number that is this device (R16). -/
def State.ownDevice (s : State) (dst : Nat) : Bool := dst = s.recDevice.toNat

/-- The destination can be sent to now: this device, or one not marked unreachable that has a usable port. -/
def State.reachable (s : State) (dst : Nat) : Bool :=
  s.ownDevice dst || (!s.unreachable.contains dst && !(s.usablePorts dst).isEmpty)

/-- The receive state of a source and VC. -/
def State.rxOf (s : State) (src vc : Nat) : RxState :=
  (s.rx.find? fun q => q.src = src && q.vc = vc).getD ⟨src, vc, 0, []⟩

/-- A device becomes unreachable: what is held toward it is dropped (R261). -/
def State.markUnreachable (s : State) (dst : Nat) : State :=
  { s with unreachable := dst :: s.unreachable.filter (· != dst), sent := s.sent.filter fun f => f.dst != dst }

/-- An access toward a device that has no usable port makes it unreachable (R262). -/
def State.noPort (s : State) (dst : Nat) : State :=
  if s.ownDevice dst || !(s.usablePorts dst).isEmpty then s else s.markUnreachable dst

/-- Send an acknowledgement alone, or with the bitmap of missing numbers (R260, R261): a frame of its own, which takes no sequence
number and is not kept (DEDUCED, log entry 13).  The link takes it as its header, its payload and its CRC. -/
def State.sendAck (s : State) (dst vc : Nat) (missing : Option Nat) : State :=
  let bits : List Byte := match missing with
    | none => []
    | some m => leBytes m 8
  let h : FrameHdr := ⟨dst, s.recDevice.toNat, vc, if missing.isSome then 0 else 1, 0, (s.rxOf dst vc).next, 0, bits.length, 0, 0, 0, 0⟩
  s.tell (if missing.isSome then "LNACK" else "ACKONLY") [dst, h.pack.toNat, leNat bits, (frameCrc h.pack bits).toNat]

/-- Send a frame (R260 to R262): it is kept until covered.  A destination without a usable port becomes unreachable at
once; nothing is sent to an unreachable one.  A frame to this device itself comes back through `loopback`. -/
def State.sendFrame (s : State) (h : FrameHdr) (payload : List Byte) : State :=
  if !s.ownDevice h.dst && s.unreachable.contains h.dst then s else
  let seq := ((s.txNext.find? fun q => q.1 = h.dst && q.2.1 = h.vc).map (·.2.2)).getD 0
  let h := { h with src := s.recDevice.toNat, seq := seq, ackseq := (s.rxOf h.dst h.vc).next, len := payload.length }
  let s := { s with txNext := (h.dst, h.vc, (seq + 1) % 2 ^ 24) :: s.txNext.filter fun q => !(q.1 = h.dst && q.2.1 = h.vc) }
  if s.ownDevice h.dst then { s with loopback := s.loopback ++ [(h.pack, payload)] }
  else
    let ports := s.usablePorts h.dst
    if ports.isEmpty then s.markUnreachable h.dst
    else
      let port := ports.getD (Config.routeHash (BitVec.ofNat 32 h.txid) % ports.length) 0
      { s with sent := s.sent ++ [⟨h.dst, h.vc, seq, h.pack, payload, frameCrc h.pack payload, 1, port, s.now⟩] }

/-- The next transaction id. -/
def State.takeTx (s : State) : State × Nat := ({ s with nextTx := (s.nextTx + 1) % 2 ^ 32 }, s.nextTx)

/-! ## Firmware's writes -/

/-- Firmware writes bytes of a context, within one page, at once.  A page that is not there loses them (DEDUCED, log entry 18). -/
def State.firmwareWriteNow (s : State) (ctx va : Nat) (data : List Byte) : State :=
  match s.tableWalkNow ctx va true with
  | (s, .home (.peer dev wa)) =>
    let q := s.takeTx
    let tag := ((s.ctx? ctx).map fun k => k.ntag.toNat).getD 0
    q.1.sendFrame ⟨dev, 0, 0, 3, 0, 0, tag, 0, wa, q.2, 0, 0⟩ data
  | (s, .home h) => ((s.sluiceHome ctx va h true).homeWrite h data).dropReplicas ctx va
  | (s, _) => s.tell "WRITE_LOST" [ctx, va]

/-- Firmware writes bytes of a context, within one page.  While a range invalidation or a page lock holds the page back, or earlier
writes to the page wait for one, the write waits (R224, R228). -/
def State.firmwareStore (s : State) (ctx va : Nat) (data : List Byte) : State :=
  if s.vaHeld ctx va || s.fwHeld.any (fun q => q.1 = ctx && q.2.1 / 65536 = va / 65536) then
    { s with fwHeld := s.fwHeld ++ [(ctx, va, data)] }
  else s.firmwareWriteNow ctx va data

/-- Firmware's writes that waited, and need not wait any more, are made. -/
def State.retryStores (s : State) : State :=
  s.fwHeld.foldl (fun s q => s.firmwareStore q.1 q.2.1 q.2.2) { s with fwHeld := [] }

/-- Firmware writes bytes of a context that may cross a page. -/
def State.logBytes (s : State) (ctx va : Nat) (bs : List Byte) : State :=
  let n := 65536 - va % 65536
  let s := s.firmwareStore ctx va (bs.take n)
  if bs.length <= n then s else s.firmwareStore ctx (va + n) (bs.drop n)

end Sys2Proof.Machine
end

