-- ==== Sys2Proof/Machine/Special.lean ====
section
/-!
DEFINITION. NOP, and the special registers: SRD and SWR over the whole map of R300, with the field rules of the chapters
that lay the registers out.
-/
namespace Sys2Proof.Machine

/-- The engine operation is a DEFER MMA of the group (R245); FWDK has no miss policy. -/
def EngOp.isDefer (e : EngOp) (t g : Nat) : Bool :=
  match e with
  | .mma m => m.team = t && m.grp = g && m.fn != 2 && m.miss = 0
  | _ => false

/-- A DEFER MMA of the group has issued and not arrived (R245). -/
def Core.deferPending (co : Core) (t g : Nat) : Bool :=
  co.engq.any (·.isDefer t g) || co.engRun.any fun e => e.op.isDefer t g

/-- The deadline of a team's launch in front cycles (R125). -/
def State.deadlineOf (s : State) (t : Team) : Nat :=
  let p := ((s.launch? t.launch).map fun l => l.recd.pdeadline).getD 0
  if p = 0 then ((s.ctx? t.ctx).map Ctx.pdefault).getD 0 else p

/-- %ACKN (R196). -/
def Thread.ackn (th : Thread) : Word := BitVec.ofNat 32 (min th.ackScr 1023 * 2 ^ 16 + th.ackAll)

/-- Bytes that a record takes in the capture log: 64 for what it names, and its contents in blocks of 64 (R135). -/
def recSize (x : LogRec) : Nat := 64 + (x.bytes.length + 63) / 64 * 64

/-- Append a record to a context's capture log (R135).  The record stands in the context's state; its bytes at CAPBASE are not laid
out (DESIGN CHOICE, log entry 5).  A full log stops capture, and firmware reports it. -/
def State.capture (s : State) (ctx : Nat) (x : LogRec) : State :=
  match s.ctx? ctx with
  | none => s
  | some k =>
    if k.capture then
      if k.capUsed + recSize x <= k.capsz then
        let bytes := (List.range (recSize x)).map (Config.answerByte s.fresh)
        let s := ({ s with fresh := s.fresh + 1 } : State).logBytes ctx (k.capbase + k.capUsed) bytes
        s.updCtx ctx fun k => { k with capUsed := k.capUsed + recSize x, log := k.log ++ [x] }
      else (s.updCtx ctx fun k => { k with capture := false }).tell "CAPTURE_FULL" [ctx]
    else s

/-- Reads of %CYCL and %CYCH that a thread of a core has made under capture or replay. -/
def Ctx.readCount (k : Ctx) (core tid : Nat) : Nat :=
  ((k.reads.find? fun q => q.1 = core && q.2.1 = tid).map (·.2.2)).getD 0

/-- One more. -/
def Ctx.countRead (k : Ctx) (core tid : Nat) : Ctx :=
  { k with reads := (core, tid, k.readCount core tid + 1) :: k.reads.filter fun q => !(q.1 = core && q.2.1 = tid) }

/-- The nth logged value for a core and TID (R136). -/
def loggedCycle (log : List LogRec) (core tid n : Nat) : Option Nat :=
  ((log.filter fun x => x.kind = 2 && x.nums.take 2 = [core, tid])[n]?).bind fun x => x.nums[3]?

/-- The value a read of the cycle count returns: the live value, or under replay the nth logged value for the thread's nth read
(R136); a context created with CAPTURE logs it (R135).  None when the log has no more. -/
def State.cycleValue (s : State) (r : ThreadRef) (live : Word) : Option (Word × State) :=
  match s.team? r.team with
  | none => some (live, s)
  | some tm =>
    match s.ctx? tm.ctx with
    | none => some (live, s)
    | some k =>
      let n := k.readCount tm.core r.tid
      let counted (s : State) (v : Nat) : State :=
        (s.updCtx tm.ctx fun k => k.countRead tm.core r.tid).capture tm.ctx ⟨2, [tm.core, r.tid, n, v], []⟩
      match k.replay with
      | some log => (loggedCycle log tm.core r.tid n).map fun v => (BitVec.ofNat 32 v, counted s v)
      | none => some (live, if k.capture then counted s live.toNat else s)

/-- Bits an SWR to a register must leave zero (R25, R26, R110, R242, R245, R349). -/
def srReserved (n : Nat) : Word :=
  match n with
  | 0x030 => 0xFFFF0000
  | 0x032 => 0xFFE00007
  | 0x033 | 0x034 => 0xFFFF0000
  | 0x038 | 0x039 => 0xFFFFFF80
  | 0x03A => 0xFFFFFFFC
  | 0x048 => 0xFFFFF000
  | 0x04A => 0x000C0000
  | _ => 0

/-- The register's map accepts the value: no reserved bit, ESLOT not 3, DEPTH not above LIMIT. -/
def srAccepts (n : Nat) (v : Word) : Bool :=
  v &&& srReserved n = 0
    && (n != 0x048 || v.extractLsb' 9 2 != 3)
    && (n != 0x04A || (v.extractLsb' 20 6).ule (v.extractLsb' 26 6))

/-- Write an accepted value to a thread's own register. -/
def Thread.writeSr (th : Thread) (n : Nat) (v : Word) : Thread :=
  match n with
  | 0x030 => { th with seltag := v }
  | 0x031 => { th with selg := v }
  | 0x038 => { th with fflags := v }
  | 0x039 => { th with fenable := v }
  | 0x03A => { th with frm := v }
  | 0x048 => { th with ecause := (th.ecause &&& ~~~(0x600#32)) ||| (v &&& 0x600#32) }
  | 0x049 => { th with epc := v, repc := 0 }
  | 0x04A => { th with stkp := v }
  | _ => th

/-- Write an accepted value to a register of the group. -/
def Group.writeSr (g : Group) (n : Nat) (v : Word) : Group :=
  match n with
  | 0x032 => { g with dqbase := v }
  | 0x033 => { g with dqlen := v }
  | 0x034 => { g with dqcnt := v }
  | _ => g

/-- SWR by one thread (R299): ILLEGAL_FIELD for a value the map refuses; a deferral register waits (R245). -/
def State.swr (s : State) (r : ThreadRef) (src n : Nat) : State :=
  match s.thread? r, s.team? r.team with
  | some th, some tm =>
    let v := th.reg src
    if !srAccepts n v then s.raise r cILLEGAL_FIELD
    else if 0x032 <= n && n <= 0x034 then
      if (s.core tm.core).deferPending r.team (r.tid / 32) then s.block r .deferMma
      else s.updGroup r.team (r.tid / 32) fun g => g.writeSr n v
    else s.updThread r fun th => th.writeSr n v
  | _, _ => s

/-- NOP (R56): no effect. -/
def execNop (c : Bool) (st : State) : Res := .next (st.eachIssuing (.nop c) fun s _ => s)

/-- SWR (R299): threads act in bundle order, which is ascending lane order. -/
def execSwr (c : Bool) (s : BitVec 6) (i : BitVec 12) (st : State) : Res :=
  .next (st.eachIssuing (.swr c s i) fun st r => st.swr r s.toNat i.toNat)

end Sys2Proof.Machine
end

