-- ==== Sys2Proof/Machine/Words.lean ====
section
/-!
DEFINITION. What the picker needs to know of a word before it issues: its predicate, the predicates it reads, whether it
is a memory access, and whether a thread with a replay record parks before it (R92, R93, R346, R364).
-/
namespace Sys2Proof.Machine

/-- The predicate that guards the word; 0 where the word has none (R45). -/
def predOf : Instr → Nat
  | .iadd _ _ _ _ _ p => p.toNat
  | .isub _ _ _ _ _ p => p.toNat
  | .imul _ _ _ _ _ p => p.toNat
  | .imulh _ _ _ _ _ p => p.toNat
  | .imulhu _ _ _ _ _ p => p.toNat
  | .imad _ _ _ _ p => p.toNat
  | .imin _ _ _ _ _ p => p.toNat
  | .imax _ _ _ _ _ p => p.toNat
  | .umin _ _ _ _ _ p => p.toNat
  | .umax _ _ _ _ _ p => p.toNat
  | .and _ _ _ _ _ p => p.toNat
  | .or _ _ _ _ _ p => p.toNat
  | .xor _ _ _ _ _ p => p.toNat
  | .andn _ _ _ _ _ p => p.toNat
  | .shl _ _ _ _ _ p => p.toNat
  | .shr _ _ _ _ _ p => p.toNat
  | .sar _ _ _ _ _ p => p.toNat
  | .popc _ _ _ _ p => p.toNat
  | .clz _ _ _ _ p => p.toNat
  | .brev _ _ _ _ p => p.toNat
  | .prmb _ _ _ _ _ p => p.toNat
  | .iadds _ _ _ _ _ p => p.toNat
  | .idot4 _ _ _ _ p => p.toNat
  | .iadd64 _ _ _ _ _ p => p.toNat
  | .isub64 _ _ _ _ _ p => p.toNat
  | .imadw _ _ _ _ p => p.toNat
  | .shl64 _ _ _ _ _ p => p.toNat
  | .icmp _ _ _ _ _ p => p.toNat
  | .icmp64 _ _ _ _ _ p => p.toNat
  | .mov _ _ _ _ p => p.toNat
  | .fadd _ _ _ _ _ p => p.toNat
  | .fsub _ _ _ _ _ p => p.toNat
  | .fmul _ _ _ _ _ p => p.toNat
  | .ffma _ _ _ _ p => p.toNat
  | .fmin _ _ _ _ _ p => p.toNat
  | .fmax _ _ _ _ _ p => p.toNat
  | .fcmp _ _ _ _ _ p => p.toNat
  | .fsgn _ _ _ _ _ p => p.toNat
  | .hadd2 _ _ _ _ _ p => p.toNat
  | .hmul2 _ _ _ _ _ p => p.toNat
  | .hfma2 _ _ _ _ p => p.toNat
  | .badd2 _ _ _ _ _ p => p.toNat
  | .bmul2 _ _ _ _ _ p => p.toNat
  | .bfma2 _ _ _ _ p => p.toNat
  | .dadd _ _ _ _ _ p => p.toNat
  | .dmul _ _ _ _ _ p => p.toNat
  | .dfma _ _ _ _ p => p.toNat
  | .cvtI32F32 _ _ _ _ p => p.toNat
  | .cvtU32F32 _ _ _ _ p => p.toNat
  | .cvtF32I32 _ _ _ _ p => p.toNat
  | .cvtF32U32 _ _ _ _ p => p.toNat
  | .cvtF32I32Rz _ _ _ _ p => p.toNat
  | .cvtF32U32Rz _ _ _ _ p => p.toNat
  | .cvtF32F16 _ _ _ p => p.toNat
  | .cvtF32Bf16 _ _ _ p => p.toNat
  | .cvtF16F32 _ _ _ _ _ p => p.toNat
  | .cvtBf16F32 _ _ _ _ _ p => p.toNat
  | .cvtF32E4m3 _ _ _ p => p.toNat
  | .cvtF32E5m2 _ _ _ p => p.toNat
  | .cvtE4m3F32 _ _ _ _ _ p => p.toNat
  | .cvtE5m2F32 _ _ _ _ _ p => p.toNat
  | .cvtF32F64 _ _ _ _ p => p.toNat
  | .cvtF64F32 _ _ _ _ p => p.toNat
  | .cvtI32F64 _ _ _ _ p => p.toNat
  | .cvtF64I32 _ _ _ _ p => p.toNat
  | .cvtF64I32Rz _ _ _ _ p => p.toNat
  | .sfuRcp _ _ _ _ p => p.toNat
  | .sfuRsq _ _ _ _ p => p.toNat
  | .sfuSqrt _ _ _ _ p => p.toNat
  | .sfuEx2 _ _ _ _ p => p.toNat
  | .sfuLg2 _ _ _ _ p => p.toNat
  | .sfuSin _ _ _ _ p => p.toNat
  | .sfuCos _ _ _ _ p => p.toNat
  | .sfuTanh _ _ _ _ p => p.toNat
  | .sfuSigm _ _ _ _ p => p.toNat
  | .plop _ _ _ _ _ p => p.toNat
  | .qsc4Fold _ _ _ p => p.toNat
  | .qsc4Merge _ _ _ p => p.toNat
  | .qsc4Scale _ _ _ _ p => p.toNat
  | .qsc8Fold _ _ _ p => p.toNat
  | .qsc8Merge _ _ _ p => p.toNat
  | .qsc8Scale _ _ _ _ p => p.toNat
  | .qnt4 _ _ _ _ p => p.toNat
  | .qnt8 _ _ _ _ p => p.toNat
  | .dq _ _ _ _ _ p => p.toNat
  | .fclassF32 _ _ _ _ p => p.toNat
  | .fclassF16 _ _ _ _ p => p.toNat
  | .fclassBf16 _ _ _ _ p => p.toNat
  | .fclassF64 _ _ _ _ p => p.toNat
  | .fclassE4m3 _ _ _ _ p => p.toNat
  | .fclassE5m2 _ _ _ _ p => p.toNat
  | .shr64 _ _ _ _ _ p => p.toNat
  | .ldb _ _ _ p _ => p.toNat
  | .ldh _ _ _ p _ => p.toNat
  | .ldw _ _ _ p _ => p.toNat
  | .ldd _ _ _ p _ => p.toNat
  | .ldq _ _ _ p _ => p.toNat
  | .stb _ _ _ p _ => p.toNat
  | .sth _ _ _ p _ => p.toNat
  | .stw _ _ _ p _ => p.toNat
  | .std _ _ _ p _ => p.toNat
  | .stq _ _ _ p _ => p.toNat
  | .lsw _ _ _ p _ => p.toNat
  | .lsq _ _ _ p _ => p.toNat
  | .ssw _ _ _ p _ => p.toNat
  | .ssq _ _ _ p _ => p.toNat
  | .amoAdd _ _ _ _ _ p => p.toNat
  | .amoAnd _ _ _ _ _ p => p.toNat
  | .amoOr _ _ _ _ _ p => p.toNat
  | .amoXor _ _ _ _ _ p => p.toNat
  | .amoMin _ _ _ _ _ p => p.toNat
  | .amoMax _ _ _ _ _ p => p.toNat
  | .amoUmin _ _ _ _ _ p => p.toNat
  | .amoUmax _ _ _ _ _ p => p.toNat
  | .amoXchg _ _ _ _ _ p => p.toNat
  | .amoCas _ _ _ _ _ p => p.toNat
  | .amoFadd _ _ _ _ _ p => p.toNat
  | .amoBadd2 _ _ _ _ _ p => p.toNat
  | .amoAdd64 _ _ _ _ _ p => p.toNat
  | .amoXchg64 _ _ _ _ _ p => p.toNat
  | .amoCas64 _ _ _ _ _ p => p.toNat
  | .samoAdd _ _ _ _ _ p => p.toNat
  | .samoAnd _ _ _ _ _ p => p.toNat
  | .samoOr _ _ _ _ _ p => p.toNat
  | .samoXor _ _ _ _ _ p => p.toNat
  | .samoMin _ _ _ _ _ p => p.toNat
  | .samoMax _ _ _ _ _ p => p.toNat
  | .samoUmin _ _ _ _ _ p => p.toNat
  | .samoUmax _ _ _ _ _ p => p.toNat
  | .samoXchg _ _ _ _ _ p => p.toNat
  | .samoCas _ _ _ _ _ p => p.toNat
  | .samoFadd _ _ _ _ _ p => p.toNat
  | .samoBadd2 _ _ _ _ _ p => p.toNat
  | .samoAdd64 _ _ _ _ _ p => p.toNat
  | .samoXchg64 _ _ _ _ _ p => p.toNat
  | .samoCas64 _ _ _ _ _ p => p.toNat
  | .ldlk _ _ _ _ _ p => p.toNat
  | .stul _ _ _ _ _ p => p.toNat
  | .bra p _ => p.toNat
  | .call p _ => p.toNat
  | .ret p => p.toNat
  | .jmpr p _ => p.toNat
  | .enrol _ _ p => p.toNat
  | .rejoin _ _ p => p.toNat
  | .strike _ _ p => p.toNat
  | .yield _ p => p.toNat
  | .cpy _ _ _ _ _ p => p.toNat
  | .twkLoad _ _ _ _ p => p.toNat
  | .twkStore _ _ _ _ p => p.toNat
  | .twkGather _ _ _ _ p => p.toNat
  | .twkScatteradd _ _ _ _ p => p.toNat
  | .syncInit _ _ _ _ p => p.toNat
  | .syncArrive _ _ _ _ p => p.toNat
  | .syncWait _ _ _ _ p => p.toNat
  | .syncArrw _ _ _ _ p => p.toNat
  | .syncTest _ _ _ _ p => p.toNat
  | .syncRel _ _ _ p => p.toNat
  | .syncAcq _ _ _ _ p => p.toNat
  | .syncBind _ _ _ _ p => p.toNat
  | .syncUnbind _ _ _ _ p => p.toNat
  | .syncExpect _ _ _ _ p => p.toNat
  | .syncErr _ _ _ _ p => p.toNat
  | .fenceRel _ _ p => p.toNat
  | .fenceAcq _ _ p => p.toNat
  | .fenceFull _ _ p => p.toNat
  | .fenceOprdy _ p => p.toNat
  | .fenceTfence _ p => p.toNat
  | .nobjCreate _ _ p => p.toNat
  | .nobjOpen _ _ p => p.toNat
  | .nobjClose _ _ p => p.toNat
  | .nobjHand _ _ p => p.toNat
  | .nobjDrop _ _ p => p.toNat
  | .nobjQuery _ _ p => p.toNat
  | .nobjMirror _ _ p => p.toNat
  | .taskPush _ _ _ p => p.toNat
  | .taskPop _ _ _ p => p.toNat
  | .taskTrypop _ _ _ p => p.toNat
  | .taskEos _ _ p => p.toNat
  | .taskDone _ _ _ p => p.toNat
  | .sysTrap _ _ p => p.toNat
  | .sysEret _ p => p.toNat
  | .sysBkpt _ p => p.toNat
  | .sysExit _ p => p.toNat
  | .sysPyld _ p => p.toNat
  | .sysCclr _ _ p => p.toNat
  | .sysSleep _ _ p => p.toNat
  | .sysHaltctx _ _ p => p.toNat
  | .sendEmark _ _ p => p.toNat
  | _ => 0

/-- Predicates the word reads beside its guard. -/
def predSources : Instr → List Nat
  | .sel _ _ _ _ _ k => [k.toNat]
  | .plop _ _ _ x y _ => [x.toNat, y.toNat]
  | _ => []

/-- How a word meets a non-empty replay record. -/
inductive RecordClass where
  /-- No memory access. -/
  | plain
  /-- A memory access, appended; a release parks before it. -/
  | access (release : Bool)
  /-- The thread parks before the word. -/
  | meet
deriving DecidableEq, Repr

/-- The class of a word (R92, R93, R346, R364). -/
def recordClass : Instr → RecordClass
  | .ldb _ _ _ _ _ => .access false
  | .ldh _ _ _ _ _ => .access false
  | .ldw _ _ _ _ _ => .access false
  | .ldd _ _ _ _ _ => .access false
  | .ldq _ _ _ _ _ => .access false
  | .stb _ _ _ _ _ => .access false
  | .sth _ _ _ _ _ => .access false
  | .stw _ _ _ _ _ => .access false
  | .std _ _ _ _ _ => .access false
  | .stq _ _ _ _ _ => .access false
  | .ldwn _ _ _ _ _ => .access false
  | .ldqn _ _ _ _ _ => .access false
  | .lsw _ _ _ _ _ => .access false
  | .lsq _ _ _ _ _ => .access false
  | .ssw _ _ _ _ _ => .access false
  | .ssq _ _ _ _ _ => .access false
  | .amoAdd _ _ _ o _ _ => .access (o.getLsbD 1)
  | .amoAnd _ _ _ o _ _ => .access (o.getLsbD 1)
  | .amoOr _ _ _ o _ _ => .access (o.getLsbD 1)
  | .amoXor _ _ _ o _ _ => .access (o.getLsbD 1)
  | .amoMin _ _ _ o _ _ => .access (o.getLsbD 1)
  | .amoMax _ _ _ o _ _ => .access (o.getLsbD 1)
  | .amoUmin _ _ _ o _ _ => .access (o.getLsbD 1)
  | .amoUmax _ _ _ o _ _ => .access (o.getLsbD 1)
  | .amoXchg _ _ _ o _ _ => .access (o.getLsbD 1)
  | .amoCas _ _ _ o _ _ => .access (o.getLsbD 1)
  | .amoFadd _ _ _ o _ _ => .access (o.getLsbD 1)
  | .amoBadd2 _ _ _ o _ _ => .access (o.getLsbD 1)
  | .amoAdd64 _ _ _ o _ _ => .access (o.getLsbD 1)
  | .amoXchg64 _ _ _ o _ _ => .access (o.getLsbD 1)
  | .amoCas64 _ _ _ o _ _ => .access (o.getLsbD 1)
  | .samoAdd _ _ _ o _ _ => .access (o.getLsbD 1)
  | .samoAnd _ _ _ o _ _ => .access (o.getLsbD 1)
  | .samoOr _ _ _ o _ _ => .access (o.getLsbD 1)
  | .samoXor _ _ _ o _ _ => .access (o.getLsbD 1)
  | .samoMin _ _ _ o _ _ => .access (o.getLsbD 1)
  | .samoMax _ _ _ o _ _ => .access (o.getLsbD 1)
  | .samoUmin _ _ _ o _ _ => .access (o.getLsbD 1)
  | .samoUmax _ _ _ o _ _ => .access (o.getLsbD 1)
  | .samoXchg _ _ _ o _ _ => .access (o.getLsbD 1)
  | .samoCas _ _ _ o _ _ => .access (o.getLsbD 1)
  | .samoFadd _ _ _ o _ _ => .access (o.getLsbD 1)
  | .samoBadd2 _ _ _ o _ _ => .access (o.getLsbD 1)
  | .samoAdd64 _ _ _ o _ _ => .access (o.getLsbD 1)
  | .samoXchg64 _ _ _ o _ _ => .access (o.getLsbD 1)
  | .samoCas64 _ _ _ o _ _ => .access (o.getLsbD 1)
  | .ldlk _ _ _ o _ _ => .access (o.getLsbD 1)
  | .stul _ _ _ o _ _ => .access (o.getLsbD 1)
  | .call _ _ => .meet
  | .ret _ => .meet
  | .rejoin _ _ _ => .meet
  | .shflIdx _ _ _ _ => .meet
  | .shflUp _ _ _ _ => .meet
  | .shflDn _ _ _ _ => .meet
  | .shflXor _ _ _ _ => .meet
  | .voteAll _ _ _ _ => .meet
  | .voteAny _ _ _ _ => .meet
  | .voteBallot _ _ _ _ => .meet
  | .voteEq _ _ _ _ => .meet
  | .reduxAdd _ _ _ _ => .meet
  | .reduxMin _ _ _ _ => .meet
  | .reduxMax _ _ _ _ => .meet
  | .reduxUmin _ _ _ _ => .meet
  | .reduxUmax _ _ _ _ => .meet
  | .reduxAnd _ _ _ _ => .meet
  | .reduxOr _ _ _ _ => .meet
  | .reduxXor _ _ _ _ => .meet
  | .match _ _ _ _ => .meet
  | .mmaFwd _ _ _ _ _ _ _ _ => .meet
  | .mmaFwd2 _ _ _ _ _ _ _ _ => .meet
  | .mmaFwdk _ _ _ _ _ _ _ _ => .meet
  | .mmaBwd _ _ _ _ _ _ _ _ => .meet
  | .mmaGrad _ _ _ _ _ _ => .meet
  | .bankLd _ _ _ _ _ => .meet
  | .bankLdq _ _ _ _ _ => .meet
  | .bankEvict _ _ _ _ => .meet
  | .bankGzero _ _ _ _ => .meet
  | .bankGdrain _ _ _ _ _ => .meet
  | .bankQuery _ _ _ _ _ => .meet
  | .topkInit _ _ _ => .meet
  | .topkRead _ _ _ => .meet
  | .cpy _ _ _ _ _ _ => .access false
  | .cpw _ _ _ => .meet
  | .twkLoad _ _ _ _ _ => .meet
  | .twkStore _ _ _ _ _ => .meet
  | .twkGather _ _ _ _ _ => .meet
  | .twkScatteradd _ _ _ _ _ => .meet
  | .syncInit _ _ _ _ _ => .meet
  | .syncArrive _ _ _ _ _ => .meet
  | .syncWait _ _ _ _ _ => .meet
  | .syncArrw _ _ _ _ _ => .meet
  | .syncTest _ _ _ _ _ => .meet
  | .syncRel _ _ _ _ => .meet
  | .syncAcq _ _ _ _ _ => .meet
  | .syncBind _ _ _ _ _ => .meet
  | .syncUnbind _ _ _ _ _ => .meet
  | .syncExpect _ _ _ _ _ => .meet
  | .syncErr _ _ _ _ _ => .meet
  | .fenceRel _ _ _ => .meet
  | .fenceAcq _ _ _ => .meet
  | .fenceFull _ _ _ => .meet
  | .fenceOprdy _ _ => .meet
  | .fenceTfence _ _ => .meet
  | .nobjCreate _ _ _ => .meet
  | .nobjOpen _ _ _ => .meet
  | .nobjClose _ _ _ => .meet
  | .nobjHand _ _ _ => .meet
  | .nobjDrop _ _ _ => .meet
  | .nobjQuery _ _ _ => .meet
  | .nobjMirror _ _ _ => .meet
  | .taskPush _ _ _ _ => .meet
  | .taskPop _ _ _ _ => .meet
  | .taskTrypop _ _ _ _ => .meet
  | .taskEos _ _ _ => .meet
  | .taskDone _ _ _ _ => .meet
  | .sysEret _ _ => .meet
  | .sysExit _ _ => .meet
  | .sendEmark _ _ _ => .meet
  | _ => .plain

end Sys2Proof.Machine
end

