-- ==== Sys2Proof/Machine/Access.lean ====
section
/-!
DEFINITION. Memory accesses: scratch addresses (R323, R324), the L1 and the store queue (R193, R194), atomics (R329,
R330), lock bits (R331, R332), the scoreboard (R338), counted writes (R196), releases and acquires (R195 to R198), replay
records (R92 to R95), and one access performed or recorded.
-/
namespace Sys2Proof.Machine

/-! ## Scratch addresses -/

/-- The core at a position of a team's cluster rectangle (R159). -/
def State.clusterCore (s : State) (tm : Team) (pos : Nat) : Nat :=
  let shx := ((s.launch? tm.launch).map (·.recd.shx)).getD 1
  let origin := ((s.cluster? tm.launch tm.cix).map Cluster.origin).getD tm.core
  origin + pos % shx + 8 * (pos / shx)

/-- Number of positions of the cluster rectangle. -/
def State.clusterSize (s : State) (tm : Team) : Nat :=
  ((s.launch? tm.launch).map fun l => l.recd.shx * l.recd.shy).getD 1

/-- A core or its die is fenced (R18). -/
def State.coreGone (s : State) (c : Nat) : Bool := (s.core c).fenced || s.dieFenced (dieOf c)

/-- The span lies inside an object that the team has open and that the core holds (R324). -/
def State.inOpenObj (s : State) (tm : Team) (core off n : Nat) : Bool :=
  s.objs.any fun ob => ob.ctx = tm.ctx && ob.holder = core && (ob.state = .resident || ob.state = .moving)
    && ob.base <= off && off + n <= ob.base + ob.size
    && tm.opens.any fun o => o.name = ob.name && !o.lost && !o.handed

/-- Where a scratch address leads. -/
inductive ScrRes where
  | at_ (core off : Nat) (remote : Bool)
  | wait
  | cause (c : Cause)
deriving DecidableEq, Repr

/-- Resolve n bytes at a scratch address (R323, R324).  The window of a member that is being saved or is swapped is
reached when the team is back (DEDUCED, log entry 11). -/
def State.resolveScratch (s : State) (tm : Team) (sa : Word) (n : Nat) : ScrRes :=
  let obj := sa.getLsbD 26
  let rmt := sa.getLsbD 25
  let mem := (sa.extractLsb' 21 4).toNat
  let off := (sa.extractLsb' 0 21).toNat
  if sa.extractLsb' 27 5 != 0 || (!rmt && mem != 0) then .cause cSCRATCH_RANGE
  else if rmt && s.clusterSize tm <= mem then .cause cSCRATCH_RANGE
  else
    let pos := if rmt then mem else tm.clx
    let remote := pos != tm.clx
    let core := if remote then s.clusterCore tm pos else tm.core
    if s.coreGone core then .cause cMEMORY_LOST
    else if obj then
      if s.inOpenObj tm core off n then .at_ core off remote else .cause cSCRATCH_RANGE
    else if !remote then
      if off + n <= tm.scrsz then .at_ core (tm.winBase + off) false else .cause cSCRATCH_RANGE
    else
      match s.teams.find? fun t => t.launch = tm.launch && t.cix = tm.cix && t.clx = pos with
      | none => .cause cSCRATCH_RANGE
      | some t =>
        if t.state = .ended || t.scrsz < off + n then .cause cSCRATCH_RANGE
        else if t.state = .resident || t.state = .killing then .at_ core (t.winBase + off) true
        else .wait

/-- The span overlaps a live scoreboard range of the core (R338). -/
def Core.rangeBusy (co : Core) (off n : Nat) : Bool :=
  co.ranges.any fun q => q.writes != 0 && off < q.base + q.len && q.base < off + n

/-- A write of this core to the same remote scratch bytes has not been performed (R207: kept if same address). -/
def Core.remoteBusy (co : Core) (core off n : Nat) : Bool :=
  co.storeq.any fun q => !q.done && match q.home with
    | .scratch c o => c = core && off < o + q.data.length && o < off + n
    | _ => false

/-! ## The store queue and L1 -/

/-- A queued write overlaps bytes at a home. -/
def QStore.overlaps (q : QStore) (h : Home) (n : Nat) : Bool :=
  match q.home, h with
  | .dev a, .dev b => a < b + n && b < a + q.data.length
  | .host a, .host b => a < b + n && b < a + q.data.length
  | .peer d a, .peer e b => d = e && a < b + n && b < a + q.data.length
  | .scratch c a, .scratch e b => c = e && a < b + n && b < a + q.data.length
  | _, _ => false

/-- Offset of a queued write from a home address it overlaps. -/
def QStore.start (q : QStore) : Nat :=
  match q.home with
  | .dev a | .host a | .peer _ a | .scratch _ a => a

/-- The address part of a home. -/
def Home.addr : Home → Nat
  | .dev a | .host a | .peer _ a | .scratch _ a => a

/-- Lay data that starts at one address over bytes that start at another. -/
def layOver (bs : List Byte) (at_ start : Nat) (data : List Byte) : List Byte :=
  bs.mapIdx fun i b => if start <= at_ + i && at_ + i < start + data.length then data.getD (at_ + i - start) b else b

/-- Lay one queued write over bytes read at a home. -/
def overlay (bs : List Byte) (h : Home) (q : QStore) : List Byte :=
  if q.overlaps h bs.length then layOver bs h.addr q.start q.data else bs

/-- A queued write to a global address of a context. -/
def QStore.global (q : QStore) (ctx : Nat) : Bool := q.ctx = ctx && match q.home with
  | .scratch _ _ => false
  | _ => true

/-- Bytes at a home as a thread of the core sees them: its queued writes over the home (R193). -/
def State.seen (s : State) (core : Nat) (h : Home) (n : Nat) : List Byte :=
  ((s.core core).storeq.filter fun q => !q.done).foldl (fun bs q => overlay bs h q) (s.homeRead h n)

/-- A home address rounded down to its 64-byte line. -/
def Home.lineOf : Home → Home
  | .dev a => .dev (a / 64 * 64)
  | .host a => .host (a / 64 * 64)
  | .peer d a => .peer d (a / 64 * 64)
  | .scratch c a => .scratch c (a / 64 * 64)

/-- The core's queued writes laid over the bytes at an address of a context, oldest first, whatever home the bytes come from: a
replica does not hide a write that is on its way to the primary (R193, R206, R229). -/
def State.layQueue (s : State) (core ctx va : Nat) (h : Home) (bs : List Byte) : List Byte :=
  ((s.core core).storeq.filter fun q => !q.done).foldl (fun bs q =>
    if q.global ctx && q.va < va + bs.length && va < q.va + q.data.length then layOver bs va q.va q.data else overlay bs h q) bs

/-- The value of a load whose every byte a queued write of the core gives. -/
def State.queuedBytes (s : State) (core ctx va n : Nat) : Option (List Byte) :=
  let qs := (s.core core).storeq.filter fun q => !q.done && q.global ctx
  if (List.range n).all fun i => qs.any fun q => q.va <= va + i && va + i < q.va + q.data.length then
    some (qs.foldl (fun bs q => layOver bs va q.va q.data) (List.replicate n 0))
  else none

/-- A line of a core's L1. -/
def Core.l1Line? (co : Core) (ctx base : Nat) : Option L1Line := co.l1.find? fun ln => ln.ctx = ctx && ln.va = base

/-- Put a line into a core's L1, which holds 1,024 lines of 64 bytes (PRESUMED, log entry 12). -/
def Core.l1Fill (co : Core) (ln : L1Line) : Core := { co with l1 := (ln :: co.l1).take 1024 }

/-- Package DRAM at a home has lost the contents of one of n bytes to an uncorrectable error (R102). -/
def State.eccAt (s : State) (h : Home) (n : Nat) : Bool :=
  match h with
  | .dev pa => s.ecc.any fun b => b * 64 < pa + n && pa < b * 64 + 64
  | _ => false

/-- Read global bytes through L1 (R193, R194): a hit gives the line under the core's queued writes; a miss reads the
home, counts there (R225), and allocates a line. -/
def State.loadBytes (s : State) (core ctx va : Nat) (h : Home) (n : Nat) : State × List Byte :=
  let base := va / 64 * 64
  match (s.core core).l1Line? ctx base with
  | some ln => (s, s.layQueue core ctx va h ((ln.data.drop (va - base)).take n))
  | none =>
    let line := s.layQueue core ctx base h.lineOf (s.homeRead h.lineOf 64)
    let s := s.sluiceCount core ctx va h false
    (s.updCore core fun c => c.l1Fill ⟨ctx, base, line⟩, (line.drop (va - base)).take n)

/-- A store that hits updates the L1 lines it touches at issue (R193). -/
def Core.l1Store (co : Core) (ctx va : Nat) (bs : List Byte) : Core :=
  { co with l1 := co.l1.map fun ln =>
      if ln.ctx = ctx && ln.va < va + bs.length && va < ln.va + 64 then { ln with data := layOver ln.data ln.va va bs } else ln }

/-! ## Counted writes (R196, R197) -/

/-- How a write to a home is counted. -/
def Home.ackKind : Home → AckKind
  | .dev _ => .pkg
  | .host _ => .host
  | .peer d _ => .dev d
  | .scratch _ _ => .scr

/-- The hidden count of writes toward a device. -/
def Thread.devCount (th : Thread) (d : Nat) : Nat := ((th.ackDev.find? (·.1 == d)).map (·.2)).getD 0

/-- Set the hidden count of writes toward a device. -/
def Thread.setDev (th : Thread) (d n : Nat) : Thread :=
  { th with ackDev := (if n = 0 then [] else [(d, n)]) ++ th.ackDev.filter (·.1 != d) }

/-- One more write awaits acknowledgement. -/
def Thread.countUp (th : Thread) (k : AckKind) : Thread :=
  let th := { th with ackAll := th.ackAll + 1 }
  match k with
  | .pkg => { th with ackPkg := th.ackPkg + 1 }
  | .host => th
  | .dev d => th.setDev d (th.devCount d + 1)
  | .scr => { th with ackScr := th.ackScr + 1 }

/-- One acknowledgement or NACK arrives. -/
def Thread.countDown (th : Thread) (k : AckKind) (nack : Bool) : Thread :=
  let th := { th with ackAll := th.ackAll - 1, nackPending := th.nackPending || nack }
  match k with
  | .pkg => { th with ackPkg := th.ackPkg - 1 }
  | .host => th
  | .dev d => th.setDev d (th.devCount d - 1)
  | .scr => { th with ackScr := th.ackScr - 1 }

/-! ## Releases and acquires -/

/-- A remote load of the thread has no answer yet: it is not performed. -/
def State.remoteLoads (s : State) (r : ThreadRef) : Bool :=
  s.remotes.any fun q => q.ref = r && match q.acc with
    | .load _ _ _ | .nfLoad _ _ _ _ | .amo _ _ _ _ _ _ => true
    | _ => false

/-- A write of the thread stands in its core's store queue, not yet performed. -/
def State.writesQueued (s : State) (r : ThreadRef) : Bool :=
  match s.team? r.team with
  | none => false
  | some tm => (s.core tm.core).storeq.any fun q => q.ref = r && !q.done

/-- The thread's earlier accesses have reached what a release at a scope waits for (R195).  From cluster scope on that is not only
the acknowledgement of writes to remote scratch, or to it and package memory: an observer on another core sees the thread's earlier
global writes, those to host memory and to peers too, after its acquire (R201, R207, R208), so they have left the store queue
(DEDUCED, log entry 73). -/
def State.releaseDone (s : State) (r : ThreadRef) (scope : Nat) : Bool :=
  match s.thread? r with
  | none => true
  | some th =>
    !s.remoteLoads r && (match scope with
      | 0 | 1 => true
      | 2 => th.ackScr = 0 && !s.writesQueued r
      | 3 | 4 => th.ackPkg = 0 && th.ackScr = 0 && !s.writesQueued r
      | _ => th.ackAll = 0)

/-- FENCE.ACQ's effect on the core's L1 (R198). -/
def State.acquireAll (s : State) (r : ThreadRef) : State :=
  match s.team? r.team with
  | some tm => s.invalidateL1 tm.core
  | none => s

/-! ## Atomic functions (R329) -/

/-- Bytes an atomic function acts on. -/
def amoWidth (fn : Nat) : Nat := if fn = 0x0C || fn = 0x0D || fn = 0x0E then 8 else 4

/-- Registers of its operand. -/
def amoRegs (fn : Nat) : Nat := if fn = 0x0E then 4 else if fn = 0x09 || fn = 0x0C || fn = 0x0D then 2 else 1

/-- BADD2's sum. -/
def badd2 (a b : Word) : Word :=
  let half (k : Nat) : Nat := (fadd fmtBF16 0 (a.extractLsb' k 16).toNat (b.extractLsb' k 16).toNat).1
  BitVec.ofNat 32 (half 0 + half 16 * 2 ^ 16)

/-- The new 32-bit value. -/
def amoNew32 (fn : Nat) (old : Word) (ops : List Word) : Word :=
  let v := ops.getD 0 0
  match fn with
  | 0x00 => old + v
  | 0x01 => old &&& v
  | 0x02 => old ||| v
  | 0x03 => old ^^^ v
  | 0x04 => if v.slt old then v else old
  | 0x05 => if old.slt v then v else old
  | 0x06 => if v.ult old then v else old
  | 0x07 => if old.ult v then v else old
  | 0x08 => v
  | 0x09 => if old = v then ops.getD 1 0 else old
  | 0x0A => BitVec.ofNat 32 (fadd fmtF32 0 old.toNat v.toNat).1
  | _ => badd2 old v

/-- The new 64-bit value. -/
def amoNew64 (fn : Nat) (old : DWord) (ops : List Word) : DWord :=
  let v : DWord := ops.getD 1 0 ++ ops.getD 0 0
  let w : DWord := ops.getD 3 0 ++ ops.getD 2 0
  match fn with
  | 0x0C => old + v
  | 0x0D => v
  | _ => if old = v then w else old

/-- The bytes written over the old bytes. -/
def amoBytes (fn : Nat) (old : List Byte) (ops : List Word) : List Byte :=
  if amoWidth fn = 8 then leBytes (amoNew64 fn (BitVec.ofNat 64 (leNat old)) ops).toNat 8
  else leBytes (amoNew32 fn (BitVec.ofNat 32 (leNat old)) ops).toNat 4

/-! ## Lock bits (R331) -/

/-- The lock bit of a scratch word: its bank by physical offset, its index by the offset as written. -/
def lockOf (sa : Word) (phys : Nat) : Nat × Nat :=
  (phys / 8 % 64,
    (sa.extractLsb' 9 3 ^^^ sa.extractLsb' 12 3 ^^^ sa.extractLsb' 15 3 ^^^ sa.extractLsb' 18 3).toNat)

/-- Who holds a lock bit of a core. -/
def State.lockHolder (s : State) (core : Nat) (l : Nat × Nat) : Option ThreadRef :=
  ((s.core core).locks.find? fun q => q.bank = l.1 && q.ix = l.2).map LockBit.holder

/-- Lock bits a thread holds, on every core. -/
def State.locksHeld (s : State) (r : ThreadRef) : Nat := (s.cores.map fun c => c.locks.countP fun q => q.holder = r).sum

/-! ## Scoreboard ranges (R338) -/

/-- Take a range of n bytes at base; a CPY joins the range that a CPY took last when it begins at that range's end and
the span stays within 8 KiB.  None when the writer must wait. -/
def Core.takeRange (co : Core) (base n : Nat) (cpy : Bool) : Option Core :=
  let join := match co.ranges.find? SbRange.cpy with
    | some q => if cpy && q.base + q.len = base && q.len + n <= 8192 then some q else none
    | none => none
  match join with
  | some q =>
    if (co.ranges.filter fun x => x != q).any fun x => base < x.base + x.len && x.base < base + n then none
    else some { co with ranges := { q with len := q.len + n, writes := q.writes + 1 } :: co.ranges.filter fun x => x != q }
  | none =>
    if co.rangeBusy base n || 32 <= co.ranges.length then none
    else some { co with ranges := ⟨base, n, 1, cpy⟩ ::
      (if cpy then co.ranges.map fun x => { x with cpy := false } else co.ranges) }

/-- One write of the range holding an address is performed. -/
def Core.retireRange (co : Core) (base : Nat) : Core := { co with ranges := retireIn co.ranges base }

/-! ## Page requests (R219, R220) -/

/-- Open a page request or join the open one. -/
def State.openRequest (s : State) (ctx va kinds core level : Nat) : State :=
  let page := va / 65536
  if s.pageReqs.any fun q => q.ctx = ctx && q.page = page then
    { s with pageReqs := s.pageReqs.map fun q =>
        if q.ctx = ctx && q.page = page then { q with kinds := q.kinds ||| BitVec.ofNat 5 kinds } else q }
  else { s with
    pageReqs := s.pageReqs ++ [⟨ctx, page, BitVec.ofNat 5 kinds, core, level, false⟩]
    prqHeld := s.prqHeld ++ [.absent ctx page] }

/-! ## Performing an access -/

/-- How an access ends. -/
inductive Perf where
  | done
  /-- It cannot go yet, for want of room. -/
  | busy
  | wait (w : WaitKind)
  | cause (c : Cause) (level : Nat)
  | badVa
deriving DecidableEq, Repr

/-- Global address of an access. -/
def Access.va : Access → Nat
  | .load va _ _ | .nfLoad va _ _ _ | .store va _ | .amo va _ _ _ _ _ | .cpy va _ _ _ | .fetch _ va _ | .task va _ => va.toNat
  | _ => 0

/-- Registers that a recorded access targets (R92). -/
def Access.targets : Access → List Nat
  | .load _ n d | .nfLoad _ n d _ | .sload _ n d => regSpan d ((n + 3) / 4)
  | .amo _ fn _ d _ _ | .samo _ fn _ d _ _ => regSpan d (amoWidth fn / 4)
  | .ldlk _ d _ _ => [d]
  | _ => []

/-- Predicates that a recorded access targets. -/
def Access.predTargets : Access → List Nat
  | .nfLoad _ _ _ pk => [pk]
  | _ => []

/-- The release scope of an access, when its ordering releases (R200). -/
def Access.relScope : Access → Option Nat
  | .amo _ _ _ _ o sc | .samo _ _ _ _ o sc | .ldlk _ _ o sc | .stul _ _ o sc => if o / 2 % 2 = 1 then some sc else none
  | _ => none

/-- The access acquires (R200). -/
def Access.acquires : Access → Bool
  | .amo _ _ _ _ o _ | .samo _ _ _ _ o _ | .ldlk _ _ o _ | .stul _ _ o _ => o % 2 = 1
  | _ => false

/-- A load in flight. -/
def InFlight.of (r : ThreadRef) (d : Nat) (ws : List Word) : InFlight := ⟨r, d, ws, none, none, none, none⟩

/-- Put a load in flight (R57). -/
def State.addLoad (s : State) (core : Nat) (l : InFlight) : State := s.updCore core fun c => { c with loads := c.loads ++ [l] }

/-- Register words of a loaded byte string, zero-extended (R326). -/
def loadWords (bs : List Byte) : List Word :=
  if bs.length < 4 then [BitVec.ofNat 32 (leNat bs)] else wordsOf bs (bs.length / 4)

/-- Send a remote access (R265): READ, WRITE or ATOMIC under the context's NTAG. -/
def State.sendRemote (s : State) (core : Nat) (r : ThreadRef) (ctx dev wa : Nat) (acc : Access) (type fn : Nat)
    (payload : List Byte) : State × Nat :=
  let (s, tx) := s.takeTx
  let tag := ((s.ctx? ctx).map fun k => k.ntag.toNat).getD 0
  let s := s.sendFrame ⟨dev, 0, 0, type, 0, 0, tag, 0, wa, tx, fn, 0⟩ payload
  ({ s with remotes := s.remotes ++ [⟨tx, core, r, dev, wa, acc, true, (s.core core).cyc⟩] }, tx)

/-- An access of the core to a line that n bytes at a device touch has no answer yet: frames are delivered in any order, so an
access to the same bytes waits for it (R206, R208). -/
def State.peerBusy (s : State) (core dev wa n : Nat) : Bool :=
  s.remotes.any fun q => q.core = core && q.dev = dev && q.wa / 64 * 64 < wa + n && wa < (q.wa / 64 + 1) * 64

/-- A copy of the thread has still to read some of the n bytes at an address: a later write of these bytes waits (R206). -/
def State.copyReads (s : State) (r : ThreadRef) (core va n : Nat) : Bool :=
  (s.core core).copies.any fun c => c.ref = r && c.ga.toNat < va + n && va < c.ga.toNat + c.k

/-- How a load of a peer's bytes goes (R193, R194): L1 or the store queue gives them, or an earlier access of the core to them
has no answer yet, or the whole line is read at the peer. -/
inductive PeerRead where
  | value (bs : List Byte)
  | wait
  | ask
deriving DecidableEq, Repr

/-- Where a load of n bytes of a peer finds them. -/
def State.peerRead (s : State) (core ctx va dev wa n : Nat) : PeerRead :=
  match (s.core core).l1Line? ctx (va / 64 * 64), s.queuedBytes core ctx va n with
  | some ln, _ => .value (s.layQueue core ctx va (.peer dev wa) ((ln.data.drop (va % 64)).take n))
  | none, some bs => .value bs
  | none, none => if s.peerBusy core dev wa n then .wait else .ask

/-- A plain load of size bytes. -/
def State.doLoad (s : State) (r : ThreadRef) (tm : Team) (va : DWord) (size d : Nat) : State × Perf :=
  match s.translate tm.core tm.ctx va.toNat .load with
  | (s, .badVa) => (s, .badVa)
  | (s, .wait) => (s, .busy)
  | (s, .cause c l) => (s, .cause c l)
  | (s, .home (.peer dev wa)) =>
    match s.peerRead tm.core tm.ctx va.toNat dev wa size with
    | .value bs => (s.addLoad tm.core (InFlight.of r d (loadWords bs)), .done)
    | .wait => (s, .busy)
    | .ask =>
      if s.reachable dev then
        let (s, tx) := s.sendRemote tm.core r tm.ctx dev (wa / 64 * 64) (.load va size d) 2 0 (leBytes 64 2)
        (s.addLoad tm.core ⟨r, d, List.replicate ((size + 3) / 4) 0, none, none, some tx, some va.toNat⟩, .done)
      else (s.noPort dev, .cause cREMOTE_TIMEOUT 0)
  | (s, .home h) =>
    if ((s.core tm.core).l1Line? tm.ctx (va.toNat / 64 * 64)).isNone && s.eccAt h.lineOf 64 then (s, .cause cECC_UNCORR 0)
    else
      let (s, bs) := s.loadBytes tm.core tm.ctx va.toNat h size
      (s.addLoad tm.core (InFlight.of r d (loadWords bs)), .done)

/-- A non-faulting load (R218, R328). -/
def State.doNfLoad (s : State) (r : ThreadRef) (tm : Team) (va : DWord) (size d pk : Nat) : State × Perf :=
  let none_ : InFlight := ⟨r, d, List.replicate (size / 4) 0, some (pk, false), none, none, none⟩
  let got (bs : List Byte) : InFlight := ⟨r, d, loadWords bs, some (pk, true), none, none, none⟩
  match s.translateNf tm.core tm.ctx va.toNat with
  | (s, .wait) => (s, .busy)
  | (s, .home (.peer dev wa)) =>
    match s.peerRead tm.core tm.ctx va.toNat dev wa size with
    | .value bs => (s.addLoad tm.core (got bs), .done)
    | .wait => (s, .busy)
    | .ask =>
      if s.reachable dev then
        let (s, tx) := s.sendRemote tm.core r tm.ctx dev (wa / 64 * 64) (.nfLoad va size d pk) 2 0 (leBytes 64 2)
        (s.addLoad tm.core { none_ with txid := some tx, va := some va.toNat }, .done)
      else ((s.noPort dev).addLoad tm.core none_, .done)
  | (s, .home h) =>
    if ((s.core tm.core).l1Line? tm.ctx (va.toNat / 64 * 64)).isNone && s.eccAt h.lineOf 64 then (s, .cause cECC_UNCORR 0)
    else
      let (s, bs) := s.loadBytes tm.core tm.ctx va.toNat h size
      (s.addLoad tm.core (got bs), .done)
  | (s, _) => (s.addLoad tm.core none_, .done)

/-- Queue a write at a home and count it (R193, R196). -/
def State.queueStore (s : State) (r : ThreadRef) (tm : Team) (va : Nat) (h : Home) (data : List Byte) (txid : Option Nat) : State :=
  let s := s.updCore tm.core fun c =>
    let c := c.l1Store tm.ctx va data
    { c with storeq := c.storeq ++ [⟨r, tm.ctx, va, h, data, false, txid⟩] }
  s.updThread r fun th => th.countUp h.ackKind

/-- A write or atomic would pass the 1,024 that %ACKN counts (R196). -/
def State.acknFull (s : State) (r : ThreadRef) : Bool := ((s.thread? r).map fun th => decide (1024 <= th.ackAll)).getD false

/-- A global store. -/
def State.doStore (s : State) (r : ThreadRef) (tm : Team) (va : DWord) (data : List Byte) : State × Perf :=
  if s.acknFull r || s.copyReads r tm.core va.toNat data.length then (s, .busy) else
  match s.translate tm.core tm.ctx va.toNat .store with
  | (s, .badVa) => (s, .badVa)
  | (s, .wait) => (s, .busy)
  | (s, .cause c l) => (s, .cause c l)
  | (s, .home (.peer dev wa)) =>
    if s.peerBusy tm.core dev wa data.length then (s, .busy)
    else if s.reachable dev then
      let (s, tx) := s.sendRemote tm.core r tm.ctx dev wa (.store va data) 3 0 data
      (s.queueStore r tm va.toNat (.peer dev wa) data (some tx), .done)
    else ((s.noPort dev).updThread r fun th => { th with nackPending := true }, .done)
  | (s, .home h) =>
    let s := s.sluiceCount tm.core tm.ctx va.toNat h true
    (s.queueStore r tm va.toNat h data none, .done)

/-- A global atomic, after its release (R330): at the home, indivisibly, once the core's queued writes there are
performed; the response is the acknowledgement.  The core's own line there is evicted, so that a later load of the thread sees
the atomic (R206). -/
def State.doAmo (s : State) (r : ThreadRef) (tm : Team) (va : DWord) (fn : Nat) (ops : List Word) (d o sc : Nat) : State × Perf :=
  let n := amoWidth fn
  if s.acknFull r || s.copyReads r tm.core va.toNat n then (s, .busy) else
  match s.translate tm.core tm.ctx va.toNat .store with
  | (s, .badVa) => (s, .badVa)
  | (s, .wait) => (s, .busy)
  | (s, .cause c l) => (s, .cause c l)
  | (s, .home (.peer dev wa)) =>
    if s.peerBusy tm.core dev wa n then (s, .busy)
    else if s.reachable dev then
      let (s, tx) := s.sendRemote tm.core r tm.ctx dev wa (.amo va fn ops d o sc) 4 fn (bytesOf ops)
      let s := s.addLoad tm.core ⟨r, d, List.replicate (n / 4) 0, none, some (.dev dev), some tx, some va.toNat⟩
      let s := s.invalidateRanges tm.core tm.ctx [(va, n)]
      (s.updThread r fun th => th.countUp (.dev dev), .done)
    else (s.noPort dev, .cause cREMOTE_TIMEOUT 0)
  | (s, .home h) =>
    if (s.core tm.core).storeq.any fun q => !q.done && q.overlaps h n then (s, .busy)
    else if s.eccAt h n then (s, .cause cECC_UNCORR 0)
    else
      let s := s.invalidateRanges tm.core tm.ctx [(va, n)]
      let s := s.sluiceCount tm.core tm.ctx va.toNat h true
      let old := s.homeRead h n
      let s := (s.homeWrite h (amoBytes fn old ops)).dropReplicas tm.ctx va.toNat
      let s := s.addLoad tm.core ⟨r, d, wordsOf old (n / 4), none, some h.ackKind, none, some va.toNat⟩
      (s.updThread r fun th => th.countUp h.ackKind, .done)

/-- A scratch load. -/
def State.doSload (s : State) (r : ThreadRef) (tm : Team) (sa : Word) (size d : Nat) : State × Perf :=
  match s.resolveScratch tm sa size with
  | .cause c => (s, .cause c 0)
  | .wait => (s, .busy)
  | .at_ core off remote =>
    let busy := if remote then (s.core tm.core).remoteBusy core off size else (s.core core).rangeBusy off size
    if busy then (s, .busy)
    else (s.addLoad tm.core (InFlight.of r d (wordsOf ((s.core core).scratch.readBytes off size) (size / 4))), .done)

/-- A scratch store: at the own core's bank at once; to another core of the cluster, counted (R327). -/
def State.doSstore (s : State) (r : ThreadRef) (tm : Team) (sa : Word) (data : List Byte) : State × Perf :=
  match s.resolveScratch tm sa data.length with
  | .cause c => (s, .cause c 0)
  | .wait => (s, .busy)
  | .at_ core off remote =>
    if remote then
      if s.acknFull r then (s, .busy)
      else
        let s := s.updCore tm.core fun c => { c with
          storeq := c.storeq ++ [⟨r, tm.ctx, sa.toNat, .scratch core off, data, false, none⟩] }
        (s.updThread r fun th => th.countUp .scr, .done)
    else if (s.core core).rangeBusy off data.length then (s, .busy)
    else (s.homeWrite (.scratch core off) data, .done)

/-- The 256-byte blocks of an object that n bytes at an offset of its core touch. -/
def Obj.blocks (ob : Obj) (off n : Nat) : List Nat :=
  (List.range (n / 256 + 2)).filterMap fun i =>
    let b := (off - ob.base) / 256 + i
    if b * 256 + ob.base < off + n && b * 256 < ob.size then some b else none

/-- Bytes of the object that a scratch write touches are dirty for its mirror (R177). -/
def State.markDirty (s : State) (core off n : Nat) : State :=
  { s with objs := s.objs.map fun (ob : Obj) =>
      if ob.holder = core && ob.mirror.isSome && ob.base < off + n && off < ob.base + ob.size then
        { ob with dirty := ob.dirty ++ (ob.blocks off n).filter fun b => !ob.dirty.contains b }
      else ob }

/-- LOCK_NEST for a word on a lock bit (R332). -/
def State.nests (s : State) (r : ThreadRef) (core : Nat) (lk : Nat × Nat) (acc : Access) : Bool :=
  let mine : Bool := s.lockHolder core lk = some r
  match acc with
  | .stul _ _ _ _ => !mine
  | .ldlk _ _ _ _ => mine || 4 <= s.locksHeld r
  | .samo _ _ _ _ _ _ => mine
  | _ => false

/-- The lock word raises LOCK_NEST at issue, before any release that its ordering asks for (R332). -/
def State.nestsAtIssue (s : State) (r : ThreadRef) (acc : Access) : Bool :=
  match acc, s.team? r.team with
  | .stul sa _ _ _, some tm | .ldlk sa _ _ _, some tm | .samo sa _ _ _ _ _, some tm =>
    match s.resolveScratch tm sa 4 with
    | .at_ core off _ => s.nests r core (lockOf sa off) acc
    | _ => false
  | _, _ => false

/-- SAMO, LDLK or STUL under its lock bit (R332), after its release.  Like every atomic it counts in %ACKN until its response
lands (R196). -/
def State.doLock (s : State) (r : ThreadRef) (tm : Team) (sa : Word) (acc : Access) (width : Nat) : State × Perf :=
  match s.resolveScratch tm sa width with
  | .cause c => (s, .cause c 0)
  | .wait => (s, .busy)
  | .at_ core off remote =>
    let lk := lockOf sa off
    let holder := s.lockHolder core lk
    if s.nests r core lk acc then (s, .cause cLOCK_NEST 0)
    else if holder.isSome && holder != some r then (s, .wait .lock)
    else if s.acknFull r then (s, .busy)
    else if (if remote then (s.core tm.core).remoteBusy core off width else (s.core core).rangeBusy off width) then
      (s, .busy)
    else
      let old := (s.core core).scratch.readBytes off width
      let ak := if remote then AckKind.scr else AckKind.host
      let answer (s : State) (d : Nat) (ws : List Word) : State :=
        (s.addLoad tm.core ⟨r, d, ws, none, some ak, none, none⟩).updThread r fun th => th.countUp ak
      match acc with
      | .ldlk _ d _ _ =>
        let s := s.updCore core fun c => { c with locks := ⟨lk.1, lk.2, r⟩ :: c.locks }
        (answer s d (wordsOf old 1), .done)
      | .stul _ v _ _ =>
        let s := s.updCore core fun c => { c with
          scratch := c.scratch.writeBytes off (leBytes v.toNat 4)
          locks := c.locks.filter fun q => !(q.bank = lk.1 && q.ix = lk.2) }
        let s := s.markDirty core off 4
        (answer s 0 [], .done)
      | .samo _ fn ops d _ _ =>
        let s := s.updCore core fun c => { c with scratch := c.scratch.writeBytes off (amoBytes fn old ops) }
        let s := s.markDirty core off width
        (answer s d (wordsOf old (width / 4)), .done)
      | _ => (s, .done)

/-- A copy starts (R334): it is counted under its tag and takes its range. -/
def State.doCpy (s : State) (r : ThreadRef) (tm : Team) (ga : DWord) (sa : Word) (k tag : Nat) : State × Perf :=
  match s.resolveScratch tm sa 32 with
  | .cause c => (s, .cause c 0)
  | .wait => (s, .busy)
  | .at_ core off _ =>
    let n := ((s.thread? r).map fun th => th.cnt.getD tag 0).getD 0
    if 63 <= n then (s, .busy)
    else match (s.core core).takeRange off 32 true with
      | none => (s, .busy)
      | some co =>
        let s := s.updCore core fun _ => { co with copies := co.copies ++ [⟨r, tag, ga, off, k, none, false, none, [], false⟩] }
        (s.updThread r fun th => { th with cnt := th.cnt.set tag (n + 1) }, .done)

/-- The FENCE.ACQ after an atomic (R200): at once, or when the thread's remote loads and atomics have their answers; until then
no later word of the thread issues (R198). -/
def State.acquireAfter (s : State) (r : ThreadRef) : State :=
  if s.remoteLoads r then s.updThread r fun th => { th with acq := true } else s.acquireAll r

/-- Perform an access as newly issued (R94), its release already done. -/
def State.perform (s : State) (r : ThreadRef) (acc : Access) : State × Perf :=
  match s.team? r.team with
  | none => (s, .done)
  | some tm =>
    let (s, p) := match acc with
      | .load va size d => s.doLoad r tm va size d
      | .nfLoad va size d pk => s.doNfLoad r tm va size d pk
      | .store va data => s.doStore r tm va data
      | .amo va fn ops d o sc => s.doAmo r tm va fn ops d o sc
      | .sload sa size d => s.doSload r tm sa size d
      | .sstore sa data =>
        let (s', p) := s.doSstore r tm sa data
        match p, s.resolveScratch tm sa data.length with
        | .done, .at_ core off _ => (s'.markDirty core off data.length, p)
        | _, _ => (s', p)
      | .samo sa fn _ _ _ _ => s.doLock r tm sa acc (amoWidth fn)
      | .ldlk sa _ _ _ => s.doLock r tm sa acc 4
      | .stul sa _ _ _ => s.doLock r tm sa acc 4
      | .cpy ga sa k tag => s.doCpy r tm ga sa k tag
      | .fetch _ _ _ | .task _ _ => (s, .done)
    match p with
    | .done => (if acc.acquires then s.acquireAfter r else s, p)
    | .busy => (s, .wait (.room (.access acc)))
    | _ => (s, p)

/-- Access kinds of a page-request record (R220). -/
def Access.kinds : Access → Nat
  | .store _ _ => 2
  | .amo _ _ _ _ _ _ => 3
  | .cpy _ _ _ _ => 8
  | .fetch _ _ _ => 4
  | _ => 1

/-- PAGE_ABSENT is in PARK mode for the team's context. -/
def State.parksAbsent (s : State) (tm : Team) : Bool := s.modeOf tm cPAGE_ABSENT = 0

/-- A remote cause parks first: the access heads the record, and firmware delivers the cause by its mode (R107, R265).  The entry counts
as one whose replay met the cause: INREC is set, and the entry is dropped when the handler is entered (R110, R111; DESIGN CHOICE, log
entry 93). -/
def State.remoteCause (s : State) (r : ThreadRef) (acc : Access) (c : Cause) : State :=
  (s.updThread r fun th => { th.park c (((s.team? r.team).map fun t => (s.core t.core).cyc).getD 0) with
    record := acc :: th.record }).deliver r c true

/-- What an access that met a cause does to its thread at issue: a PARK cause makes it entry 0 of the record and opens a
request (R92, R219); a non-canonical address is refused at once; the others are delivered (R325). -/
def State.meetCause (s : State) (r : ThreadRef) (acc : Access) (c : Cause) (level : Nat) (bad : Bool) : State :=
  match s.team? r.team with
  | none => s
  | some tm =>
    if c = cPAGE_ABSENT && s.parksAbsent tm then
      let s := s.setCause r.team (r.tid / 32) c
      if bad then s.killTeam r.team c (some r)
      else
        (s.updThread r fun th => { th with record := th.record ++ [acc], recCause := c }).openRequest
          tm.ctx acc.va acc.kinds tm.core level
    else if c = cREMOTE_TIMEOUT || c = cREMOTE_FAULT then s.remoteCause r acc c
    else s.raise r c

/-! ## Mirrors and the release part of a word -/

/-- Dirty blocks of the mirrored objects that a team has open (R177). -/
def State.dirtyBlocks (s : State) (tm : Team) : List (Obj × Nat) :=
  (s.objs.filter fun ob => ob.ctx = tm.ctx && ob.mirror.isSome && tm.opens.any fun o => o.name = ob.name && !o.lost && !o.handed).flatMap
    fun ob => ob.dirty.map fun b => (ob, b)

/-- One block of an object as it stands in its holder's scratch. -/
def State.objBlock (s : State) (ob : Obj) (b : Nat) : List Byte :=
  (s.core ob.holder).scratch.readBytes (ob.base + 256 * b) 256

/-- Park a thread at the word being issued: it holds a record, or waits for a page. -/
def State.parkAtWord (s : State) (r : ThreadRef) (c : Cause) : State :=
  (s.updThread r fun th => th.park c (s.core s.issue.core).cyc).leaveBundle r

/-- Write one block to an address of the context, performed at once; a fault is delivered as a store's is (R177), and a
thread that recorded the store parks.  The answer tells whether the block was written. -/
def State.mirrorBlock (s : State) (r : ThreadRef) (tm : Team) (va : DWord) (data : List Byte) : State × Bool :=
  let fail (s : State) (c : Cause) (l : Nat) (bad : Bool) : State × Bool :=
    let s := s.meetCause r (.store va data) c l bad
    (match s.thread? r with
      | some th => if th.record.isEmpty || th.status != .ready then s else s.parkAtWord r c
      | none => s, false)
  if s.acknFull r then (s.block r (.room (.mirror va)), false) else
  match s.translate tm.core tm.ctx va.toNat .store with
  | (s, .badVa) => fail s cPAGE_ABSENT 0 true
  | (s, .wait) => (s.block r (.room (.mirror va)), false)
  | (s, .cause c l) => fail s c l false
  | (s, .home (.peer dev wa)) =>
    if s.peerBusy tm.core dev wa data.length then (s.block r (.room (.mirror va)), false)
    else if s.reachable dev then
      let q := s.sendRemote tm.core r tm.ctx dev wa (.store va data) 3 0 data
      (q.1.queueStore r tm va.toNat (.peer dev wa) data (some q.2), true)
    else ((s.noPort dev).updThread r fun th => { th with nackPending := true }, true)
  | (s, .home h) =>
    if (s.core tm.core).storeq.any fun q => !q.done && q.overlaps h data.length then (s.block r (.room (.mirror va)), false)
    else
      let s := (s.updCore tm.core fun c => c.l1Store tm.ctx va.toNat data).sluiceCount tm.core tm.ctx va.toNat h true
      ((s.homeWrite h data).dropReplicas tm.ctx va.toNat, true)

/-- Write dirty blocks one after another until one does not go (R177). -/
def State.mirrorBlocks (s : State) (r : ThreadRef) (tm : Team) : List (Obj × Nat) → State × Bool
  | [] => (s, true)
  | (ob, b) :: rest =>
    let q := s.mirrorBlock r tm (BitVec.ofNat 64 (ob.mirror.getD 0 + 256 * b)) (s.objBlock ob b)
    if q.2 then (q.1.updObj ob.ctx ob.name fun o => { o with dirty := o.dirty.filter (· != b) }).mirrorBlocks r tm rest
    else (q.1, false)

/-- A release that writes no mirror: wait, or raise STORE_NACK once (R197), or go on. -/
def State.releaseBare (s : State) (r : ThreadRef) (scope : Nat) (k : State → State) : State :=
  if !s.releaseDone r scope then s.block r (.release scope)
  else if ((s.thread? r).map Thread.nackPending).getD false then
    (s.updThread r fun th => { th with nackPending := false }).raise r cSTORE_NACK
  else k s

/-- The release part of a word (R195, R177): at team scope or wider the mirrors of the team's open objects are written
before the word goes on, which waits for those writes as for earlier ones. -/
def State.release (s : State) (r : ThreadRef) (scope : Nat) (k : State → State) : State :=
  s.releaseBare r scope fun s =>
    match s.team? r.team with
    | none => k s
    | some tm =>
      if scope = 0 then k s
      else match s.dirtyBlocks tm with
        | [] => k s
        | b :: bs =>
          let q := s.mirrorBlocks r tm (b :: bs)
          if q.2 then q.1.releaseBare r scope k else q.1

/-- Issue an access of a thread: append to a non-empty record, or perform it, or meet its cause (R325, R327). -/
def State.issueAccess (s : State) (r : ThreadRef) (acc : Access) : State :=
  match s.thread? r with
  | none => s
  | some th =>
    if !th.record.isEmpty then s.updThread r fun th => { th with record := th.record ++ [acc] }
    else
      let go (s : State) : State :=
        match s.perform r acc with
        | (s, .done) | (s, .busy) => s
        | (s, .wait w) => s.block r w
        | (s, .cause c l) => s.meetCause r acc c l false
        | (s, .badVa) => s.meetCause r acc cPAGE_ABSENT 0 true
      if s.nestsAtIssue r acc then s.raise r cLOCK_NEST
      else match acc.relScope with
        | some sc => s.release r sc go
        | none => go s

/-- The checks that come before recording: ALIGN, then SCRATCH_RANGE.  The loss of a member's core is met when the access is
performed (R325). -/
def State.scratchCheck (s : State) (r : ThreadRef) (sa : Word) (n : Nat) (k : State → State) : State :=
  match s.team? r.team with
  | none => s
  | some tm =>
    match s.resolveScratch tm sa n with
    | .cause c => if c = cMEMORY_LOST then k s else s.raise r c
    | _ => k s

/-- Issue a global access of a size: ALIGN first. -/
def State.issueGlobal (s : State) (r : ThreadRef) (ea : DWord) (size : Nat) (acc : Access) : State :=
  if ea.toNat % size != 0 then s.raise r cALIGN else s.issueAccess r acc

/-- Issue a scratch access of a size: ALIGN, then SCRATCH_RANGE. -/
def State.issueScratch (s : State) (r : ThreadRef) (sa : Word) (size : Nat) (acc : Access) : State :=
  if sa.toNat % size != 0 then s.raise r cALIGN else s.scratchCheck r sa size fun s => s.issueAccess r acc

/-- off9 of a format M word, with what REP adds to it at full width (R64). -/
def State.off9 (s : State) (off : BitVec 9) : Int := off.toInt + s.issue.bump

/-- The effective address of a format M global access (R322). -/
def Thread.ea (th : Thread) (a : Nat) (off : Int) (size : Nat) : DWord :=
  th.pair a + BitVec.ofInt 64 (off * size)

/-- The scratch address of a format M scratch access (R326). -/
def Thread.sea (th : Thread) (a : Nat) (off : Int) (size : Nat) : Word :=
  th.reg a + BitVec.ofInt 32 (off * size)

end Sys2Proof.Machine
end

