-- ==== Sys2Proof/Machine/Memory.lean ====
section
/-!
DEFINITION. Memory, atomic and copy instructions (R322 to R337).
-/
namespace Sys2Proof.Machine

/-- Act with a thread that exists. -/
def State.withThread (s : State) (r : ThreadRef) (f : Thread → State) : State :=
  match s.thread? r with
  | some th => f th
  | none => s

/-- A plain global load (R326, R327). -/
def loadWord (i : Instr) (p : Nat) (d a : BitVec 6) (off : BitVec 9) (n : Nat) (st : State) : Res :=
  predWord i p (fun s r => s.withThread r fun th =>
    s.issueGlobal r (th.ea a.toNat (s.off9 off) n) n (.load (th.ea a.toNat (s.off9 off) n) n d.toNat)) st

/-- A plain global store (R326, R327). -/
def storeWord (i : Instr) (p : Nat) (d a : BitVec 6) (off : BitVec 9) (n : Nat) (st : State) : Res :=
  predWord i p (fun s r => s.withThread r fun th =>
    s.issueGlobal r (th.ea a.toNat (s.off9 off) n) n
      (.store (th.ea a.toNat (s.off9 off) n) ((bytesOf (th.regsFrom d.toNat ((n + 3) / 4))).take n))) st

/-- A non-faulting load (R328). -/
def nfWord (i : Instr) (d a : BitVec 6) (q : BitVec 3) (off : BitVec 9) (n : Nat) (st : State) : Res :=
  predWord i 0 (fun s r => s.withThread r fun th =>
    s.issueGlobal r (th.ea a.toNat (s.off9 off) n) n (.nfLoad (th.ea a.toNat (s.off9 off) n) n d.toNat q.toNat)) st

/-- A scratch load (R326, R327). -/
def sloadWord (i : Instr) (p : Nat) (d a : BitVec 6) (off : BitVec 9) (n : Nat) (st : State) : Res :=
  predWord i p (fun s r => s.withThread r fun th =>
    s.issueScratch r (th.sea a.toNat (s.off9 off) n) n (.sload (th.sea a.toNat (s.off9 off) n) n d.toNat)) st

/-- A scratch store (R326, R327). -/
def sstoreWord (i : Instr) (p : Nat) (d a : BitVec 6) (off : BitVec 9) (n : Nat) (st : State) : Res :=
  predWord i p (fun s r => s.withThread r fun th =>
    s.issueScratch r (th.sea a.toNat (s.off9 off) n) n (.sstore (th.sea a.toNat (s.off9 off) n) (bytesOf (th.regsFrom d.toNat (n / 4))))) st

/-- A global atomic of function fn (R329, R330). -/
def amoWord (i : Instr) (p fn : Nat) (d a : BitVec 6) (o : BitVec 2) (sc : BitVec 3) (st : State) : Res :=
  predWord i p (fun s r => s.withThread r fun th =>
    s.issueGlobal r (th.pair a.toNat) (amoWidth fn)
      (.amo (th.pair a.toNat) fn (th.regsFrom d.toNat (amoRegs fn)) d.toNat o.toNat sc.toNat)) st

/-- A scratch atomic of function fn (R332). -/
def samoWord (i : Instr) (p fn : Nat) (d a : BitVec 6) (o : BitVec 2) (sc : BitVec 3) (st : State) : Res :=
  predWord i p (fun s r => s.withThread r fun th =>
    s.issueScratch r (th.reg a.toNat) (amoWidth fn)
      (.samo (th.reg a.toNat) fn (th.regsFrom d.toNat (amoRegs fn)) d.toNat o.toNat sc.toNat)) st

/-- Issue a copy: ALIGN, then SCRATCH_RANGE, then the record or the copy (R334). -/
def State.issueCpy (s : State) (r : ThreadRef) (ga : DWord) (sa : Word) (k tag : Nat) : State :=
  if ga.toNat % 4 != 0 || sa.toNat % 32 != 0 then s.raise r cALIGN
  else if sa.getLsbD 25 then s.raise r cSCRATCH_RANGE
  else s.scratchCheck r sa 32 fun s => s.issueAccess r (.cpy ga sa k tag)

/-- LDB (R327).  -/
def execLdb (c : Bool) (d : BitVec 6) (a : BitVec 6) (p : BitVec 3) (i : BitVec 9) (st : State) : Res :=
  loadWord (.ldb c d a p i) p.toNat d a i 1 st

/-- LDH (R327).  -/
def execLdh (c : Bool) (d : BitVec 6) (a : BitVec 6) (p : BitVec 3) (i : BitVec 9) (st : State) : Res :=
  loadWord (.ldh c d a p i) p.toNat d a i 2 st

/-- LDW (R327).  -/
def execLdw (c : Bool) (d : BitVec 6) (a : BitVec 6) (p : BitVec 3) (i : BitVec 9) (st : State) : Res :=
  loadWord (.ldw c d a p i) p.toNat d a i 4 st

/-- LDD (R327).  -/
def execLdd (c : Bool) (d : BitVec 6) (a : BitVec 6) (p : BitVec 3) (i : BitVec 9) (st : State) : Res :=
  loadWord (.ldd c d a p i) p.toNat d a i 8 st

/-- LDQ (R327).  -/
def execLdq (c : Bool) (d : BitVec 6) (a : BitVec 6) (p : BitVec 3) (i : BitVec 9) (st : State) : Res :=
  loadWord (.ldq c d a p i) p.toNat d a i 16 st

/-- STB (R327).  -/
def execStb (c : Bool) (d : BitVec 6) (a : BitVec 6) (p : BitVec 3) (i : BitVec 9) (st : State) : Res :=
  storeWord (.stb c d a p i) p.toNat d a i 1 st

/-- STH (R327).  -/
def execSth (c : Bool) (d : BitVec 6) (a : BitVec 6) (p : BitVec 3) (i : BitVec 9) (st : State) : Res :=
  storeWord (.sth c d a p i) p.toNat d a i 2 st

/-- STW (R327).  -/
def execStw (c : Bool) (d : BitVec 6) (a : BitVec 6) (p : BitVec 3) (i : BitVec 9) (st : State) : Res :=
  storeWord (.stw c d a p i) p.toNat d a i 4 st

/-- STD (R327).  -/
def execStd (c : Bool) (d : BitVec 6) (a : BitVec 6) (p : BitVec 3) (i : BitVec 9) (st : State) : Res :=
  storeWord (.std c d a p i) p.toNat d a i 8 st

/-- STQ (R327).  -/
def execStq (c : Bool) (d : BitVec 6) (a : BitVec 6) (p : BitVec 3) (i : BitVec 9) (st : State) : Res :=
  storeWord (.stq c d a p i) p.toNat d a i 16 st

/-- LDWN (R328). It has no guard; q is the predicate it writes. -/
def execLdwn (c : Bool) (d : BitVec 6) (a : BitVec 6) (q : BitVec 3) (i : BitVec 9) (st : State) : Res :=
  nfWord (.ldwn c d a q i) d a q i 4 st

/-- LDQN (R328). It has no guard; q is the predicate it writes. -/
def execLdqn (c : Bool) (d : BitVec 6) (a : BitVec 6) (q : BitVec 3) (i : BitVec 9) (st : State) : Res :=
  nfWord (.ldqn c d a q i) d a q i 16 st

/-- LSW (R327).  -/
def execLsw (c : Bool) (d : BitVec 6) (a : BitVec 6) (p : BitVec 3) (i : BitVec 9) (st : State) : Res :=
  sloadWord (.lsw c d a p i) p.toNat d a i 4 st

/-- LSQ (R327).  -/
def execLsq (c : Bool) (d : BitVec 6) (a : BitVec 6) (p : BitVec 3) (i : BitVec 9) (st : State) : Res :=
  sloadWord (.lsq c d a p i) p.toNat d a i 16 st

/-- SSW (R327).  -/
def execSsw (c : Bool) (d : BitVec 6) (a : BitVec 6) (p : BitVec 3) (i : BitVec 9) (st : State) : Res :=
  sstoreWord (.ssw c d a p i) p.toNat d a i 4 st

/-- SSQ (R327).  -/
def execSsq (c : Bool) (d : BitVec 6) (a : BitVec 6) (p : BitVec 3) (i : BitVec 9) (st : State) : Res :=
  sstoreWord (.ssq c d a p i) p.toNat d a i 16 st

/-- AMO_ADD (R330).  -/
def execAmoAdd (c : Bool) (d : BitVec 6) (a : BitVec 6) (o : BitVec 2) (s : BitVec 3) (p : BitVec 2) (st : State) : Res :=
  amoWord (.amoAdd c d a o s p) p.toNat 0 d a o s st

/-- AMO_AND (R330).  -/
def execAmoAnd (c : Bool) (d : BitVec 6) (a : BitVec 6) (o : BitVec 2) (s : BitVec 3) (p : BitVec 2) (st : State) : Res :=
  amoWord (.amoAnd c d a o s p) p.toNat 1 d a o s st

/-- AMO_OR (R330).  -/
def execAmoOr (c : Bool) (d : BitVec 6) (a : BitVec 6) (o : BitVec 2) (s : BitVec 3) (p : BitVec 2) (st : State) : Res :=
  amoWord (.amoOr c d a o s p) p.toNat 2 d a o s st

/-- AMO_XOR (R330).  -/
def execAmoXor (c : Bool) (d : BitVec 6) (a : BitVec 6) (o : BitVec 2) (s : BitVec 3) (p : BitVec 2) (st : State) : Res :=
  amoWord (.amoXor c d a o s p) p.toNat 3 d a o s st

/-- AMO_MIN (R330).  -/
def execAmoMin (c : Bool) (d : BitVec 6) (a : BitVec 6) (o : BitVec 2) (s : BitVec 3) (p : BitVec 2) (st : State) : Res :=
  amoWord (.amoMin c d a o s p) p.toNat 4 d a o s st

/-- AMO_MAX (R330).  -/
def execAmoMax (c : Bool) (d : BitVec 6) (a : BitVec 6) (o : BitVec 2) (s : BitVec 3) (p : BitVec 2) (st : State) : Res :=
  amoWord (.amoMax c d a o s p) p.toNat 5 d a o s st

/-- AMO_UMIN (R330).  -/
def execAmoUmin (c : Bool) (d : BitVec 6) (a : BitVec 6) (o : BitVec 2) (s : BitVec 3) (p : BitVec 2) (st : State) : Res :=
  amoWord (.amoUmin c d a o s p) p.toNat 6 d a o s st

/-- AMO_UMAX (R330).  -/
def execAmoUmax (c : Bool) (d : BitVec 6) (a : BitVec 6) (o : BitVec 2) (s : BitVec 3) (p : BitVec 2) (st : State) : Res :=
  amoWord (.amoUmax c d a o s p) p.toNat 7 d a o s st

/-- AMO_XCHG (R330).  -/
def execAmoXchg (c : Bool) (d : BitVec 6) (a : BitVec 6) (o : BitVec 2) (s : BitVec 3) (p : BitVec 2) (st : State) : Res :=
  amoWord (.amoXchg c d a o s p) p.toNat 8 d a o s st

/-- AMO_CAS (R330).  -/
def execAmoCas (c : Bool) (d : BitVec 6) (a : BitVec 6) (o : BitVec 2) (s : BitVec 3) (p : BitVec 2) (st : State) : Res :=
  amoWord (.amoCas c d a o s p) p.toNat 9 d a o s st

/-- AMO_FADD (R330).  -/
def execAmoFadd (c : Bool) (d : BitVec 6) (a : BitVec 6) (o : BitVec 2) (s : BitVec 3) (p : BitVec 2) (st : State) : Res :=
  amoWord (.amoFadd c d a o s p) p.toNat 10 d a o s st

/-- AMO_BADD2 (R330).  -/
def execAmoBadd2 (c : Bool) (d : BitVec 6) (a : BitVec 6) (o : BitVec 2) (s : BitVec 3) (p : BitVec 2) (st : State) : Res :=
  amoWord (.amoBadd2 c d a o s p) p.toNat 11 d a o s st

/-- AMO_ADD64 (R330).  -/
def execAmoAdd64 (c : Bool) (d : BitVec 6) (a : BitVec 6) (o : BitVec 2) (s : BitVec 3) (p : BitVec 2) (st : State) : Res :=
  amoWord (.amoAdd64 c d a o s p) p.toNat 12 d a o s st

/-- AMO_XCHG64 (R330).  -/
def execAmoXchg64 (c : Bool) (d : BitVec 6) (a : BitVec 6) (o : BitVec 2) (s : BitVec 3) (p : BitVec 2) (st : State) : Res :=
  amoWord (.amoXchg64 c d a o s p) p.toNat 13 d a o s st

/-- AMO_CAS64 (R330).  -/
def execAmoCas64 (c : Bool) (d : BitVec 6) (a : BitVec 6) (o : BitVec 2) (s : BitVec 3) (p : BitVec 2) (st : State) : Res :=
  amoWord (.amoCas64 c d a o s p) p.toNat 14 d a o s st

/-- SAMO_ADD (R332).  -/
def execSamoAdd (c : Bool) (d : BitVec 6) (a : BitVec 6) (o : BitVec 2) (s : BitVec 3) (p : BitVec 2) (st : State) : Res :=
  samoWord (.samoAdd c d a o s p) p.toNat 0 d a o s st

/-- SAMO_AND (R332).  -/
def execSamoAnd (c : Bool) (d : BitVec 6) (a : BitVec 6) (o : BitVec 2) (s : BitVec 3) (p : BitVec 2) (st : State) : Res :=
  samoWord (.samoAnd c d a o s p) p.toNat 1 d a o s st

/-- SAMO_OR (R332).  -/
def execSamoOr (c : Bool) (d : BitVec 6) (a : BitVec 6) (o : BitVec 2) (s : BitVec 3) (p : BitVec 2) (st : State) : Res :=
  samoWord (.samoOr c d a o s p) p.toNat 2 d a o s st

/-- SAMO_XOR (R332).  -/
def execSamoXor (c : Bool) (d : BitVec 6) (a : BitVec 6) (o : BitVec 2) (s : BitVec 3) (p : BitVec 2) (st : State) : Res :=
  samoWord (.samoXor c d a o s p) p.toNat 3 d a o s st

/-- SAMO_MIN (R332).  -/
def execSamoMin (c : Bool) (d : BitVec 6) (a : BitVec 6) (o : BitVec 2) (s : BitVec 3) (p : BitVec 2) (st : State) : Res :=
  samoWord (.samoMin c d a o s p) p.toNat 4 d a o s st

/-- SAMO_MAX (R332).  -/
def execSamoMax (c : Bool) (d : BitVec 6) (a : BitVec 6) (o : BitVec 2) (s : BitVec 3) (p : BitVec 2) (st : State) : Res :=
  samoWord (.samoMax c d a o s p) p.toNat 5 d a o s st

/-- SAMO_UMIN (R332).  -/
def execSamoUmin (c : Bool) (d : BitVec 6) (a : BitVec 6) (o : BitVec 2) (s : BitVec 3) (p : BitVec 2) (st : State) : Res :=
  samoWord (.samoUmin c d a o s p) p.toNat 6 d a o s st

/-- SAMO_UMAX (R332).  -/
def execSamoUmax (c : Bool) (d : BitVec 6) (a : BitVec 6) (o : BitVec 2) (s : BitVec 3) (p : BitVec 2) (st : State) : Res :=
  samoWord (.samoUmax c d a o s p) p.toNat 7 d a o s st

/-- SAMO_XCHG (R332).  -/
def execSamoXchg (c : Bool) (d : BitVec 6) (a : BitVec 6) (o : BitVec 2) (s : BitVec 3) (p : BitVec 2) (st : State) : Res :=
  samoWord (.samoXchg c d a o s p) p.toNat 8 d a o s st

/-- SAMO_CAS (R332).  -/
def execSamoCas (c : Bool) (d : BitVec 6) (a : BitVec 6) (o : BitVec 2) (s : BitVec 3) (p : BitVec 2) (st : State) : Res :=
  samoWord (.samoCas c d a o s p) p.toNat 9 d a o s st

/-- SAMO_FADD (R332).  -/
def execSamoFadd (c : Bool) (d : BitVec 6) (a : BitVec 6) (o : BitVec 2) (s : BitVec 3) (p : BitVec 2) (st : State) : Res :=
  samoWord (.samoFadd c d a o s p) p.toNat 10 d a o s st

/-- SAMO_BADD2 (R332).  -/
def execSamoBadd2 (c : Bool) (d : BitVec 6) (a : BitVec 6) (o : BitVec 2) (s : BitVec 3) (p : BitVec 2) (st : State) : Res :=
  samoWord (.samoBadd2 c d a o s p) p.toNat 11 d a o s st

/-- SAMO_ADD64 (R332).  -/
def execSamoAdd64 (c : Bool) (d : BitVec 6) (a : BitVec 6) (o : BitVec 2) (s : BitVec 3) (p : BitVec 2) (st : State) : Res :=
  samoWord (.samoAdd64 c d a o s p) p.toNat 12 d a o s st

/-- SAMO_XCHG64 (R332).  -/
def execSamoXchg64 (c : Bool) (d : BitVec 6) (a : BitVec 6) (o : BitVec 2) (s : BitVec 3) (p : BitVec 2) (st : State) : Res :=
  samoWord (.samoXchg64 c d a o s p) p.toNat 13 d a o s st

/-- SAMO_CAS64 (R332).  -/
def execSamoCas64 (c : Bool) (d : BitVec 6) (a : BitVec 6) (o : BitVec 2) (s : BitVec 3) (p : BitVec 2) (st : State) : Res :=
  samoWord (.samoCas64 c d a o s p) p.toNat 14 d a o s st

/-- LDLK (R332).  -/
def execLdlk (c : Bool) (d : BitVec 6) (a : BitVec 6) (o : BitVec 2) (s : BitVec 3) (p : BitVec 2) (st : State) : Res :=
  predWord (.ldlk c d a o s p) p.toNat (fun st r => st.withThread r fun th =>
    st.issueScratch r (th.reg a.toNat) 4 (.ldlk (th.reg a.toNat) d.toNat o.toNat s.toNat)) st

/-- STUL (R332).  -/
def execStul (c : Bool) (d : BitVec 6) (a : BitVec 6) (o : BitVec 2) (s : BitVec 3) (p : BitVec 2) (st : State) : Res :=
  predWord (.stul c d a o s p) p.toNat (fun st r => st.withThread r fun th =>
    st.issueScratch r (th.reg a.toNat) 4 (.stul (th.reg a.toNat) (th.reg d.toNat) o.toNat s.toNat)) st

/-- CPY (R334).  -/
def execCpy (c : Bool) (a : BitVec 6) (s : BitVec 6) (n : BitVec 6) (t : BitVec 2) (p : BitVec 3) (st : State) : Res :=
  predWord (.cpy c a s n t p) p.toNat (fun st r => st.withThread r fun th => st.issueCpy r (th.pair a.toNat) (th.reg s.toNat)
    (satInt (th.reg n.toNat).toInt 0 32).toNat t.toNat) st

/-- CPW (R336).  -/
def execCpw (c : Bool) (t : BitVec 2) (n : BitVec 6) (st : State) : Res :=
  predWord (.cpw c t n) 0 (fun st r => st.withThread r fun th =>
    if n.toNat < th.cnt.getD t.toNat 0 then st.block r (.cpw t.toNat n.toNat)
    else if th.copyFault then (st.updThread r fun th => { th with copyFault := false }).raise r cCOPY_FAULT
    else st) st

end Sys2Proof.Machine
end

