-- ==== Sys2Proof/Machine/Sync.lean ====
section
/-!
DEFINITION. SYNC on team, cluster and grid objects (R181 to R191, R373, R374) and FENCE (R199, R375).
-/
namespace Sys2Proof.Machine

/-- The scope of an object's releases and acquires (R181). -/
def kindScope (o : Nat) : Nat := if o < 32 then 1 else if o < 48 then 2 else 4

/-- A SYNC word: SYNC_ERROR for a grid object of a REISSUE launch (R163), and for an UNINIT object but in INIT. -/
def syncWord (i : Instr) (p o : Nat) (f : State → ThreadRef → Team → Thread → SyncObj → State) (st : State) : Res :=
  let init := match i with
    | .syncInit _ _ _ _ _ => true
    | _ => false
  predWord i p (fun s r =>
    match s.thread? r, s.team? r.team with
    | some th, some tm =>
      let ob := s.syncObj tm o
      let reissue := ((s.launch? tm.launch).map fun l => l.recd.reissue).getD false
      if 48 <= o && reissue then s.raise r cSYNC_ERROR
      else if !init && ob.state = .uninit then s.raise r cSYNC_ERROR
      else f s r tm th ob
    | _, _ => s) st

/-- Write a result register of a SYNC. -/
def State.syncOut (s : State) (r : ThreadRef) (v : Nat) (x : Word) : State := s.updThread r fun th => th.setReg v x

/-- INIT (R184). -/
def State.syncInit (s : State) (r : ThreadRef) (tm : Team) (o : Nat) (ob : SyncObj) (v : Word) : State :=
  let n := v.toNat
  if n = 0 || 2 ^ 31 <= n then s.raise r cSYNC_ERROR
  else match ob.state with
    | .uninit => s.setSync tm o { ob with state := .active, exp := n, phase := 0 }
    | .active =>
      if ob.arr != 0 || (s.sharers tm o).any fun t => s.waits t o then s.raise r cSYNC_ERROR
      else s.setSync tm o { ob with exp := n }
    | .error => s.setSync tm o { ob with state := .active, exp := n, arr := 0, xtra := 0, ecode := 0 }

/-- ARRIVE (R184): release, token, arrival. -/
def State.syncArrive (s : State) (r : ThreadRef) (tm : Team) (o : Nat) (ob : SyncObj) (v : Nat) : State :=
  s.release r (kindScope o) fun s => (s.putSync tm o ob.arrive).syncOut r v (BitVec.ofNat 32 ob.phase)

/-- Take the result of a wait that has ended: acquire on the ranges bound when the wait issued, and the register. -/
def State.syncTake (s : State) (r : ThreadRef) (tm : Team) (ranges : List (DWord × Nat)) (v : Nat) (x : Word) : State :=
  (s.updThread r fun th => { th.setReg v x with grant := none, kept := none }).invalidateRanges tm.core tm.ctx ranges

/-- A thread waits for its token to pass; its acquire will cover what is bound now (R185). -/
def State.syncBlock (s : State) (r : ThreadRef) (o : Nat) (ob : SyncObj) (t : Word) : State :=
  (s.updThread r fun th => { th with bound := ob.ranges }).block r (.sync o t)

/-- WAIT (R184). -/
def State.syncWait (s : State) (r : ThreadRef) (tm : Team) (o : Nat) (ob : SyncObj) (th : Thread) (v : Nat) : State :=
  let t := th.reg v
  match th.grant with
  | some x => s.syncTake r tm th.bound v x
  | none =>
    if SyncObj.invalid ob.phase t then s.raise r cSYNC_ERROR
    else if ob.state = .error then s.syncTake r tm ob.ranges v (ob.ecode.setWidth 32)
    else if ob.passed (s.seenPhase tm o) t then s.syncTake r tm ob.ranges v 0
    else s.syncBlock r o ob t

/-- The token of an ARRW of the thread on an object that arrived before the thread's restart (R117, R131). -/
def Thread.keptToken (th : Thread) (o : Nat) : Option Word := (th.kept.filter fun q => q.1 = o).map (·.2)

/-- ARRW of a thread that has arrived and restarted: the wait alone. -/
def State.syncRewait (s : State) (r : ThreadRef) (tm : Team) (o : Nat) (ob : SyncObj) (th : Thread) (v : Nat) (t : Word) : State :=
  if ob.state = .error then s.syncTake r tm th.bound v (ob.ecode.setWidth 32)
  else if ob.passed (s.seenPhase tm o) t then s.syncTake r tm th.bound v 0
  else (s.updThread r fun th => { th with kept := none }).block r (.sync o t)

/-- ARRW (R184): ARRIVE, then WAIT on the token.  A thread that does not pass at once waits before its arrival counts, so
that a phase it completes finds it waiting (R191). -/
def State.syncArrw (s : State) (r : ThreadRef) (tm : Team) (o : Nat) (ob : SyncObj) (th : Thread) (v : Nat) : State :=
  match th.grant, th.keptToken o with
  | some x, _ => s.syncTake r tm th.bound v x
  | none, some t => s.syncRewait r tm o ob th v t
  | none, none => s.release r (kindScope o) fun s =>
    if ob.state = .error then s.syncTake r tm ob.ranges v (ob.ecode.setWidth 32)
    else
      let nw := ob.arrive
      if o < 48 && nw.phase != ob.phase then (s.putSync tm o nw).syncTake r tm ob.ranges v 0
      else (s.syncBlock r o ob (BitVec.ofNat 32 ob.phase)).putSync tm o nw

/-- TEST (R184): no wait and no acquire. -/
def State.syncTest (s : State) (r : ThreadRef) (tm : Team) (o : Nat) (ob : SyncObj) (th : Thread) (v : Nat) : State :=
  let t := th.reg v
  if SyncObj.invalid ob.phase t then s.raise r cSYNC_ERROR
  else s.syncOut r v (if ob.state = .error then ob.ecode.setWidth 32
    else if ob.passed (s.seenPhase tm o) t then 0 else 0xFFFFFFFF)

/-- ACQ (R184, R374): acquire, and the phase as the acquirer observes it. -/
def State.syncAcq (s : State) (r : ThreadRef) (tm : Team) (o : Nat) (ob : SyncObj) (v : Nat) : State :=
  (s.syncOut r v (BitVec.ofNat 32 (s.seenPhase tm o))).invalidateRanges tm.core tm.ctx ob.ranges

/-- BIND (R184). -/
def State.syncBind (s : State) (r : ThreadRef) (tm : Team) (o : Nat) (ob : SyncObj) (base : DWord) (len slot : Word) : State :=
  if base.toNat % 64 != 0 || len.toNat % 64 != 0 || 3 < slot.toNat then s.raise r cSYNC_ERROR
  else s.setSync tm o { ob with ranges := ob.ranges.set slot.toNat (base, len.toNat) }

/-- UNBIND (R184). -/
def State.syncUnbind (s : State) (r : ThreadRef) (tm : Team) (o : Nat) (ob : SyncObj) (v : Word) : State :=
  if 3 < v.toNat then s.raise r cSYNC_ERROR
  else s.setSync tm o { ob with ranges := ob.ranges.modify v.toNat fun q => (q.1, 0) }

/-- EXPECT (R184). -/
def State.syncExpect (s : State) (r : ThreadRef) (tm : Team) (o : Nat) (ob : SyncObj) (v : Word) : State :=
  let n := v.toNat
  if n = 0 || 65535 < n || 2 ^ 32 <= ob.xtra + n then s.raise r cSYNC_ERROR
  else if ob.state = .active then
    let nw := { ob with xtra := ob.xtra + n }
    s.putSync tm o (if nw.arr = nw.exp + nw.xtra then nw.complete else nw)
  else s

/-- ERR (R184). -/
def State.syncErr (s : State) (r : ThreadRef) (tm : Team) (o : Nat) (ob : SyncObj) (v : Word) : State :=
  if v.extractLsb' 0 8 = 0 || v.extractLsb' 8 24 != 0 then s.raise r cSYNC_ERROR
  else s.putSync tm o (ob.errorPhase (v.extractLsb' 0 8))

/-- The acquire of a fence (R198, R199): earlier loads and atomics first, then every L1 line. -/
def State.fenceAcq (s : State) (r : ThreadRef) : State :=
  if s.remoteLoads r then s.block r (.release 0) else s.acquireAll r

/-- OPRDY (R199): wait until every earlier load and atomic of the thread has landed. -/
def State.operandsLanded (s : State) (r : ThreadRef) (k : State → State) : State :=
  match s.team? r.team with
  | none => s
  | some tm => if (s.core tm.core).loads.any fun l => l.ref = r && !l.words.isEmpty then s.block r .operand else k s

/-- TFENCE (R114): every enabled flag and a pending STORE_NACK, whose bit is cleared. -/
def State.tfence (s : State) (r : ThreadRef) : State :=
  s.withThread r fun th =>
    match tfenceCauses th with
    | [] => s
    | cs => (s.updThread r fun th => { th with nackPending := false }).raiseAll r cs

/-- SYNC_INIT (R184).  -/
def execSyncInit (c : Bool) (s : BitVec 3) (o : BitVec 6) (v : BitVec 6) (p : BitVec 3) (st : State) : Res :=
  syncWord (.syncInit c s o v p) p.toNat o.toNat (fun st r tm th ob => st.syncInit r tm o.toNat ob (th.reg v.toNat)) st

/-- SYNC_ARRIVE (R184).  -/
def execSyncArrive (c : Bool) (s : BitVec 3) (o : BitVec 6) (v : BitVec 6) (p : BitVec 3) (st : State) : Res :=
  syncWord (.syncArrive c s o v p) p.toNat o.toNat (fun st r tm _ ob => st.syncArrive r tm o.toNat ob v.toNat) st

/-- SYNC_WAIT (R184).  -/
def execSyncWait (c : Bool) (s : BitVec 3) (o : BitVec 6) (v : BitVec 6) (p : BitVec 3) (st : State) : Res :=
  syncWord (.syncWait c s o v p) p.toNat o.toNat (fun st r tm th ob => st.syncWait r tm o.toNat ob th v.toNat) st

/-- SYNC_ARRW (R184).  -/
def execSyncArrw (c : Bool) (s : BitVec 3) (o : BitVec 6) (v : BitVec 6) (p : BitVec 3) (st : State) : Res :=
  syncWord (.syncArrw c s o v p) p.toNat o.toNat (fun st r tm th ob => st.syncArrw r tm o.toNat ob th v.toNat) st

/-- SYNC_TEST (R184).  -/
def execSyncTest (c : Bool) (s : BitVec 3) (o : BitVec 6) (v : BitVec 6) (p : BitVec 3) (st : State) : Res :=
  syncWord (.syncTest c s o v p) p.toNat o.toNat (fun st r tm th ob => st.syncTest r tm o.toNat ob th v.toNat) st

/-- SYNC_REL (R184).  -/
def execSyncRel (c : Bool) (s : BitVec 3) (o : BitVec 6) (p : BitVec 3) (st : State) : Res :=
  syncWord (.syncRel c s o p) p.toNat o.toNat (fun st r _ _ _ => st.release r (kindScope o.toNat) id) st

/-- SYNC_ACQ (R184).  -/
def execSyncAcq (c : Bool) (s : BitVec 3) (o : BitVec 6) (v : BitVec 6) (p : BitVec 3) (st : State) : Res :=
  syncWord (.syncAcq c s o v p) p.toNat o.toNat (fun st r tm _ ob => st.syncAcq r tm o.toNat ob v.toNat) st

/-- SYNC_BIND (R184).  -/
def execSyncBind (c : Bool) (s : BitVec 3) (o : BitVec 6) (v : BitVec 6) (p : BitVec 3) (st : State) : Res :=
  syncWord (.syncBind c s o v p) p.toNat o.toNat (fun st r tm th ob => st.syncBind r tm o.toNat ob (th.pair v.toNat) (th.reg (v.toNat + 2)) (th.reg (v.toNat + 3))) st

/-- SYNC_UNBIND (R184).  -/
def execSyncUnbind (c : Bool) (s : BitVec 3) (o : BitVec 6) (v : BitVec 6) (p : BitVec 3) (st : State) : Res :=
  syncWord (.syncUnbind c s o v p) p.toNat o.toNat (fun st r tm th ob => st.syncUnbind r tm o.toNat ob (th.reg v.toNat)) st

/-- SYNC_EXPECT (R184).  -/
def execSyncExpect (c : Bool) (s : BitVec 3) (o : BitVec 6) (v : BitVec 6) (p : BitVec 3) (st : State) : Res :=
  syncWord (.syncExpect c s o v p) p.toNat o.toNat (fun st r tm th ob => st.syncExpect r tm o.toNat ob (th.reg v.toNat)) st

/-- SYNC_ERR (R187).  -/
def execSyncErr (c : Bool) (s : BitVec 3) (o : BitVec 6) (v : BitVec 6) (p : BitVec 3) (st : State) : Res :=
  syncWord (.syncErr c s o v p) p.toNat o.toNat (fun st r tm th ob => st.syncErr r tm o.toNat ob (th.reg v.toNat)) st

/-- FENCE_REL (R199).  -/
def execFenceRel (c : Bool) (s : BitVec 3) (p : BitVec 3) (st : State) : Res :=
  predWord (.fenceRel c s p) p.toNat (fun st r => st.release r s.toNat id) st

/-- FENCE_ACQ (R199).  -/
def execFenceAcq (c : Bool) (s : BitVec 3) (p : BitVec 3) (st : State) : Res :=
  predWord (.fenceAcq c s p) p.toNat (fun st r => st.fenceAcq r) st

/-- FENCE_FULL (R199).  -/
def execFenceFull (c : Bool) (s : BitVec 3) (p : BitVec 3) (st : State) : Res :=
  predWord (.fenceFull c s p) p.toNat (fun st r => st.release r s.toNat fun st => st.operandsLanded r fun st => st.fenceAcq r) st

/-- FENCE_OPRDY (R199).  -/
def execFenceOprdy (c : Bool) (p : BitVec 3) (st : State) : Res :=
  predWord (.fenceOprdy c p) p.toNat (fun st r => st.operandsLanded r id) st

/-- FENCE_TFENCE (R114).  -/
def execFenceTfence (c : Bool) (p : BitVec 3) (st : State) : Res :=
  predWord (.fenceTfence c p) p.toNat (fun st r => st.tfence r) st

end Sys2Proof.Machine
end

