-- ==== Sys2Proof/Machine/TaskQueues.lean ====
section
/-!
DEFINITION. Task queues (R148, R149): which queue a level of a core names, and how records move between levels.
-/
namespace Sys2Proof.Machine

/-- Entries of a level (R148). -/
def taskCap (level : Nat) : Nat := if level = 1 then 16 else if level = 2 then 128 else 1024

/-- Number of the queue of a level that contains a core. -/
def taskIx (level core : Nat) : Nat :=
  if level = 1 then core else if level = 2 then dieOf core * 4 + quarterOf (numOf core) else dieOf core

/-- Records of a context's queue of a level at a core. -/
def State.taskRecs (s : State) (ctx level core : Nat) : List (Nat × List Byte) :=
  ((s.taskqs.find? fun q => q.ctx = ctx && q.level = level && q.ix = taskIx level core).map TaskQueue.recs).getD []

/-- Replace those records; an empty queue is not listed. -/
def State.setTasks (s : State) (ctx level core : Nat) (recs : List (Nat × List Byte)) : State :=
  let rest := s.taskqs.filter fun q => !(q.ctx = ctx && q.level = level && q.ix = taskIx level core)
  { s with taskqs := if recs.isEmpty then rest else ⟨ctx, level, taskIx level core, recs⟩ :: rest }

/-- Move the eight oldest entries of a level to the tail of the next level up; none when the die queue would overflow (R149).  A next
level that has room for fewer than eight is spilled first, full or not (DESIGN CHOICE, log entry 95). -/
def State.spillTasks (s : State) (ctx core : Nat) : Nat → Nat → Option State
  | 0, _ => none
  | fuel + 1, level =>
    if 3 <= level then none
    else
      let mine := s.taskRecs ctx level core
      let room (s : State) : Option State :=
        if (s.taskRecs ctx (level + 1) core).length + 8 <= taskCap (level + 1) then some s
        else s.spillTasks ctx core fuel (level + 1)
      (room s).map fun s =>
        (s.setTasks ctx (level + 1) core (s.taskRecs ctx (level + 1) core ++ mine.take 8)).setTasks ctx level core (mine.drop 8)

/-- Append a record to a queue; none where the die queue would overflow (R149). -/
def State.pushTask (s : State) (ctx level core : Nat) (r : Nat × List Byte) : Option State :=
  let put (s : State) : State := s.setTasks ctx level core (s.taskRecs ctx level core ++ [r])
  if (s.taskRecs ctx level core).length < taskCap level then some (put s)
  else (s.spillTasks ctx core 3 level).map put

/-- Fill an empty queue from the nearest level above that holds entries: the eight oldest, or all if fewer (R149). -/
def State.pullTasks (s : State) (ctx level core : Nat) : State :=
  if !(s.taskRecs ctx level core).isEmpty then s
  else
    match ([2, 3].filter fun l => level < l).find? fun l => !(s.taskRecs ctx l core).isEmpty with
    | none => s
    | some l =>
      let up := s.taskRecs ctx l core
      (s.setTasks ctx l core (up.drop 8)).setTasks ctx level core (up.take 8)

/-- Some level from this one up to the die holds a record. -/
def State.taskReady (s : State) (ctx level core : Nat) : Bool :=
  [1, 2, 3].any fun l => level <= l && !(s.taskRecs ctx l core).isEmpty

/-- The record is an EOS record (R150, R151). -/
def taskEos (bs : List Byte) : Bool := fieldAt bs 4 4 % 2 = 1

/-- An EOS record (R151). -/
def eosRecord : List Byte := leBytes 0 4 ++ leBytes 1 4 ++ List.replicate 56 0

/-- Pop the head of a queue, after filling it; an EOS record goes back to the tail of that queue, from whichever level it was pulled
(R151; DESIGN CHOICE, log entry 95). -/
def State.popTask (s : State) (ctx level core : Nat) : Option (State × List Byte) :=
  let s := s.pullTasks ctx level core
  match s.taskRecs ctx level core with
  | [] => none
  | r :: rest => some (s.setTasks ctx level core (if taskEos r.2 then rest ++ [r] else rest), r.2)

/-- A context has a resident team in a set of cores. -/
def State.holdsTeam (s : State) (ctx : Nat) (p : Nat → Bool) : Bool :=
  s.teams.any fun t => t.ctx = ctx && (t.state = .resident || t.state = .saving) && p t.core

/-- When the context's last team has left a core, the core queue's entries move to the quarter queue, and on to the die
queue when the quarter holds no team of the context (R149).  Entries that do not fit there are kept beyond its capacity (DESIGN
CHOICE, log entry 77). -/
def State.flushTasks (s : State) (ctx core : Nat) : State :=
  let up (s : State) (l : Nat) : State :=
    (s.setTasks ctx (l + 1) core (s.taskRecs ctx (l + 1) core ++ s.taskRecs ctx l core)).setTasks ctx l core []
  if s.holdsTeam ctx (· == core) then s
  else
    let s := up s 1
    if s.holdsTeam ctx fun c => taskIx 2 c = taskIx 2 core then s else up s 2

/-- EOS records that a launch pushed are discarded when it ends (R151). -/
def State.dropEos (s : State) (launch : Nat) : State :=
  { s with taskqs := (s.taskqs.map fun (q : TaskQueue) => { q with
      recs := q.recs.filter fun r => !(r.1 = launch && taskEos r.2) }).filter fun q => !q.recs.isEmpty }

end Sys2Proof.Machine
end

