-- ==== Sys2Proof/Machine/Control.lean ====
section
/-!
DEFINITION. Control, convergence and system instructions (R346 to R352, R357 to R363): branches and the call stack,
rejoin masks (R88), waits by time, traps and the return from a handler, and the end of a thread and of its team.
-/
namespace Sys2Proof.Machine

/-- The thread goes to another place and issues no later word of its packet (R346). -/
def State.jump (s : State) (r : ThreadRef) (p : Pc) : State := (s.updThread r fun th => th.goto p).leaveBundle r

/-! ## The call stack (R349, R350) -/

def stkLimit (v : Word) : Nat := (v.extractLsb' 26 6).toNat
def stkDepth (v : Word) : Nat := (v.extractLsb' 20 6).toNat
def stkSp (v : Word) : Nat := (v.extractLsb' 0 18).toNat

/-- %STKP from its fields. -/
def stkWord (limit depth sp : Nat) : Word := BitVec.ofNat 32 (limit * 2 ^ 26 + depth % 64 * 2 ^ 20 + sp % 2 ^ 18)

/-- CALL: push the next place and go. -/
def State.call (s : State) (r : ThreadRef) (target : Pc) : State :=
  s.withThread r fun th =>
    let sp := stkSp th.stkp
    if stkDepth th.stkp = stkLimit th.stkp || sp = 0 then s.raise r cSTACK_OVERFLOW
    else match s.team? r.team with
      | none => s
      | some tm =>
        match s.resolveScratch tm (BitVec.ofNat 32 (8 * (sp - 1))) 8 with
        | .cause c => s.raise r c
        | .wait => s.block r (.room (.span (BitVec.ofNat 32 (8 * (sp - 1))) 8))
        | .at_ core off _ =>
          if (s.core core).rangeBusy off 8 then s.block r (.room (.span (BitVec.ofNat 32 (8 * (sp - 1))) 8))
          else
            let next := s.issue.pc.succ
            let s := s.homeWrite (.scratch core off) (leBytes (next.pkt.toNat + next.slot * 2 ^ 32) 8)
            (s.updThread r fun th => { th with
              stkp := stkWord (stkLimit th.stkp) (stkDepth th.stkp + 1) (sp - 1) }).jump r target

/-- RET: pop the top entry and go there. -/
def State.ret (s : State) (r : ThreadRef) : State :=
  s.withThread r fun th =>
    let sp := stkSp th.stkp
    if stkDepth th.stkp = 0 then s.raise r cSTACK_OVERFLOW
    else match s.team? r.team with
      | none => s
      | some tm =>
        match s.resolveScratch tm (BitVec.ofNat 32 (8 * sp)) 8 with
        | .cause c => s.raise r c
        | .wait => s.block r (.room (.span (BitVec.ofNat 32 (8 * sp)) 8))
        | .at_ core off _ =>
          if (s.core core).rangeBusy off 8 then s.block r (.room (.span (BitVec.ofNat 32 (8 * sp)) 8))
          else
            let e := leNat ((s.core core).scratch.readBytes off 8)
            if e / 2 ^ 34 != 0 || e / 2 ^ 32 = 3 then s.raise r cSTACK_OVERFLOW
            else (s.updThread r fun th => { th with
              stkp := stkWord (stkLimit th.stkp) (stkDepth th.stkp - 1) (sp + 1) }).jump r
                ⟨BitVec.ofNat 32 e, e / 2 ^ 32⟩

/-! ## Rejoin masks (R88) -/

/-- Update mask j of a group. -/
def State.updMask (s : State) (t g j : Nat) (f : RejoinMask → RejoinMask) : State :=
  s.updGroup t g fun gr => { gr with masks := gr.masks.modify j f }

/-- Mask j of a group. -/
def State.mask (s : State) (t g j : Nat) : RejoinMask := ((s.group? t g).map fun gr => gr.masks.getD j ⟨0, 0⟩).getD ⟨0, 0⟩

/-- Release the arrived threads of a mask; both sets clear. -/
def State.releaseMask (s : State) (t g j : Nat) : State :=
  let arrived := (s.mask t g j).arrived
  let s := s.updMask t g j fun _ => ⟨0, 0⟩
  s.forRefs (((List.range 32).filter fun l => arrived.getLsbD l).map fun l => ⟨t, 32 * g + l⟩) fun s r =>
    match s.status? r with
    | some (.waiting (.rejoin j')) =>
      if j' = j then s.updThread r fun th => { th with status := .ready, grant := some 0 } else s
    | _ => s

/-- ENROL by one thread. -/
def State.enrol (s : State) (r : ThreadRef) (j : Nat) : State :=
  s.updMask r.team (r.tid / 32) j fun m => { m with enrolled := m.enrolled ||| laneBit (r.tid % 32) }

/-- REJOIN by one thread. -/
def State.rejoin (s : State) (r : ThreadRef) (j : Nat) : State :=
  s.withThread r fun th =>
    match th.grant with
    | some _ => s.updThread r fun th => { th with grant := none }
    | none =>
      let m := s.mask r.team (r.tid / 32) j
      if m.enrolled = 0 || !m.enrolled.getLsbD (r.tid % 32) then s
      else
        let arrived := m.arrived ||| laneBit (r.tid % 32)
        if arrived = m.enrolled then s.releaseMask r.team (r.tid / 32) j
        else (s.updMask r.team (r.tid / 32) j fun m => { m with arrived := arrived }).block r (.rejoin j)

/-- STRIKE by one thread, or its exit. -/
def State.strike (s : State) (r : ThreadRef) (j : Nat) : State :=
  let m := s.mask r.team (r.tid / 32) j
  if !m.enrolled.getLsbD (r.tid % 32) then s
  else
    let e := m.enrolled &&& ~~~(laneBit (r.tid % 32))
    let s := s.updMask r.team (r.tid / 32) j fun m => { m with enrolled := e }
    if e = m.arrived && m.arrived != 0 then s.releaseMask r.team (r.tid / 32) j else s

/-! ## Waits by time -/

/-- Wait n front cycles of the core (R352, R361); a wait that has ended is taken. -/
def State.timedWait (s : State) (r : ThreadRef) (sleep : Bool) (n : Nat) : State :=
  s.withThread r fun th =>
    match th.grant with
    | some _ => s.updThread r fun th => { th with grant := none }
    | none => s.block r (.timer sleep ((s.core s.issue.core).cyc + n))

/-- A pre-emption or checkpoint request of the thread's context is pending on its core (R123). -/
def State.preqPending (s : State) (r : ThreadRef) : Bool :=
  match s.team? r.team with
  | some tm => (s.core tm.core).preqs.any fun p => p.ctx = tm.ctx && p.req
  | none => false

/-- SLEEP (R361): nothing for a count of 0; it ends at once while a request is pending. -/
def State.sleep (s : State) (r : ThreadRef) (n : Nat) : State :=
  s.withThread r fun th =>
    if n = 0 || (s.preqPending r && th.grant.isNone) then s else s.timedWait r true (min n (2 ^ 24))

/-- PYLD (R124, R361). -/
def State.pyld (s : State) (r : ThreadRef) : State :=
  if s.preqPending r then
    (s.updThread r fun th => { th.goto s.issue.pc.succ with status := .yielded }).leaveBundle r
  else s

/-! ## Traps, debugger, causes -/

/-- ERET (R112, R359). -/
def State.eret (s : State) (r : ThreadRef) : State :=
  s.withThread r fun th =>
    if th.inHandler then (s.updThread r Thread.leaveHandler).leaveBundle r else s.raise r cPRIV

/-- BKPT (R115): requests a stop of the group while a debugger is attached to the context. -/
def State.bkpt (s : State) (r : ThreadRef) : State :=
  match s.team? r.team with
  | some tm =>
    if s.debuggers.contains tm.ctx then s.updGroup r.team (r.tid / 32) fun g => { g with stopReq := true } else s
  | none => s

/-- A thread of the group is parked on a cause, or holds a record whose head met it and parks when it needs the value: it counts as
parked on the cause from then on (DEDUCED, log entry 78). -/
def Group.parkedOn (g : Group) (c : Cause) : Bool :=
  g.threads.any fun th => th.status = .parked c || (!th.record.isEmpty && th.recCause = c)

/-- CCLR (R106). -/
def State.cclr (s : State) (r : ThreadRef) (c : Cause) : State :=
  match s.group? r.team (r.tid / 32) with
  | some g => if g.parkedOn c then s else s.clearCause r.team (r.tid / 32) c
  | none => s

/-- HALTCTX (R362): the thread stays at its run; only the first freezes the context and is reported. -/
def State.haltCtx (s : State) (r : ThreadRef) (v : Word) : State :=
  match s.team? r.team with
  | none => s
  | some tm =>
    let sys := ((s.launch? tm.launch).map fun l => l.recd.sys).getD false
    if sys then
      let seen (s : State) : Option (CtxState × Bool) := (s.ctx? tm.ctx).map fun k => (k.state, k.freezeAfter.isSome)
      let was := seen s
      let s := ((s.updThread r Thread.leaveRun).leaveBundle r).freezeCtx tm.ctx [0, r.team, r.tid]
      if seen s = was then s else s.tell "HALTED" [tm.ctx, r.team, r.tid, v.toNat]
    else s.raise r cPRIV

/-! ## The end of a thread and of a team (R100, R101, R360) -/

/-- The banks, Sedge sets and collectors of a core. -/
def Core.tiles (c : Core) : List Bank × List Sedge × List Collector := (c.banks, c.sedge, c.collectors)

/-- The core's tile-store image is saved for a context (R126). -/
def State.saveTiles (s : State) (ctx core : Nat) : State :=
  s.updCore core fun c => { c with images := (ctx, c.tiles) :: c.images.filter (·.1 != ctx) }

/-- The context is being pre-empted: asked to, or while it is frozen (R120, R130). -/
def State.preempts (s : State) (ctx : Nat) : Bool :=
  ((s.ctx? ctx).map fun k => k.state = .preempting || (k.state = .frozen && (k.preemptPending || k.before = .preempting))).getD false

/-- The engine of a core is idle, and no bank loads or drains (R126). -/
def Core.engineIdle (c : Core) : Bool :=
  c.engq.isEmpty && c.engRun.isEmpty && c.banks.all fun b => b.state != .loading && b.state != .draining

/-- The team holds slots, registers and a window on its core. -/
def Team.holdsRoom (t : Team) : Bool := t.state = .resident || t.state = .saving || t.state = .killing

/-- Bytes of a team's save image (R119). -/
def LaunchRec.image (l : LaunchRec) : Nat :=
  2048 + (l.roles.map fun r => 32 * r.ngrp * (4 * r.nreg + 192)).sum + l.scrsz

/-- Save-area bytes in use by a context (R119, R176): images of its teams, tile-store images, spilled objects. -/
def State.saveUsed (s : State) (ctx : Nat) : Nat :=
  let ts := s.teams.filter fun t => t.ctx = ctx && t.state != .ended
  (ts.map fun t => ((s.launch? t.launch).map fun l => l.recd.image).getD 0).sum
    + 65536 * ((ts.map Team.core).eraseDups).length
    + ((s.objs.filter fun o => o.ctx = ctx && o.mirror.isNone && (o.state = .spilled || o.state = .restoring)).map Obj.size).sum

/-- n bytes from a become bytes of which nothing is known: free values from a number on. -/
def Memory.fillFree (m : Memory) (a n from_ : Nat) : Memory :=
  (m.clear a n).paste a ((List.range n).filterMap fun i =>
    let b := Config.answerByte from_ i
    if b = Memory.blank then none else some (i, b))

/-- Firmware writes images into the part of the save area that is in use.  The manual gives their places there and not their layout,
so those bytes are free values from then on (R97, R126, R133; DESIGN CHOICE, log entry 33). -/
def State.writeImages (s : State) (ctx : Nat) : State :=
  match s.ctx? ctx with
  | none => s
  | some k =>
    let used := min k.savesz (s.saveUsed ctx)
    (List.range ((used + 65535) / 65536)).foldl (fun s i =>
      let va := k.savebase + 65536 * i
      let n := min 65536 (used - 65536 * i)
      let s : State := { s with fresh := s.fresh + 1 }
      match s.tableWalkNow ctx va true with
      | (s, .home (.dev pa)) => ({ s with mem := s.mem.fillFree pa n (s.fresh - 1) } : State).dropReplicas ctx va
      | (s, .home (.host a)) => { s with hostMem := s.hostMem.fillFree a n (s.fresh - 1) }
      | (s, _) => s) s

/-- Cores whose tile-store image is still to be saved for a context: the last of its teams there has gone, and teams that were saved
will want it (R126). -/
def State.imagesDue (s : State) (ctx : Nat) : List Nat :=
  (s.cores.filter fun c => c.owner = some ctx && !c.scrubbing && !c.images.any (·.1 == ctx)
    && s.teams.any (fun t => t.ctx = ctx && t.core = c.id && t.state = .swapped)
    && !s.teams.any fun t => t.ctx = ctx && t.core = c.id && t.holdsRoom).map Core.id

/-- The context leaves PREEMPTING: it is SAVED, or FROZEN for a cause met during a forced save; the teams that are swapped now return
together (R120, R127). -/
def State.preempted (s : State) (ctx : Nat) : State :=
  let s : State := { s with
    cores := s.cores.map fun (c : Core) => { c with preqs := c.preqs.filter (·.ctx != ctx) }
    teams := s.teams.map fun (t : Team) => if t.ctx = ctx && t.state = .swapped then { t with preempted := true } else t }
  let why := (s.ctx? ctx).bind Ctx.freezeAfter
  let s := s.updCtx ctx fun k =>
    if k.state = .preempting then
      if k.freezeAfter.isSome then { k with state := .frozen, before := .saved, freezeAfter := none } else { k with state := .saved }
    else if k.state = .frozen then { k with before := .saved, preemptPending := false } else k
  match why with
  | some w => s.tell "FREEZE" (ctx :: w)
  | none => s

/-- What the saves of a pre-empted context leave to be done: a core that holds no further team of the context, and whose engine is
idle, has its image saved where saved teams will want it; with no team and no such core left the context is SAVED (R120, R126). -/
def State.preemptDone (s : State) (ctx : Nat) : State :=
  if !s.preempts ctx then s else
  let due := s.imagesDue ctx
  let idle := due.filter fun c => (s.core c).engineIdle
  let s := idle.foldl (fun s c => s.saveTiles ctx c) s
  let s := if idle.isEmpty then s else s.writeImages ctx
  if s.teams.any (fun t => t.ctx = ctx && t.holdsRoom) || idle.length != due.length then s else s.preempted ctx

/-- A team ends: its objects are closed, its room is free, and its cluster and launch count it. -/
def State.endTeam (s : State) (t : Nat) : State :=
  match s.team? t with
  | none => s
  | some tm =>
    let s := s.closeAll tm
    let s := s.freeLocks fun r => r.team = t
    let s := (s.updTeam t fun x => { x with state := .ended }).flushTasks tm.ctx tm.core
    let s := s.departs (dieOf tm.core) tm.ctx
    let s := s.updCore tm.core fun c => { c with
      loads := c.loads.filter fun l => l.ref.team != t
      collectors := c.collectors.filter fun k => k.team != t }
    let left := s.teams.any fun x => x.launch = tm.launch && x.cix = tm.cix && x.state != .ended
    let s := if left then s else s.updCluster tm.launch tm.cix fun c => { c with ended := true }
    (s.updLaunch tm.launch fun l => { l with endedTeams := l.endedTeams + 1 }).preemptDone tm.ctx

/-- Threads of a group that wait at a member-mask collective naming a lane. -/
def State.waitersNaming (s : State) (t g lane : Nat) : List ThreadRef :=
  ((List.range 32).map fun l => (⟨t, 32 * g + l⟩ : ThreadRef)).filter fun q => match s.status? q with
    | some (.waiting (.collective m _)) => m.getLsbD lane
    | _ => false

/-- Threads of a group that wait at a full-group word. -/
def State.fullWaiters (s : State) (t g : Nat) : List ThreadRef :=
  ((List.range 32).map fun l => (⟨t, 32 * g + l⟩ : ThreadRef)).filter fun q => match s.status? q with
    | some (.waiting (.fullGroup _)) => true
    | _ => false

/-- A thread exits (R360): struck from every mask, its locks freed, its waiting siblings told (R89, R91); the last thread
ends the team, but for one that the siblings' causes have killed, which drains first (R109). -/
def State.exitThread (s : State) (r : ThreadRef) : State :=
  let g := r.tid / 32
  let s := (List.range 8).foldl (fun s j => s.strike r j) s
  let s := s.freeLocks fun q => q = r
  let s := s.updThread r fun th => { th.leaveRun with status := .exited, copyFault := false, ecause := 0, aside := [] }
  let s := s.updCore s.issue.core fun c => { c with
    collectors := c.collectors.filter fun k => !(k.team = r.team && k.grp = g) }
  let s := s.leaveBundle r
  let s := s.forRefs (s.waitersNaming r.team g (r.tid % 32)) fun s q => s.raise q cMEMBER_GONE
  let s := s.forRefs (s.fullWaiters r.team g) fun s q => s.raise q cILLEGAL_CONVERGENCE
  match s.team? r.team with
  | some tm =>
    if tm.state = .resident && tm.groups.all fun gr => gr.threads.all fun th => th.status = .exited then s.endTeam r.team else s
  | none => s

/-- BRA (R348).  -/
def execBra (p : BitVec 3) (i : BitVec 21) (st : State) : Res :=
  predWord (.bra p i) p.toNat (fun st r => st.jump r ⟨st.issue.pc.pkt + i.signExtend 32, 0⟩) st

/-- CALL (R348).  -/
def execCall (p : BitVec 3) (i : BitVec 21) (st : State) : Res :=
  predWord (.call p i) p.toNat (fun st r => st.call r ⟨st.issue.pc.pkt + i.signExtend 32, 0⟩) st

/-- RET (R350).  -/
def execRet (p : BitVec 3) (st : State) : Res :=
  predWord (.ret p) p.toNat (fun st r => st.ret r) st

/-- JMPR (R348).  -/
def execJmpr (p : BitVec 3) (r : BitVec 6) (st : State) : Res :=
  predWord (.jmpr p r) p.toNat (fun st q => st.withThread q fun th => st.jump q ⟨th.reg r.toNat, 0⟩) st

/-- ENROL (R88). Each thread is added in turn; nothing is decided between, so all join at once. -/
def execEnrol (c : Bool) (j : BitVec 3) (p : BitVec 3) (st : State) : Res :=
  predWord (.enrol c j p) p.toNat (fun st r => st.enrol r j.toNat) st

/-- REJOIN (R88).  -/
def execRejoin (c : Bool) (j : BitVec 3) (p : BitVec 3) (st : State) : Res :=
  predWord (.rejoin c j p) p.toNat (fun st r => st.rejoin r j.toNat) st

/-- STRIKE (R88).  -/
def execStrike (c : Bool) (j : BitVec 3) (p : BitVec 3) (st : State) : Res :=
  predWord (.strike c j p) p.toNat (fun st r => st.strike r j.toNat) st

/-- YIELD (R352).  -/
def execYield (c : Bool) (p : BitVec 3) (st : State) : Res :=
  predWord (.yield c p) p.toNat (fun st r => st.timedWait r false 16) st

/-- SYS_TRAP (R358).  -/
def execSysTrap (c : Bool) (n : BitVec 6) (p : BitVec 3) (st : State) : Res :=
  predWord (.sysTrap c n p) p.toNat (fun st r => st.raise r (0xC0 + n.setWidth 8)) st

/-- SYS_ERET (R112).  -/
def execSysEret (c : Bool) (p : BitVec 3) (st : State) : Res :=
  predWord (.sysEret c p) p.toNat (fun st r => st.eret r) st

/-- SYS_BKPT (R115).  -/
def execSysBkpt (c : Bool) (p : BitVec 3) (st : State) : Res :=
  predWord (.sysBkpt c p) p.toNat (fun st r => st.bkpt r) st

/-- SYS_EXIT (R360).  -/
def execSysExit (c : Bool) (p : BitVec 3) (st : State) : Res :=
  predWord (.sysExit c p) p.toNat (fun st r => st.release r 5 fun st => st.exitThread r) st

/-- SYS_PYLD (R361).  -/
def execSysPyld (c : Bool) (p : BitVec 3) (st : State) : Res :=
  predWord (.sysPyld c p) p.toNat (fun st r => st.pyld r) st

/-- SYS_CCLR (R362).  -/
def execSysCclr (c : Bool) (v : BitVec 6) (p : BitVec 3) (st : State) : Res :=
  predWord (.sysCclr c v p) p.toNat (fun st r => st.withThread r fun th => st.cclr r ((th.reg v.toNat).extractLsb' 0 8)) st

/-- SYS_SLEEP (R361).  -/
def execSysSleep (c : Bool) (v : BitVec 6) (p : BitVec 3) (st : State) : Res :=
  predWord (.sysSleep c v p) p.toNat (fun st r => st.withThread r fun th => st.sleep r (th.reg v.toNat).toNat) st

/-- SYS_HALTCTX (R362).  -/
def execSysHaltctx (c : Bool) (v : BitVec 6) (p : BitVec 3) (st : State) : Res :=
  predWord (.sysHaltctx c v p) p.toNat (fun st r => st.withThread r fun th => st.haltCtx r (th.reg v.toNat)) st

end Sys2Proof.Machine
end

