-- ==== Sys2Proof/Machine/Collective.lean ====
section
/-!
DEFINITION. Words that threads of a group meet at: member-mask collectives (R89, R90, R353 to R355) and the arrival of
full-group words (R91).
-/
namespace Sys2Proof.Machine

/-! ## Pending operands (R57) -/

/-- Registers a word waits for; an MMA's operand blocks are read later (R204). -/
def waitRegs (i : Instr) : List Nat := (operands i).flatMap fun o => match o with
  | .blk _ _ => []
  | o => o.regs

/-- Predicates a word reads or writes. -/
def predUses (i : Instr) : List Nat := predOf i :: predSources i ++ (operands i).flatMap fun o => match o with
  | .pdst q => [q]
  | _ => []

/-- A load in flight targets a register or predicate that the word uses. -/
def State.operandPending (s : State) (core : Nat) (r : ThreadRef) (i : Instr) : Bool :=
  let loads := (s.core core).loads.filter fun l => l.ref = r
  if loads.isEmpty then false
  else
    let rs := waitRegs i
    let ps := predUses i
    loads.any fun l => rs.any (fun n => l.d <= n && n < l.d + l.words.length) || (match l.pk with
      | some (k, _) => ps.contains k
      | none => false)

/-- A full-group word: its members arrive whether or not their operands are ready (R91). -/
def isFullWord (i : Instr) : Bool :=
  match i with
  | .mmaFwd .. | .mmaFwd2 .. | .mmaFwdk .. | .mmaBwd .. | .mmaGrad .. | .topkRead .. => true
  | _ => false

/-- The word waits before the thread issues it: for a load in flight (R57), or for the answer after which the acquire of an
earlier atomic is done (R200). -/
def State.pendingOn (s : State) (core : Nat) (r : ThreadRef) (i : Instr) : Bool :=
  (!isFullWord i && s.operandPending core r i) || ((s.thread? r).map Thread.acq).getD false

/-! ## Arrivals (R89) -/

/-- A thread that has arrived at a collective: its lane and its mask. -/
structure Arrival where
  lane : Nat
  mask : Word
deriving DecidableEq, Repr

/-- Lanes a member mask names. -/
def maskLanes (m : Word) : List Nat := (List.range 32).filter fun l => m.getLsbD l

/-- What the arrivals at one place come to. -/
structure Meeting where
  complete : List Nat
  illegal : List Nat
deriving DecidableEq, Repr

/-- Every lane that a mask names waits at a place with that mask: the set is complete. -/
def Group.setWaits (g : Group) (at_ : Pc) (m : Word) : Bool :=
  (maskLanes m).all fun l => g.threads[l]?.any fun th => th.status = .waiting (.collective m at_)

/-- Decide, lane by lane, which arrivals complete and which meet differing masks (R89).  Where both rows apply to the lanes of
one arrival, the lowest arrived lane that is decided settles it (DESIGN CHOICE, log entry 84). -/
def meet (arr : List Arrival) : Meeting :=
  let maskAt (l : Nat) : Option Word := (arr.find? (·.lane == l)).map Arrival.mask
  arr.foldl (fun acc a =>
    let named := maskLanes a.mask
    if acc.complete.contains a.lane || acc.illegal.contains a.lane then acc
    else if named.all fun l => (maskAt l).isSome then
      if named.all fun l => maskAt l = some a.mask then { acc with complete := acc.complete ++ named }
      else
        let union := named.foldl (fun u l => u ||| (maskAt l).getD 0) a.mask
        let bad := (maskLanes union).filter fun l => (maskAt l).isSome && !acc.complete.contains l && !acc.illegal.contains l
        { acc with illegal := acc.illegal ++ bad }
    else acc) ⟨[], []⟩

/-- Threads that waited issue with the bundle from now on. -/
def State.joined (s : State) (rs : List ThreadRef) : State :=
  let cyc := (s.core s.issue.core).cyc
  s.forRefs rs fun s r => s.updThread r fun th => { th with status := .ready, lastIssue := cyc }

/-- A member-mask collective (R89, R353): the bundle's threads arrive.  A completed set goes on as the bundle and acts; the
others that complete issue after it, each as its own bundle.  So does a set some of whose members stand at the first word of the
issue group: all of it issues the whole group (R351). -/
def memberWord (i : Instr) (m : Nat) (act : State → List ThreadRef → State) (st : State) : Res :=
  let pc := st.issue.pc
  let st := st.eachIssuing i fun s r => s.withThread r fun th =>
    let mask := th.reg m
    if !mask.getLsbD (r.tid % 32) then s.raise r cILLEGAL_MASK
    else if ((s.group? r.team (r.tid / 32)).map fun g => (maskLanes mask).any fun l =>
        (g.threads[l]?.map fun x => decide (x.status = .exited)).getD false).getD false then s.raise r cMEMBER_GONE
    else s
  match st.issue.bundle.head? with
  | none => .next st
  | some r0 =>
    let team := r0.team
    let grp := r0.tid / 32
    let ref (l : Nat) : ThreadRef := ⟨team, 32 * grp + l⟩
    let arr : List Arrival := (List.range 32).filterMap fun l => (st.thread? (ref l)).bind fun th =>
      if st.issue.bundle.contains (ref l) then some ⟨l, th.reg m⟩
      else match th.status with
        | .waiting (.collective k p) => if p = pc then some ⟨l, k⟩ else none
        | _ => none
    let mt := meet arr
    let maskOf (l : Nat) : Word := ((arr.find? (·.lane == l)).map Arrival.mask).getD 0
    let first := maskOf (((List.range 32).find? fun l => mt.complete.contains l).getD 0)
    let here (r : ThreadRef) : Bool := st.issue.bundle.contains r || (st.thread? r).any fun th => th.pc = pc
    let set := if mt.complete.isEmpty then [] else (maskLanes first).map ref
    let set := if set.all here then set else []
    let bad := ((List.range 32).filter fun l => mt.illegal.contains l).map ref
    let late := st.issue.bundle.filter fun r => !set.contains r && !bad.contains r
    let st := st.forRefs bad fun s r => s.raise r cILLEGAL_MASK
    let st := st.forRefs late fun s r => s.withThread r fun th => s.block r (.collective (th.reg m) pc)
    let st := st.joined set
    let st : State := { st with issue := { st.issue with bundle := set } }
    .next (if set.isEmpty then st else act st set)

/-- Write register d of every member with a value computed from the registers before any is written (R353). -/
def State.setLanes (s : State) (ls : List ThreadRef) (d : Nat) (f : List Thread → Nat → Word) : State :=
  let ths := ls.map fun r => (s.thread? r).getD (Thread.fresh 0 0)
  (ls.zipIdx).foldl (fun s (q : ThreadRef × Nat) => s.updThread q.1 fun th => th.setReg d (f ths q.2)) s

/-- SHFL by rank (R354): function 0 IDX, 1 UP, 2 DN, 3 XOR. -/
def shfl (fn : Nat) (ls : List ThreadRef) (d s : Nat) (ths : List Thread) (rank : Nat) : Word :=
  let me := ths.getD rank (Thread.fresh 0 0)
  let k := (me.reg d).toNat
  let src : Int := match fn with
    | 0 => k
    | 1 => (rank : Int) - k
    | 2 => rank + k
    | _ => (rank ^^^ k : Nat)
  if 0 <= src && src < ls.length then (ths.getD src.toNat me).reg s else me.reg s

/-- VOTE (R355): function 0 ALL, 1 ANY, 2 BALLOT, 3 EQ. -/
def vote (fn : Nat) (ls : List ThreadRef) (s : Nat) (ths : List Thread) (_rank : Nat) : Word :=
  let xs := ths.map fun th => th.reg s
  match fn with
  | 0 => if xs.all (· != 0) then 1 else 0
  | 1 => if xs.any (· != 0) then 1 else 0
  | 2 => ((ls.zip xs).filter fun q => q.2 != 0).foldl (fun acc q => acc ||| laneBit (q.1.tid % 32)) 0
  | _ => if xs.all (· == xs.headD 0) then 1 else 0

/-- The function of REDUX (R355). -/
def reduxFn (fn : Nat) (a b : Word) : Word :=
  match fn with
  | 0 => a + b
  | 1 => if b.slt a then b else a
  | 2 => if a.slt b then b else a
  | 3 => if b.ult a then b else a
  | 4 => if a.ult b then b else a
  | 5 => a &&& b
  | 6 => a ||| b
  | _ => a ^^^ b

/-- REDUX over the members in ascending lane order (R355). -/
def redux (fn : Nat) (_ls : List ThreadRef) (s : Nat) (ths : List Thread) (_rank : Nat) : Word :=
  match ths.map fun th => th.reg s with
  | [] => 0
  | x :: xs => xs.foldl (reduxFn fn) x

/-- MATCH (R355). -/
def matchOf (ls : List ThreadRef) (s : Nat) (ths : List Thread) (rank : Nat) : Word :=
  let xs := ths.map fun th => th.reg s
  ((ls.zip xs).filter fun q => q.2 = xs.getD rank 0).foldl (fun acc q => acc ||| laneBit (q.1.tid % 32)) 0

/-! ## Full-group words (R91) -/

/-- A thread that cannot arrive: it waits at a REJOIN, a collective, a SYNC.WAIT or a full-group word elsewhere. -/
def Thread.cannotArrive (th : Thread) (at_ : Pc) : Bool :=
  match th.status with
  | .waiting (.rejoin _) | .waiting (.collective _ _) | .waiting (.sync _ _) => true
  | .waiting (.fullGroup p) => p != at_
  | _ => false

/-- The full-group word that a thread waits at. -/
def Thread.fullAt (th : Thread) : Option Pc :=
  match th.status with
  | .waiting (.fullGroup p) => some p
  | _ => none

/-- Every thread of the group waits at one full-group word. -/
def Group.allWait (g : Group) (at_ : Pc) : Bool := g.threads.all fun th => th.fullAt = some at_

/-- ILLEGAL_CONVERGENCE for the threads that wait at a full-group word of a group when a member has exited or no absent
member can arrive (R91). -/
def State.convergeCheck (s : State) (t g : Nat) : State :=
  match s.group? t g with
  | none => s
  | some gr =>
    let doomed (p : Pc) : Bool := (gr.threads.any fun th => th.status = .exited)
      || gr.threads.all fun th => th.fullAt = some p || th.cannotArrive p
    let out := gr.threads.zipIdx.filter fun q => match q.1.fullAt with
      | some p => !gr.allWait p && doomed p
      | none => false
    s.forRefs (out.map fun q => ⟨t, 32 * g + q.2⟩) fun s r => s.raise r cILLEGAL_CONVERGENCE

/-- A full-group word: the bundle's threads arrive; with all 32 members at one place, and their operands there (R57), it acts,
and the whole group is the bundle from then on.  Where some of them stand at the first word of the issue group, all 32 issue the
whole group. -/
def fullWord (i : Instr) (act : State → Nat → Nat → State) (st : State) : Res :=
  let pc := st.issue.pc
  let st := st.eachIssuing i fun s _ => s
  match st.issue.bundle.head? with
  | none => .next st
  | some r0 =>
    let t := r0.team
    let g := r0.tid / 32
    let refs := (List.range 32).map fun l => (⟨t, 32 * g + l⟩ : ThreadRef)
    let here (r : ThreadRef) : Bool := st.issue.bundle.contains r ||
      (st.thread? r).any fun th => th.fullAt = some pc && th.pc = pc
    if refs.all here && !refs.any fun r => st.operandPending st.issue.core r i then
      let st := st.joined refs
      .next (act { st with issue := { st.issue with bundle := refs } } t g)
    else
      let st := st.forRefs st.issue.bundle fun s r => s.block r (.fullGroup pc)
      .next (st.convergeCheck t g)

/-- SHFL_IDX (R354).  -/
def execShflIdx (c : Bool) (d : BitVec 6) (s : BitVec 6) (m : BitVec 6) (st : State) : Res :=
  memberWord (.shflIdx c d s m) m.toNat (fun st ls => st.setLanes ls d.toNat fun c => shfl 0 ls d.toNat s.toNat c) st

/-- SHFL_UP (R354).  -/
def execShflUp (c : Bool) (d : BitVec 6) (s : BitVec 6) (m : BitVec 6) (st : State) : Res :=
  memberWord (.shflUp c d s m) m.toNat (fun st ls => st.setLanes ls d.toNat fun c => shfl 1 ls d.toNat s.toNat c) st

/-- SHFL_DN (R354).  -/
def execShflDn (c : Bool) (d : BitVec 6) (s : BitVec 6) (m : BitVec 6) (st : State) : Res :=
  memberWord (.shflDn c d s m) m.toNat (fun st ls => st.setLanes ls d.toNat fun c => shfl 2 ls d.toNat s.toNat c) st

/-- SHFL_XOR (R354).  -/
def execShflXor (c : Bool) (d : BitVec 6) (s : BitVec 6) (m : BitVec 6) (st : State) : Res :=
  memberWord (.shflXor c d s m) m.toNat (fun st ls => st.setLanes ls d.toNat fun c => shfl 3 ls d.toNat s.toNat c) st

/-- VOTE_ALL (R355).  -/
def execVoteAll (c : Bool) (d : BitVec 6) (s : BitVec 6) (m : BitVec 6) (st : State) : Res :=
  memberWord (.voteAll c d s m) m.toNat (fun st ls => st.setLanes ls d.toNat fun c => vote 0 ls s.toNat c) st

/-- VOTE_ANY (R355).  -/
def execVoteAny (c : Bool) (d : BitVec 6) (s : BitVec 6) (m : BitVec 6) (st : State) : Res :=
  memberWord (.voteAny c d s m) m.toNat (fun st ls => st.setLanes ls d.toNat fun c => vote 1 ls s.toNat c) st

/-- VOTE_BALLOT (R355).  -/
def execVoteBallot (c : Bool) (d : BitVec 6) (s : BitVec 6) (m : BitVec 6) (st : State) : Res :=
  memberWord (.voteBallot c d s m) m.toNat (fun st ls => st.setLanes ls d.toNat fun c => vote 2 ls s.toNat c) st

/-- VOTE_EQ (R355).  -/
def execVoteEq (c : Bool) (d : BitVec 6) (s : BitVec 6) (m : BitVec 6) (st : State) : Res :=
  memberWord (.voteEq c d s m) m.toNat (fun st ls => st.setLanes ls d.toNat fun c => vote 3 ls s.toNat c) st

/-- REDUX_ADD (R355).  -/
def execReduxAdd (c : Bool) (d : BitVec 6) (s : BitVec 6) (m : BitVec 6) (st : State) : Res :=
  memberWord (.reduxAdd c d s m) m.toNat (fun st ls => st.setLanes ls d.toNat fun c => redux 0 ls s.toNat c) st

/-- REDUX_MIN (R355).  -/
def execReduxMin (c : Bool) (d : BitVec 6) (s : BitVec 6) (m : BitVec 6) (st : State) : Res :=
  memberWord (.reduxMin c d s m) m.toNat (fun st ls => st.setLanes ls d.toNat fun c => redux 1 ls s.toNat c) st

/-- REDUX_MAX (R355).  -/
def execReduxMax (c : Bool) (d : BitVec 6) (s : BitVec 6) (m : BitVec 6) (st : State) : Res :=
  memberWord (.reduxMax c d s m) m.toNat (fun st ls => st.setLanes ls d.toNat fun c => redux 2 ls s.toNat c) st

/-- REDUX_UMIN (R355).  -/
def execReduxUmin (c : Bool) (d : BitVec 6) (s : BitVec 6) (m : BitVec 6) (st : State) : Res :=
  memberWord (.reduxUmin c d s m) m.toNat (fun st ls => st.setLanes ls d.toNat fun c => redux 3 ls s.toNat c) st

/-- REDUX_UMAX (R355).  -/
def execReduxUmax (c : Bool) (d : BitVec 6) (s : BitVec 6) (m : BitVec 6) (st : State) : Res :=
  memberWord (.reduxUmax c d s m) m.toNat (fun st ls => st.setLanes ls d.toNat fun c => redux 4 ls s.toNat c) st

/-- REDUX_AND (R355).  -/
def execReduxAnd (c : Bool) (d : BitVec 6) (s : BitVec 6) (m : BitVec 6) (st : State) : Res :=
  memberWord (.reduxAnd c d s m) m.toNat (fun st ls => st.setLanes ls d.toNat fun c => redux 5 ls s.toNat c) st

/-- REDUX_OR (R355).  -/
def execReduxOr (c : Bool) (d : BitVec 6) (s : BitVec 6) (m : BitVec 6) (st : State) : Res :=
  memberWord (.reduxOr c d s m) m.toNat (fun st ls => st.setLanes ls d.toNat fun c => redux 6 ls s.toNat c) st

/-- REDUX_XOR (R355).  -/
def execReduxXor (c : Bool) (d : BitVec 6) (s : BitVec 6) (m : BitVec 6) (st : State) : Res :=
  memberWord (.reduxXor c d s m) m.toNat (fun st ls => st.setLanes ls d.toNat fun c => redux 7 ls s.toNat c) st

/-- MATCH (R355).  -/
def execMatch (c : Bool) (d : BitVec 6) (s : BitVec 6) (m : BitVec 6) (st : State) : Res :=
  memberWord (.match c d s m) m.toNat (fun st ls => st.setLanes ls d.toNat fun c => matchOf ls s.toNat c) st

/-! ## The convergence limit (R90, R91) -/

/-- An arrival joins the instances at its place whose named lanes meet its own (DEDUCED, log entry 61). -/
def addArrival (ls : List Limit) (x : Limit) : List Limit :=
  let p := ls.partition fun y => y.pc = x.pc && y.full = x.full && y.named &&& x.named != 0
  p.1.foldl (fun (a b : Limit) => { a with arrived := a.arrived ||| b.arrived, named := a.named ||| b.named }) x :: p.2

/-- The collective instances of a group and the full-group words that some of its threads have reached. -/
def Group.instances (g : Group) : List Limit :=
  (g.threads.zipIdx.filterMap fun (q : Thread × Nat) => match q.1.status with
    | .waiting (.collective m p) => some ⟨p, false, laneBit q.2, m ||| laneBit q.2, 0, false⟩
    | .waiting (.fullGroup p) => some ⟨p, true, laneBit q.2, 0xFFFFFFFF, 0, false⟩
    | _ => none).foldl addArrival []

/-- The front cycles between two counts in which no named member of an instance was parked or stopped: those before the first of
them parked (R90). -/
def Group.freeCycles (g : Group) (named : Word) (from_ d : Nat) : Nat :=
  g.threads.zipIdx.foldl (fun (m : Nat) (q : Thread × Nat) =>
    if !named.getLsbD q.2 then m
    else if g.stopped || q.1.stopped then 0
    else match q.1.status with
      | .parked _ => min m (q.1.parkedAt - from_)
      | _ => m) d

/-- A named member is parked, or stopped by a debugger. -/
def Group.holdsLimit (g : Group) (named : Word) : Bool :=
  g.threads.zipIdx.any fun q => named.getLsbD q.2 && (g.stopped || q.1.stopped || match q.1.status with
    | .parked _ => true
    | _ => false)

/-- Some member that the instance names has not arrived. -/
def Limit.absent (x : Limit) : Bool := x.named &&& ~~~x.arrived != 0

/-- The counts after d front cycles from a cycle on: an instance that goes on keeps its count.  Cycles with a named member parked or
stopped are not counted, and none once all have arrived. -/
def Group.countLimits (g : Group) (from_ d : Nat) : List Limit :=
  g.instances.map fun x =>
    let old := g.limits.filter fun y => y.pc = x.pc && y.full = x.full && y.arrived &&& x.arrived != 0
    { x with
      count := (old.map Limit.count).foldl max 0 + (if old.isEmpty || !x.absent then 0 else g.freeCycles x.named from_ d)
      held := g.holdsLimit x.named }

/-- The instances of a group that are counted now: one with no absent member, or with a named member parked or stopped, is
not. -/
def Group.counting (g : Group) : List Limit := (g.countLimits 0 0).filter fun x => x.absent && !x.held

/-- The convergence limit of a team's context. -/
def State.limitOf (s : State) (t : Team) : Nat := ((s.ctx? t.ctx).map Ctx.convlim).getD 0

/-- The limit passes for an instance: its cause is raised for every thread that has arrived. -/
def State.raiseLimit (s : State) (team grp : Nat) (x : Limit) : State :=
  s.forRefs ((maskLanes x.arrived).map fun l => ⟨team, 32 * grp + l⟩) fun s r =>
    s.raise r (if x.full then cILLEGAL_CONVERGENCE else cCONVERGE_TIMEOUT)

/-- The instance with the greatest count; the first on a tie. -/
def longest : List Limit → Option Limit
  | [] => none
  | x :: xs => match longest xs with
    | none => some x
    | some y => if x.count < y.count then some y else some x

/-- CONVERGENCE_TIMEOUT (R89 to R91): the convergence limit passes for the instance at a place of a group that has been counted
for longest; the core counts the front cycles that are left to the limit. -/
def execConvergenceTimeout (team : Nat) (grp : Nat) (pkt : BitVec 32) (slot : Nat) (st : State) : Res :=
  .next (
    match st.team? team, st.group? team grp with
    | some tm, some g =>
      if tm.state != .resident then st
      else match longest (g.counting.filter fun x => x.pc = ⟨pkt, slot⟩) with
        | some x => (st.countTo tm.core ((st.core tm.core).counted + (st.limitOf tm - x.count))).raiseLimit team grp x
        | none => st
    | _, _ => st)

end Sys2Proof.Machine
end

