-- ==== Sys2Proof/Machine/QueueAccess.lean ====
section
/-!
DEFINITION. Accesses that a host queue makes for itself (R395), the STATUS word and QDONE (R141, R143), and the event ring
(R145).
-/
namespace Sys2Proof.Machine

/-- Freeze every queue of a function (R147). -/
def State.freezeQueues (s : State) (fn : Nat) : State :=
  (List.range 16).foldl (fun s q => s.updQueue fn q fun k => { k with frozen := true }) s

/-- How a queue's access ends. -/
inductive QEnd where
  | ok (data : List Byte)
  | wait
  /-- Refused, lost, or not answered: treated as under REFUSE_KILL. -/
  | fail
deriving DecidableEq, Repr

/-- What a queue's access does at its home: read n bytes, write, or add to 8 bytes. -/
inductive QOp where
  | read (n : Nat)
  | write (data : List Byte)
  | add (v : Nat)
deriving DecidableEq, Repr

/-- The access writes. -/
def QOp.writes : QOp → Bool
  | .read _ => false
  | _ => true

/-- Virtual address of packet i (R139). -/
def HostQueue.slotVa (q : HostQueue) (i : Word) : Nat := q.qbase.toNat + 64 * (i.toNat % 2 ^ q.log2n)

/-- Note an access that has no end yet. -/
def State.noteAccess (s : State) (qu : HostQueue) (a : QAccess) : State :=
  s.updQueue qu.fn qu.q fun k => { k with accs := k.accs ++ [a] }

/-- An access is the one for a packet, or for a launch message, of a context at an address. -/
def QAccess.isFor (a : QAccess) (ctx : Nat) (pkt : Word) (va : Nat) (frame : Option Nat) : Bool :=
  a.ctx = ctx && a.pkt = pkt && a.va = va && a.frame = frame

/-- Forget such an access. -/
def State.dropAccess (s : State) (qu : HostQueue) (pkt : Word) (va : Nat) (frame : Option Nat) : State :=
  s.updQueue qu.fn qu.q fun k => { k with accs := k.accs.filter fun a => !a.isFor qu.ctxid pkt va frame }

/-- Perform a queue's access at a home of this package or the host. -/
def State.queueAt (s : State) (ctx va : Nat) (h : Home) (op : QOp) : State × QEnd :=
  match op with
  | .read n => (s, .ok (s.homeRead h n))
  | .write data => (((s.sluiceHome ctx va h true).homeWrite h data).dropReplicas ctx va, .ok [])
  | .add v =>
    let sum := (leNat (s.homeRead h 8) + v) % 2 ^ 64
    (((s.sluiceHome ctx va h true).homeWrite h (leBytes sum 8)).dropReplicas ctx va, .ok [])

/-- Send a queue's access to a peer device (R265). -/
def State.queueRemote (s : State) (qu : HostQueue) (pkt : Word) (va dev wa : Nat) (op : QOp) (frame : Option Nat) : State × QEnd :=
  if !s.reachable dev then (s.noPort dev, .fail)
  else
    let q := s.takeTx
    let tag := ((s.ctx? qu.ctxid).map fun k => k.ntag.toNat).getD 0
    let hdr (type fn : Nat) : FrameHdr := ⟨dev, 0, 0, type, 0, 0, tag, 0, wa, q.2, fn, 0⟩
    let s := match op with
      | .read n => q.1.sendFrame (hdr 2 0) (leBytes n 2)
      | .write data => q.1.sendFrame (hdr 3 0) data
      | .add v => q.1.sendFrame (hdr 4 0x0C) (leBytes v 8)
    (s.noteAccess qu ⟨qu.ctxid, pkt, va, some q.2, dev, false, none, s.now, frame⟩, .wait)

/-- A queue's access, made for the first time or again (R395). -/
def State.queueTry (s : State) (qu : HostQueue) (pkt : Word) (va : Nat) (op : QOp) (frame : Option Nat) : State × QEnd :=
  match s.tableWalk qu.ctxid va op.writes with
  | (s, .badVa) => (s, .fail)
  | (s, .wait) => (s, .wait)
  | (s, .home (.peer dev wa)) => s.queueRemote qu pkt va dev wa op frame
  | (s, .home h) => s.queueAt qu.ctxid va h op
  | (s, .cause c l) =>
    if c = cPAGE_ABSENT then
      ((s.openRequest qu.ctxid va (if op.writes then 2 else 1) 0 l).noteAccess qu ⟨qu.ctxid, pkt, va, none, 0, false, none, s.now, frame⟩, .wait)
    else if c = cPAGE_PROT then
      ((s.freezeQueues qu.fn).noteAccess qu ⟨qu.ctxid, pkt, va, none, 0, true, none, s.now, frame⟩, .wait)
    else (s, .fail)

/-- A queue's access at va for packet pkt, or for a launch message: its end, or it waits. -/
def State.queueAccess (s : State) (qu : HostQueue) (pkt : Word) (va : Nat) (op : QOp) (frame : Option Nat := none) : State × QEnd :=
  match qu.accs.find? fun a => a.isFor qu.ctxid pkt va frame with
  | none => s.queueTry qu pkt va op frame
  | some a =>
    let drop (s : State) : State := s.dropAccess qu pkt va frame
    if a.hold then (s, .wait)
    else match a.res with
      | some (some data) => (drop s, .ok data)
      | some none => (drop s, .fail)
      | none =>
        if a.txid.isSome || s.pageReqs.any fun q => q.ctx = qu.ctxid && q.page = va / 65536 then (s, .wait)
        else (drop s).queueTry qu pkt va op frame

/-! ## STATUS and QDONE -/

def stDONE : Nat := 1
def stFAILED : Nat := 2
def stNOFIT : Nat := 3
def stNOSAVE : Nat := 4
def stDIELOST : Nat := 5
def stABORTED : Nat := 6
def stTIMEOUT : Nat := 7
def stNOCKPT : Nat := 8
def stMALFORMED : Nat := 9
def stSKIPPED : Nat := 10
def stFAULTED : Nat := 11

/-- Write the STATUS word of a packet at its ring address (R141). -/
def State.putStatus (s : State) (ctx addr status detail : Nat) : State :=
  s.firmwareStore ctx (addr + 4) (leBytes (status + 256 * detail) 4)

/-- Drop the leading packets that are complete, counting QDONE up (R143). -/
def passDone : List Packet → Word → List Packet × Word
  | [], d => ([], d)
  | p :: ps, d => if p.complete && p.index = d then passDone ps (d + 1) else (p :: ps, d)

/-- The queue as a context's packet sees it: EN may since have bound it to another context (R143). -/
def State.queueFor (s : State) (fn q ctx : Nat) : HostQueue := { s.queue fn q with ctxid := ctx }

/-- A packet completes with a status: STATUS is written once, and QDONE passes it and what is complete before it. -/
def State.completePacket (s : State) (fn q : Nat) (pkt : Word) (status detail : Nat) : State :=
  let qu := s.queue fn q
  match qu.pkts.find? fun p => p.index = pkt && !p.complete with
  | none => s
  | some p =>
    let s := s.putStatus p.ctx p.addr status detail
    s.updQueue fn q fun k =>
      let d := passDone (k.pkts.map fun x => if x.index = pkt then { x with complete := true } else x) k.qdone
      { k with pkts := d.1, qdone := d.2, accs := k.accs.filter fun a => a.pkt != pkt || a.frame.isSome }

/-! ## The event ring (R145) -/

/-- Write the oldest kill record that waits to its queue's ring, or drop it where the ring is full.  The ring's address is one of the
context that the queue names now, also for a launch of a context that it named before (R145; DESIGN CHOICE, log entry 97). -/
def State.writeKill (s : State) : State :=
  match s.killRecs with
  | [] => s
  | (fn, q, bytes) :: rest =>
    let s : State := { s with killRecs := rest }
    let qu := s.queue fn q
    if (qu.evwr - qu.evrd).toNat = 64 then s.updQueue fn q fun k => { k with evlost := true }
    else
      (s.firmwareStore qu.ctxid (qu.evbase.toNat + 64 * (qu.evwr.toNat % 64)) bytes).updQueue fn q fun k =>
        { k with evwr := k.evwr + 1 }

/-- Write every kill record that waits. -/
def State.writeKills (s : State) : State := s.killRecs.foldl (fun s _ => s.writeKill) s

end Sys2Proof.Machine
end

