-- ==== Sys2Proof/Machine/EngineMath.lean ====
section
/-!
DEFINITION. The arithmetic of the matrix engine (R29 to R36) and the ranking of Sedge (R249).
-/
namespace Sys2Proof.Machine

/-- Flags the engine sets: it never sets NX or UF (R30). -/
def engFlags (fl : Nat) : Nat := fl &&& (flNV + flOF + flRC)

/-- An FP32 addition of the engine. -/
def engAdd (a b : Nat) : Nat × Nat := let (c, fl) := fadd fmtF32 0 a b; (c, engFlags fl)

/-- An FP32 product of the engine. -/
def engMul (a b : Nat) : Nat × Nat := let (c, fl) := fmul fmtF32 0 a b; (c, engFlags fl)

/-- The exact sum of a block's products, rounded once to FP32 (R30). -/
def blockSum (ps : List (FVal × FVal)) : Nat × Nat :=
  let prods := ps.map fun q => mulV q.1 q.2
  let fl := prods.foldl (fun acc q => acc ||| q.2) 0
  let vs := prods.map (·.1)
  let pinf := vs.any (· == .inf false)
  let ninf := vs.any (· == .inf true)
  let fl := if pinf && ninf then fl ||| flNV else fl
  match vs with
  | [] => (0, 0)
  | v :: rest =>
    let (c, f) := roundV fmtF32 0 (rest.foldl (fun acc x => (addV 0 acc x).1) v)
    (c, engFlags (fl ||| f))

/-- Cut a list into blocks of n. -/
def chunksOf (n : Nat) {α : Type} (l : List α) : Nat → List (List α)
  | 0 => []
  | k + 1 => l.take n :: chunksOf n (l.drop n) k

/-- Block results added in order (R30). -/
def sumBlocks (bs : List (Nat × Nat)) : Nat × Nat :=
  match bs with
  | [] => (0, 0)
  | b :: rest => rest.foldl (fun acc x => let (c, fl) := engAdd acc.1 x.1; (c, acc.2 ||| x.2 ||| fl)) b

/-- Element format of an MMA fmt (R365); INT8 formats have none. -/
def mmaFmt (fmt : Nat) : Fmt :=
  match fmt with
  | 1 => fmtE5M2
  | 3 => fmtBF16
  | 4 => fmtF16
  | _ => fmtE4M3

/-- The format's elements are 16 bits wide. -/
def wideFmt (fmt : Nat) : Bool := fmt = 3 || fmt = 4

/-- Element j of a lane's sixteen operand registers (R233). -/
def rowElem (wide : Bool) (row : List Word) (j : Nat) : Nat :=
  if wide then ((row.getD (j / 2) 0).extractLsb' (16 * (j % 2)) 16).toNat
  else ((row.getD (j / 4) 0).extractLsb' (8 * (j % 4)) 8).toNat

/-- Cell (k, n) of a bank as a format reads it (R232). -/
def Bank.cell (b : Bank) (wide : Bool) (k n : Nat) : Nat :=
  let c := (b.cells.getD (32 * k + n) 0).toNat
  if wide then c else c % 256

/-- A code of INT8 symmetric: its value, and whether it is reserved (R19, R32). -/
def int8Sym (c : Nat) : Int × Bool := if c = 128 then (0, true) else (if c < 128 then (c : Int) else (c : Int) - 256, false)

/-- An INT32 code of an exact integer. -/
def int32Code (x : Int) : Nat := (BitVec.ofInt 32 x).toNat

/-- The exact sum of E4M3 elements times integers, as a signed fraction; none when an element is a NaN. -/
def e4m3Sum (xs : List (FVal × Int)) : Option FVal :=
  xs.foldl (fun acc q => match acc, q.1 with
    | some a, .fin neg m e => some (addV 0 a (.fin (neg != decide (q.2 < 0)) (m * q.2.natAbs) e)).1
    | _, _ => none) (some (.fin false 0 0))

/-- One group term of a quantized bank (R36): elements, their codes, the scale and the zero point. -/
def groupTerm (fmt : Nat) (bad : Bool) (qmax : Nat) (elems codes : List Nat) (scale : Nat) (zp : Nat) : Nat × Nat :=
  let nan := canonNaN fmtF32
  let s := fdec fmtF16 scale
  let res := fmt = 6 && elems.any (· == 128)
  let fl := (if bad || qmax < zp then flNV ||| flRC else 0)
    ||| (match s with
      | .fin _ _ _ => 0
      | _ => flNV)
    ||| (if res then flNV ||| flRC else 0)
  let vals : List FVal := elems.map fun e =>
    if fmt = 6 then (let v := (int8Sym e).1; .fin (v < 0) v.natAbs 0) else fdec fmtE4M3 e
  let sq := e4m3Sum (vals.zip (codes.map fun c => (c : Int)))
  let sa := e4m3Sum (vals.map fun v => (v, (zp : Int)))
  match s, sq, sa with
  | .fin sneg sm se, some q, some a =>
    if fl != 0 then (nan, fl)
    else match (addV 0 q (negV a)).1 with
      | .fin neg m e =>
        if m = 0 then (signBit fmtF32 sneg, 0)
        else let (c, f) := roundV fmtF32 0 (.fin (sneg != neg) (sm * m) (se + e)); (c, engFlags f)
      | _ => (nan, 0)
  | _, _, _ => (nan, fl)

/-- A row's slot product in one column (R30, R31, R36, R241): FP32, or INT32 under fmt 2. -/
def slotProduct (fmt : Nat) (row : List Word) (b : Bank) (n : Nat) : Nat × Nat :=
  if b.quant != (fmt = 5 || fmt = 6) then
    (if fmt = 2 then 0 else canonNaN fmtF32, flNV ||| flRC)
  else if fmt = 2 then
    let terms := (List.range 64).map fun k =>
      let a := int8Sym (rowElem false row k)
      let w := int8Sym (b.cell false k n)
      (a.1 * w.1, a.2 || w.2)
    (int32Code (terms.map (·.1)).sum, if terms.any (·.2) then flNV ||| flRC else 0)
  else if fmt = 5 || fmt = 6 then
    let len := if b.gsz = 0 then 32 else 64
    let ng := 64 / len
    let qmax := if b.qbits = 0 then 15 else 255
    sumBlocks ((List.range ng).map fun g =>
      let ks := (List.range len).map fun i => g * len + i
      groupTerm fmt b.bad qmax (ks.map fun k => rowElem false row k) (ks.map fun k => b.cell false k n)
        ((b.scales.getD (32 * g + n) 0).toNat) ((b.zeros.getD (32 * g + n) 0).toNat))
  else
    let f := mmaFmt fmt
    let wide := wideFmt fmt
    let len := if wide then 32 else 64
    let ps := (List.range len).map fun k => (fdec f (rowElem wide row k), fdec f (b.cell wide k n))
    sumBlocks ((chunksOf 16 ps (len / 16)).map blockSum)

/-- dX of BWD at position k (R30, R243). -/
def bwdProduct (fmt : Nat) (row : List Word) (b : Bank) (k : Nat) : Nat × Nat :=
  if b.quant then (canonNaN fmtF32, flNV ||| flRC) else
  let f := mmaFmt fmt
  let ps := (List.range 32).map fun n => (fdec f (rowElem true row n), fdec f (b.cell true k n))
  sumBlocks ((chunksOf 16 ps 2).map blockSum)

/-- ACC: the scratch value added last (R30, R31). -/
def accLast (int : Bool) (v old : Nat) : Nat × Nat :=
  if int then
    let sum := (BitVec.ofNat 32 v).toInt + (BitVec.ofNat 32 old).toInt
    let r := satInt sum (-2147483648) 2147483647
    (int32Code r, if r = sum then 0 else flOF)
  else engAdd v old

/-- FWD2's value T of a row in one column (R33): the contributing slots with their gates, tag 0 first. -/
def fwd2Value (fmt : Nat) (row : List Word) (gate : Word) (b0 b1 : Option Bank) (n : Nat) : Nat × Nat :=
  let conv (p : Nat) : Nat := if fmt = 2 then (ofInt fmtF32 0 (BitVec.ofNat 32 p).toInt).1 else p
  let one (b : Bank) (g : Nat) : Nat × Nat :=
    let (p, fl) := slotProduct fmt row b n
    let (c, f) := engMul (g * 2 ^ 16) (conv p)
    (c, fl ||| f)
  let g0 := (gate.extractLsb' 0 16).toNat
  let g1 := (gate.extractLsb' 16 16).toNat
  match b0, b1 with
  | some x, some y =>
    let (a, f) := one x g0
    let (b, f') := one y g1
    let (c, f'') := engAdd a b
    (c, f ||| f' ||| f'')
  | some x, none => one x g0
  | none, some y => one y g1
  | none, none => (0, 0)

/-- One accumulator of GRAD after the rows that carry the bank's tag (R34): (x, dY) rows by lane, none for the others. -/
def gradCell (fmt : Nat) (quant : Bool) (rows : List (Option (List Word × List Word))) (k n : Nat) (acc : Nat) : Nat × Nat :=
  let f := mmaFmt fmt
  let block (rs : List (Option (List Word × List Word))) (acc : Nat × Nat) : Nat × Nat :=
    let ps := rs.filterMap fun r => r.map fun q => (fdec f (rowElem true q.1 k), fdec f (rowElem true q.2 n))
    if ps.isEmpty then acc
    else
      let (b, fl) := if quant then (canonNaN fmtF32, flNV ||| flRC) else blockSum ps
      let (c, fl') := engAdd acc.1 b
      (c, acc.2 ||| fl ||| fl')
  block (rows.drop 16) (block (rows.take 16) (acc, 0))

/-! ## Sedge (R249) -/

/-- An entry ranks above another. -/
def sedgeAbove (a b : Word × BitVec 16) : Bool :=
  let x := fdec fmtF32 a.1.toNat
  let y := fdec fmtF32 b.1.toNat
  let lower := a.2.ult b.2
  match x, y with
  | .nan _, .nan _ => lower
  | .nan _, _ => false
  | _, .nan _ => true
  | _, _ => match cmpV x y with
    | some c => if c = 0 then lower else 0 < c
    | none => false

/-- Insert into a row kept in rank order. -/
def sedgeInsert (e : Word × BitVec 16) : List (Word × BitVec 16) → List (Word × BitVec 16)
  | [] => [e]
  | x :: xs => if sedgeAbove e x then e :: x :: xs else x :: sedgeInsert e xs

/-- One offer to a row of k entries. -/
def sedgeOffer (k : Nat) (row : List (Word × BitVec 16)) (e : Word × BitVec 16) : List (Word × BitVec 16) :=
  match row.find? fun x => x.2 = e.2 with
  | some old => if sedgeAbove e old then sedgeInsert e (row.filter fun x => x.2 != e.2) else row
  | none => (sedgeInsert e row).take k

end Sys2Proof.Machine
end

