-- ==== Sys2Proof/Machine/Engine.lean ====
section
/-!
DEFINITION. The matrix engine: issue of MMA, BANK and TOPK words (R364 to R372), the engine queue (R235), the residency
table and banks (R236 to R241), MMA completion with misses and deferral (R243 to R248, R251), and Sedge (R249, R250).
-/
namespace Sys2Proof.Machine

/-! ## Arrivals -/

/-- One arrival of engine work on a team object, or its error phase with the cause posted in the issuing group (R186,
R251); a team that has ended takes neither. -/
def State.engineArrive (s : State) (team grp sig : Nat) (err : Option Cause) : State :=
  match s.team? team with
  | none => s
  | some tm =>
    match err with
    | none => if tm.state = .killing || tm.state = .ended then s else s.arriveOn tm sig
    | some c =>
      let s := s.post team grp c
      if tm.state = .killing || tm.state = .ended then s else s.errorOn tm sig c

/-- The sig object of a team is UNINIT. -/
def Team.sigUninit (tm : Team) (sig : Nat) : Bool := (tm.syncs.getD sig SyncObj.fresh).state = .uninit

/-! ## Issue of MMA (R368) -/

/-- The fields of an MMA word. -/
structure MmaWord where
  fn : Nat
  fmt : Nat
  abase : Nat
  o : Nat
  keep : Bool
  acc : Bool
  sig : Nat
  miss : Nat

/-- There is what an engine word waits for: a place in the queue of 16, one of four collectors where it takes one, and its region
(R235, R248, R338). -/
def Core.engineRoom (co : Core) (take : Bool) (region : Option (Nat × Nat × Bool)) : Bool :=
  !(take && 4 <= co.collectors.length) && co.engq.length < 16 && match region with
    | none => true
    | some (off, n, true) => (co.takeRange off n false).isSome
    | some (off, n, false) => !co.rangeBusy off n

/-- The group holds a collector beside those that its queued MMAs release when they start (R248). -/
def Core.holdsCollector (co : Core) (t g : Nat) : Bool :=
  let held := co.collectors.countP fun k => k.team = t && k.grp = g
  let leaves (e : EngOp) : Bool := match e with
    | .mma m => m.team = t && m.grp = g && m.useCol && !m.keep
    | _ => false
  co.engq.countP leaves < held

/-- A local scratch region of an engine word, as its core-physical offset or the cause (R237). -/
def State.engRegion (s : State) (tm : Team) (sa : Word) (n align : Nat) : Except Cause Nat :=
  if sa.toNat % align != 0 then .error cALIGN
  else if sa.getLsbD 25 then .error cSCRATCH_RANGE
  else match s.resolveScratch tm sa n with
    | .at_ _ off _ => .ok off
    | .cause c => .error c
    | .wait => .error cSCRATCH_RANGE

/-- How often each operand register of a lane has been written by the issue of an MMA; none where a load is pending
(R204). -/
def State.captureRegs (s : State) (co : Core) (r : ThreadRef) (base n : Nat) : List (Option Nat) :=
  let pend := (co.loads.filter fun l => l.ref = r).flatMap fun l => regSpan l.d l.words.length
  let th := (s.thread? r).getD (Thread.fresh 0 0)
  (regSpan base n).map fun k => if pend.contains k then none else some (th.writes.getD k 0)

/-- An MMA issues for a whole group: checks in R368's order, then what it captures, then the queue. -/
def State.issueMma (s : State) (t g : Nat) (w : MmaWord) : State :=
  match s.team? t, s.group? t g with
  | some tm, some gr =>
    let refs := (List.range 32).map fun l => (⟨t, 32 * g + l⟩ : ThreadRef)
    let fail (c : Cause) : State := s.forRefs refs fun s r => s.raise r c
    let grad := w.fn = 4
    let outWord := ((s.thread? ⟨t, 32 * g⟩).map fun th => th.reg w.o).getD 0
    let region : Except Cause Nat := if grad then .ok 0 else s.engRegion tm outWord 4096 128
    match region with
    | .error c => fail c
    | .ok out =>
      let len := gr.dqlen.toNat % 2 ^ 16
      let queue : Except Cause Nat :=
        if w.miss = 0 && w.fn != 2 && 0 < len then s.engRegion tm (gr.dqbase &&& 0x001FFFF8) (8 * len) 1 else .ok 0
      match queue with
      | .error c => fail c
      | .ok _ =>
        if tm.sigUninit w.sig then fail cSYNC_ERROR
        else
          let co := s.core tm.core
          let held := co.holdsCollector t g && !grad
          let take := w.keep && !held && !grad
          let wait (s : State) : State :=
            s.forRefs refs fun s r => s.block r (.room (.engine take (if grad then none else some (out, 4096, true))))
          if take && 4 <= co.collectors.length then wait s
          else if 16 <= co.engq.length then wait s
          else
            let range := if grad then some co else co.takeRange out 4096 false
            match range with
            | none => wait s
            | some co =>
              let ths := refs.map fun r => (s.thread? r).getD (Thread.fresh 0 0)
              let op : MmaOp := {
                team := t, grp := g, fn := w.fn, fmt := w.fmt, abase := w.abase, o := w.o, keep := w.keep, acc := w.acc
                out := out, sig := w.sig, miss := w.miss, useCol := held
                tags := ths.map Thread.seltag
                gates := ths.map Thread.selg
                seen := refs.map fun r => s.captureRegs co r w.abase 16 ++ (if grad then s.captureRegs co r w.o 16 else []) }
              s.updCore tm.core fun _ => { co with
                engq := co.engq ++ [.mma op]
                collectors := if take then co.collectors ++ [⟨t, g, []⟩] else co.collectors }
  | _, _ => s

/-! ## Issue of BANK and TOPK (R370, R372) -/

/-- Size, alignment and whether it writes scratch: the region of a BANK function (R237). -/
def bankRegion (fn : Nat) : Option (Nat × Nat × Bool) :=
  match fn with
  | 0 => some (4096, 256, false)
  | 1 => some (2304, 64, false)
  | 4 => some (8192, 256, true)
  | 5 => some (16, 16, true)
  | _ => none

/-- A BANK word acts once for its bundle, with the lowest lane's registers (R85, R370). -/
def bankWord (i : Instr) (fn s bank : Nat) (id8 : BitVec 8) (sig : Nat) (st : State) : Res :=
  let st := st.eachIssuing i fun s _ => s
  match st.issue.bundle.head? with
  | none => .next st
  | some r0 =>
    match st.team? r0.team, st.thread? r0 with
    | some tm, some th =>
      let refs := st.issue.bundle
      let fail (c : Cause) : Res := .next (st.forRefs refs fun s r => s.raise r c)
      let region : Except Cause Nat := match bankRegion fn with
        | some (n, al, _) => st.engRegion tm (th.reg s) n al
        | none => .ok 0
      match region with
      | .error c => fail c
      | .ok off =>
        if tm.sigUninit sig then fail cSYNC_ERROR
        else
          let co := st.core tm.core
          let wait : Res := .next (st.forRefs refs fun s r =>
            s.block r (.room (.engine false ((bankRegion fn).map fun q => (off, q.1, q.2.2)))))
          let op : EngOp := .bank tm.id (r0.tid / 32) fn bank off id8 sig
          if 16 <= co.engq.length then wait
          else match bankRegion fn with
            | some (n, _, true) =>
              match co.takeRange off n false with
              | some co => .next (st.updCore tm.core fun _ => { co with engq := co.engq ++ [op] })
              | none => wait
            | some (n, _, false) =>
              if co.rangeBusy off n then wait
              else .next (st.updCore tm.core fun c => { c with engq := c.engq ++ [op] })
            | none => .next (st.updCore tm.core fun c => { c with engq := c.engq ++ [op] })
    | _, _ => .next st

/-- TOPK.INIT acts once for its bundle, here once for each group of it (R372). -/
def topkInitWord (i : Instr) (k set : Nat) (st : State) : Res :=
  let st := st.eachIssuing i fun s _ => s
  match st.issue.bundle.head? with
  | none => .next st
  | some r0 =>
    match st.team? r0.team with
    | none => .next st
    | some tm =>
      if 16 <= (st.core tm.core).engq.length then .next (st.forRefs st.issue.bundle fun s r => s.block r (.room (.engine false none)))
      else .next (st.updCore tm.core fun c => { c with engq := c.engq ++ [.topkInit r0.team (r0.tid / 32) k set] })

/-- TOPK.READ: the group waits until the word starts (R372). -/
def topkReadWord (i : Instr) (set d : Nat) (st : State) : Res :=
  let granted : Bool := match st.issue.bundle.head? with
    | some r => ((st.thread? r).map fun (th : Thread) => th.grant.isSome).getD false
    | none => false
  if granted then
    .next (st.eachIssuing i fun s r => s.updThread r fun th => { th with grant := none })
  else
    fullWord i (fun st t g =>
      match st.team? t with
      | none => st
      | some tm =>
        let refs := (List.range 32).map fun l => (⟨t, 32 * g + l⟩ : ThreadRef)
        if 16 <= (st.core tm.core).engq.length then st.forRefs refs fun s r => s.block r (.room (.engine false none))
        else
          let st := st.updCore tm.core fun c => { c with engq := c.engq ++ [EngOp.topkRead t g set d] }
          st.forRefs refs fun s r => s.block r .engine) st

/-! ## Starting the head of the queue (R235) -/

/-- The bank a tag hits (R241). -/
def tagHit (banks : List Bank) (tag : BitVec 8) : Option Nat :=
  if tag = 0xFF then none
  else (banks.zipIdx.find? fun q => q.1.id = tag && (q.1.state = .loading || q.1.state = .resident)).map (·.2)

/-- Tag slots of a lane: slot 1 counts for FWD2 only (R242). -/
def slotTags (fn : Nat) (tag : Word) : BitVec 8 × BitVec 8 :=
  (tag.extractLsb' 0 8, if fn = 1 then tag.extractLsb' 8 8 else 0xFF)

/-- Banks an MMA uses. -/
def hitBanks (hits : List (Option Nat × Option Nat)) : List Nat := (hits.flatMap fun h => h.1.toList ++ h.2.toList).dedup

/-- A BANK function on bank b is running. -/
def Core.bankRunning (co : Core) (b : Nat) : Bool :=
  co.engRun.any fun e => match e.op with
    | .bank _ _ fn bank _ _ _ => bank = b && fn != 5
    | _ => false

/-- A started MMA. -/
def EngRun.isMma (e : EngRun) : Bool := match e.op with
  | .mma _ => true
  | _ => false

/-- A started FWDK into a Sedge set. -/
def EngRun.fwdkInto (e : EngRun) (set : Nat) : Bool := match e.op with
  | .mma m => m.fn = 2 && m.miss = set
  | _ => false

/-- Resolve every lane's tags against a residency table. -/
def MmaOp.resolveTags (m : MmaOp) (banks : List Bank) : List (Option Nat × Option Nat) :=
  m.tags.map fun t => let (a, b) := slotTags m.fn t; (tagHit banks a, tagHit banks b)

/-- The residency table with every drain ended: what a word queued behind the drains meets (R235, R239). -/
def Core.settledBanks (co : Core) : List Bank :=
  co.banks.map fun b => if b.state = .draining then { b with state := b.before } else b

/-- The word's own condition holds (R235). -/
def Core.mayStart (co : Core) (op : EngOp) : Bool :=
  match op with
  | .mma m => !co.engRun.any EngRun.isMma && !(hitBanks (m.resolveTags co.settledBanks)).any co.bankRunning
  | .bank _ _ fn bank _ _ _ =>
    if fn = 5 then true
    else !co.bankRunning bank && !co.engRun.any fun e => e.isMma && (hitBanks e.hits).contains bank
  | .topkInit _ _ _ set | .topkRead _ _ set _ => !co.engRun.any fun e => e.fwdkInto set

/-- Update bank b. -/
def Core.updBank (co : Core) (b : Nat) (f : Bank → Bank) : Core := { co with banks := co.banks.modify b f }

/-- The QUERY record (R240). -/
def queryRecord (banks : List Bank) : List Byte :=
  banks.flatMap fun b =>
    let st := match b.state with
      | .empty => 0
      | .loading => 1
      | .resident => 2
      | .draining => 3
    leBytes (b.id.toNat + 2 ^ 8 * st + (if b.quant then 2 ^ 10 else 0) + (if b.gacc then 2 ^ 11 else 0)
      + if b.lost then 2 ^ 12 else 0) 4

/-- A LDQ header that R238 calls reserved: a reserved field value or a nonzero zero field. -/
def ldqBad (bs : List Byte) : Bool :=
  let w := fieldAt bs 0 4
  1 < w % 4 || w / 4 % 4 = 3 || w / 16 != 0 || !zeroAt bs 4 60

/-- Bank contents from a loaded tile (R237, R238). -/
def Bank.filled (b : Bank) (quant : Bool) (bs : List Byte) : Bank :=
  if !quant then
    { b with state := .resident, cells := (List.range 2048).map fun i => BitVec.ofNat 16 (fieldAt bs (2 * i) 2), scales := [], zeros := [] }
  else
    let w := fieldAt bs 0 4
    let int8 := w % 4 = 1
    let gsz := w / 4 % 4
    let ng := if gsz = 0 then 2 else 1
    let c := if int8 then 2048 else 1024
    let code (i : Nat) : Nat := if int8 then fieldAt bs (64 + i) 1 else fieldAt bs (64 + i / 2) 1 / 16 ^ (i % 2) % 16
    { b with
      state := .resident
      bad := ldqBad bs
      qbits := w % 4
      gsz := gsz
      cells := (List.range 2048).map fun i => BitVec.ofNat 16 (code i)
      scales := (List.range (32 * ng)).map fun i => BitVec.ofNat 16 (fieldAt bs (64 + c + 2 * i) 2)
      zeros := (List.range (32 * ng)).map fun i => BitVec.ofNat 8 (fieldAt bs (64 + c + 64 * ng + i) 1) }

/-- What TOPK.READ gives a lane (R250). -/
def Thread.takeTopk (th : Thread) (row : List (Word × BitVec 16)) (d : Nat) : Thread :=
  let val (j : Nat) : Word := (row[j]?.map (·.1)).getD 0xFF800000
  let tag (j : Nat) : Nat := match row[j]? with
    | some e => if e.2.toNat <= 254 then e.2.toNat else 0xFF
    | none => 0xFF
  { (th.setReg d (val 0)).setReg (d + 1) (val 1) with
    seltag := BitVec.ofNat 32 (tag 0 + tag 1 * 2 ^ 8)
    status := .ready
    grant := some 0 }

/-- A BANK function starts: its effect on the table, and for those that end at once their arrival (R237, R239). -/
def State.startBank (s : State) (core : Nat) (op : EngOp) (team grp fn bank sa : Nat) (id8 : BitVec 8) (sig : Nat) : State :=
  let co := s.core core
  let bk := co.banks.getD bank Bank.scrubbed
  let run (data : List Byte) (f : Bank → Bank) : State := s.updCore core fun c =>
    { c.updBank bank f with engRun := c.engRun ++ [⟨op, [], data⟩] }
  if bk.gacc && fn <= 2 then s.engineArrive team grp sig (some cBANK_BUSY)
  else match fn with
    | 0 | 1 => run (co.scratch.readBytes sa (if fn = 0 then 4096 else 2304)) fun b =>
        { b with state := .loading, id := id8, quant := fn = 1, lost := false }
    | 2 => (s.updCore core fun c => c.updBank bank fun b => { b with state := .empty, id := 0xFF }).engineArrive team grp sig none
    | 3 => (s.updCore core fun c => c.updBank bank fun b => { b with acc := [], gacc := false }).engineArrive team grp sig none
    | 4 => run (bytesOf ((List.range 2048).map fun i => bk.acc.getD i 0)) fun b =>
        { b with before := b.state, state := .draining }
    | _ => run (queryRecord co.banks) id

/-- An MMA that reads its collector holds the rows from its start; without keep the collector is free then (R248). -/
def Core.startMma (c : Core) (m : MmaOp) : Core :=
  let mine (k : Collector) : Bool := k.team = m.team && k.grp = m.grp
  let rows := if m.useCol then ((c.collectors.find? mine).map Collector.rows).getD [] else []
  { c with
    engRun := c.engRun ++ [⟨.mma m, m.resolveTags c.banks, bytesOf rows.flatten⟩]
    collectors := if m.useCol && !m.keep then c.collectors.eraseIdx (c.collectors.findIdx mine) else c.collectors }

/-- The head of a core's engine queue starts, if its condition holds. -/
def State.engineStart (s : State) (core : Nat) : State :=
  let co := s.core core
  match co.engq with
  | [] => s
  | op :: rest =>
    if !co.mayStart op then s else
    let s := s.updCore core fun c => { c with engq := rest }
    match op with
    | .mma m => s.updCore core fun c => c.startMma m
    | .bank team grp fn bank sa id8 sig => s.startBank core op team grp fn bank sa id8 sig
    | .topkInit team _ k set =>
      s.updCore core fun c => { c with sedge := c.sedge.set set ⟨k, some team, List.replicate 32 []⟩ }
    | .topkRead team grp set d =>
      let rows := ((s.core core).sedge.getD set Sedge.scrubbed).rows
      (List.range 32).foldl (fun s l => s.updThread ⟨team, 32 * grp + l⟩ fun th =>
        if th.status = .waiting .engine then th.takeTopk (rows.getD l []) d else th) s

/-! ## MMA completion (R243 to R251) -/

/-- An undefined operand word: a free value told from those of the team's own context alone (R4, log entry 4). -/
def State.undefinedAt (s : State) (m : MmaOp) (i : Nat) : Word :=
  Config.undefinedWord (((s.team? m.team).map fun t => ((s.ctx? t.ctx).map Ctx.undef).getD 0).getD 0 + i)

/-- The operand words of a lane: its registers, undefined where a load was pending at issue or the register has been written
since (R204, log entry 4). -/
def State.operandRow (s : State) (m : MmaOp) (lane from_ n base : Nat) : List Word :=
  let th := (s.thread? ⟨m.team, 32 * m.grp + lane⟩).getD (Thread.fresh 0 0)
  let seen := m.seen.getD lane []
  (List.range n).map fun i =>
    if seen.getD (from_ + i) none = some (th.writes.getD (base + i) 0) then th.reg (base + i)
    else s.undefinedAt m (32 * lane + from_ + i)

/-- The A operand of an MMA, lane by lane: the collector's rows, which it holds since its start, or the registers (R233, R248).
The rows of a collector that was released before the MMA started are undefined (DESIGN CHOICE, log entry 76). -/
def State.operandA (s : State) (m : MmaOp) (held : List Byte) : List (List Word) :=
  if m.useCol then
    if held.isEmpty then (List.range 32).map fun l => (List.range 16).map fun i => s.undefinedAt m (32 * l + i)
    else (List.range 32).map fun l => wordsOf ((held.drop (64 * l)).take 64) 16
  else (List.range 32).map fun l => s.operandRow m l 0 16 m.abase

/-- Slots that miss, in the order of R246: lane, slot and tag. -/
def missSlots (m : MmaOp) (hits : List (Option Nat × Option Nat)) : List (Nat × Nat × BitVec 8) :=
  if m.fn = 2 then [] else
  (List.range 32).flatMap fun l =>
    let (a, b) := slotTags m.fn (m.tags.getD l 0)
    let h := hits.getD l (none, none)
    (if a != 0xFF && h.1.isNone then [(l, 0, a)] else []) ++ (if b != 0xFF && h.2.isNone then [(l, 1, b)] else [])

/-- The two words of a deferral entry (R246). -/
def deferEntry (m : MmaOp) (q : Nat × Nat × BitVec 8) : List Byte :=
  let gslot := if m.fn = 1 then 1 + q.2.1 else 0
  let gate := m.gates.getD q.1 0
  let gw := if m.fn = 1 then (gate.extractLsb' (16 * q.2.1) 16).toNat else 0
  leBytes ((32 * m.grp + q.1) + q.2.2.toNat * 2 ^ 16 + gslot * 2 ^ 24 + q.2.1 * 2 ^ 26) 4 ++ leBytes (gw + m.fn * 2 ^ 16) 4

/-- One output row before ACC: 32 codes with flags (R243). -/
def mmaRow (m : MmaOp) (banks : List Bank) (row : List Word) (gate : Word) (hit : Option Nat × Option Nat) : List (Nat × Nat) :=
  let bk (h : Option Nat) : Option Bank := h.bind fun b => banks[b]?
  (List.range 32).map fun n =>
    match m.fn with
    | 1 => fwd2Value m.fmt row gate (bk hit.1) (bk hit.2) n
    | 3 => ((bk hit.1).map fun b => bwdProduct m.fmt row b n).getD (0, 0)
    | _ => ((bk hit.1).map fun b => slotProduct m.fmt row b n).getD (0, 0)

/-- Every output of an MMA that writes scratch: rows of 32 words, and the flags. -/
def State.mmaOutputs (s : State) (core : Nat) (m : MmaOp) (hits : List (Option Nat × Option Nat)) (a : List (List Word)) :
    List (List Word) × Nat :=
  let co := s.core core
  let int := m.fmt = 2 && m.fn != 1
  let rows := (List.range 32).map fun r =>
    let vals := mmaRow m co.banks (a.getD r []) (m.gates.getD r 0) (hits.getD r (none, none))
    let old := if m.acc then wordsOf (co.scratch.readBytes (m.out + 128 * r) 128) 32 else []
    vals.zipIdx.map fun q =>
      if m.acc then
        let (c, fl) := accLast int q.1.1 (old.getD q.2 0).toNat
        (c, q.1.2 ||| fl)
      else q.1
  (rows.map fun r => r.map fun q => BitVec.ofNat 32 q.1, (rows.flatMap fun r => r.map (·.2)).foldl (· ||| ·) 0)

/-- Offers of FWDK to its Sedge set (R249). -/
def sedgeRows (m : MmaOp) (banks : List Bank) (set : Sedge) (hits : List (Option Nat × Option Nat)) (outs : List (List Word)) :
    List (List (Word × BitVec 16)) :=
  (List.range 32).map fun r =>
    let row := set.rows.getD r []
    match (hits.getD r (none, none)).1 with
    | none => row
    | some b =>
      let id := (banks.getD b Bank.scrubbed).id.toNat
      ((outs.getD r []).zipIdx).foldl (fun acc q =>
        let v : Word := if m.fmt = 2 then BitVec.ofNat 32 (ofInt fmtF32 0 q.1.toInt).1 else q.1
        sedgeOffer set.k acc (v, BitVec.ofNat 16 (id * 32 + q.2))) row

/-- GRAD into every bank some row hits (R34, R243): the banks, and the flags. -/
def State.mmaGrads (s : State) (core : Nat) (m : MmaOp) (hits : List (Option Nat × Option Nat)) : List Bank × Nat :=
  let co := s.core core
  let xs := (List.range 32).map fun l => (s.operandRow m l 0 16 m.abase, s.operandRow m l 16 16 m.o)
  let res := co.banks.zipIdx.map fun q =>
    let rows := (List.range 32).map fun l =>
      if (hits.getD l (none, none)).1 = some q.2 then some (xs.getD l ([], [])) else none
    if rows.all Option.isNone then (q.1, 0)
    else
      let cells := (List.range 2048).map fun i =>
        let old := (q.1.acc.getD i 0).toNat
        if i < 1024 then gradCell m.fmt q.1.quant rows (i / 32) (i % 32) old else (old, 0)
      ({ q.1 with acc := cells.map fun c => BitVec.ofNat 32 c.1, gacc := true }, (cells.map (·.2)).foldl (· ||| ·) 0)
  (res.map (·.1), (res.map (·.2)).foldl (· ||| ·) 0)

/-- Deferral of every missing slot (R245 to R247): entries below LEN are written and counted, the others overflow. -/
def State.deferMisses (s : State) (core : Nat) (m : MmaOp) (misses : List (Nat × Nat × BitVec 8)) : State × Bool :=
  let win := ((s.team? m.team).map Team.winBase).getD 0
  misses.foldl (fun (acc : State × Bool) q =>
    match acc.1.group? m.team m.grp with
    | none => acc
    | some g =>
      let cnt := g.dqcnt.toNat % 2 ^ 16
      if cnt < g.dqlen.toNat % 2 ^ 16 then
        let at_ := win + (g.dqbase &&& 0x001FFFF8).toNat + 8 * cnt
        let s := acc.1.updCore core fun c => { c with scratch := c.scratch.writeBytes at_ (deferEntry m q) }
        (s.updGroup m.team m.grp (fun g => { g with dqcnt := g.dqcnt + 1 }), acc.2)
      else (acc.1, true)) (s, false)

/-- The collectors after an MMA: filled by keep, unless their group cannot use them any more. -/
def State.settleCollectors (s : State) (core : Nat) (m : MmaOp) (a : List (List Word)) : State :=
  let gone : Bool := match s.team? m.team with
    | some tm => tm.state = .killing || tm.state = .ended
        || ((tm.groups[m.grp]?).map fun g => g.threads.any fun th => th.status = .exited).getD true
    | none => true
  s.updCore core fun c =>
    let mine (k : Collector) : Bool := k.team = m.team && k.grp = m.grp
    let cs := if m.fn != 4 && m.keep && !m.useCol then
        c.collectors.modify (c.collectors.findIdx fun k => mine k && k.rows.isEmpty) fun k => { k with rows := a }
      else c.collectors
    { c with collectors := if gone then cs.filter fun k => !mine k else cs }

/-- The results of an MMA: accumulators for GRAD; else the outputs, and FWDK's offers to its set. -/
def State.mmaWrite (s : State) (core : Nat) (m : MmaOp) (hits : List (Option Nat × Option Nat)) (outs : List (List Word))
    (banks : List Bank) : State :=
  if m.fn = 4 then s.updCore core fun c => { c with banks := banks }
  else
    let s := s.updCore core fun c =>
      let c := { c with scratch := c.scratch.writeBytes m.out (bytesOf outs.flatten) }
      if m.fn = 2 then
        { c with sedge := c.sedge.modify m.miss fun q => { q with rows := sedgeRows m c.banks q hits outs } }
      else c
    s.markDirty core m.out 4096

/-- The started MMA of a core completes (R243 to R251, R368). -/
def State.mmaDone (s : State) (core : Nat) : State :=
  match (s.core core).engRun.find? EngRun.isMma with
  | none => s
  | some e =>
    match e.op with
    | .mma m =>
      let misses := missSlots m e.hits
      let s := s.updCore core fun c => { c with engRun := c.engRun.erase e }
      let a := s.operandA m e.data
      let out := s.mmaOutputs core m e.hits a
      let grads := if m.fn = 4 then s.mmaGrads core m e.hits else ([], 0)
      let s := match s.team? m.team with
        | some t => s.updCtx t.ctx fun k => { k with undef := k.undef + 1024 }
        | none => s
      let s := s.settleCollectors core m a
      let retire (s : State) : State := if m.fn = 4 then s else s.updCore core fun c => c.retireRange m.out
      if m.miss = 2 && m.fn != 2 && !misses.isEmpty then
        (retire s).engineArrive m.team m.grp m.sig (some cTAG_MISS)
      else
        let flags := if m.fn = 4 then grads.2 else out.2
        let s := s.mmaWrite core m e.hits out.1 grads.1
        let dq := if m.miss = 0 && m.fn != 2 then s.deferMisses core m misses else (s, false)
        let s := dq.1
        let s := (List.range 32).foldl (fun s l => s.updThread ⟨m.team, 32 * m.grp + l⟩ fun th => th.engineFlags flags) s
        (retire s).engineArrive m.team m.grp m.sig (if dq.2 then some cDEFER_OVERFLOW else none)
    | _ => s

/-! ## BANK completion -/

/-- The running BANK function of a kind on a bank. -/
def Core.runningBank (co : Core) (p : Nat → Bool) (bank : Option Nat) : Option EngRun :=
  co.engRun.find? fun e => match e.op with
    | .bank _ _ fn b _ _ _ => p fn && (bank = none || bank = some b)
    | _ => false

/-- A load's last cell is written (R237, R239). -/
def State.bankLoadDone (s : State) (core bank : Nat) : State :=
  match (s.core core).runningBank (fun fn => fn < 2) (some bank) with
  | some ⟨.bank team grp fn b sa id8 sig, hits, data⟩ =>
    (s.updCore core fun c => { c.updBank b fun k => k.filled (fn = 1) data with
      engRun := c.engRun.erase ⟨.bank team grp fn b sa id8 sig, hits, data⟩ }).engineArrive team grp sig none
  | _ => s

/-- A drain's write is performed (R237, R239). -/
def State.bankDrainDone (s : State) (core bank : Nat) : State :=
  match (s.core core).runningBank (fun fn => fn = 4) (some bank) with
  | some ⟨.bank team grp fn b sa id8 sig, hits, data⟩ =>
    let s := s.updCore core fun c =>
      let c := c.updBank b fun k => { k with acc := [], gacc := false, state := k.before }
      { c.retireRange sa with
        scratch := c.scratch.writeBytes sa data
        engRun := c.engRun.erase ⟨.bank team grp fn b sa id8 sig, hits, data⟩ }
    (s.markDirty core sa 8192).engineArrive team grp sig none
  | _ => s

/-- A QUERY record is performed (R237, R240). -/
def State.bankQueryDone (s : State) (core : Nat) : State :=
  match (s.core core).runningBank (fun fn => fn = 5) none with
  | some ⟨.bank team grp fn b sa id8 sig, hits, data⟩ =>
    let s := s.updCore core fun c =>
      { c.retireRange sa with
        scratch := c.scratch.writeBytes sa data
        engRun := c.engRun.erase ⟨.bank team grp fn b sa id8 sig, hits, data⟩ }
    (s.markDirty core sa 16).engineArrive team grp sig none
  | _ => s

/-- MMA_FWD (R243).  -/
def execMmaFwd (c : Bool) (a : BitVec 2) (k : Bool) (o : BitVec 6) (x : Bool) (f : BitVec 3) (g : BitVec 5) (m : BitVec 2) (st : State) : Res :=
  fullWord (.mmaFwd c a k o x f g m) (fun st t gr => st.issueMma t gr ⟨0, f.toNat, 16 * a.toNat, o.toNat, k, x, g.toNat, m.toNat⟩) st

/-- MMA_FWD2 (R243).  -/
def execMmaFwd2 (c : Bool) (a : BitVec 2) (k : Bool) (o : BitVec 6) (x : Bool) (f : BitVec 3) (g : BitVec 5) (m : BitVec 2) (st : State) : Res :=
  fullWord (.mmaFwd2 c a k o x f g m) (fun st t gr => st.issueMma t gr ⟨1, f.toNat, 16 * a.toNat, o.toNat, k, x, g.toNat, m.toNat⟩) st

/-- MMA_FWDK (R243).  -/
def execMmaFwdk (c : Bool) (a : BitVec 2) (k : Bool) (o : BitVec 6) (x : Bool) (f : BitVec 3) (g : BitVec 5) (m : BitVec 2) (st : State) : Res :=
  fullWord (.mmaFwdk c a k o x f g m) (fun st t gr => st.issueMma t gr ⟨2, f.toNat, 16 * a.toNat, o.toNat, k, x, g.toNat, m.toNat⟩) st

/-- MMA_BWD (R243).  -/
def execMmaBwd (c : Bool) (a : BitVec 2) (k : Bool) (o : BitVec 6) (x : Bool) (f : BitVec 3) (g : BitVec 5) (m : BitVec 2) (st : State) : Res :=
  fullWord (.mmaBwd c a k o x f g m) (fun st t gr => st.issueMma t gr ⟨3, f.toNat, 16 * a.toNat, o.toNat, k, x, g.toNat, m.toNat⟩) st

/-- MMA_GRAD (R34).  -/
def execMmaGrad (c : Bool) (a : BitVec 2) (o : BitVec 6) (f : BitVec 3) (g : BitVec 5) (m : BitVec 2) (st : State) : Res :=
  fullWord (.mmaGrad c a o f g m) (fun st t gr => st.issueMma t gr ⟨4, f.toNat, 16 * a.toNat, o.toNat, false, false, g.toNat, m.toNat⟩) st

/-- BANK_LD (R237).  -/
def execBankLd (c : Bool) (b : BitVec 2) (s : BitVec 6) (i : BitVec 8) (g : BitVec 5) (st : State) : Res :=
  bankWord (.bankLd c b s i g) 0 s.toNat b.toNat i g.toNat st

/-- BANK_LDQ (R237).  -/
def execBankLdq (c : Bool) (b : BitVec 2) (s : BitVec 6) (i : BitVec 8) (g : BitVec 5) (st : State) : Res :=
  bankWord (.bankLdq c b s i g) 1 s.toNat b.toNat i g.toNat st

/-- BANK_EVICT (R237).  -/
def execBankEvict (c : Bool) (b : BitVec 2) (i : BitVec 8) (g : BitVec 5) (st : State) : Res :=
  bankWord (.bankEvict c b i g) 2 0 b.toNat i g.toNat st

/-- BANK_GZERO (R237).  -/
def execBankGzero (c : Bool) (b : BitVec 2) (i : BitVec 8) (g : BitVec 5) (st : State) : Res :=
  bankWord (.bankGzero c b i g) 3 0 b.toNat i g.toNat st

/-- BANK_GDRAIN (R237).  -/
def execBankGdrain (c : Bool) (b : BitVec 2) (s : BitVec 6) (i : BitVec 8) (g : BitVec 5) (st : State) : Res :=
  bankWord (.bankGdrain c b s i g) 4 s.toNat b.toNat i g.toNat st

/-- BANK_QUERY (R240).  -/
def execBankQuery (c : Bool) (b : BitVec 2) (s : BitVec 6) (i : BitVec 8) (g : BitVec 5) (st : State) : Res :=
  bankWord (.bankQuery c b s i g) 5 s.toNat b.toNat i g.toNat st

/-- TOPK_INIT (R249).  -/
def execTopkInit (c : Bool) (k : Bool) (s : BitVec 2) (st : State) : Res :=
  topkInitWord (.topkInit c k s) (if k then 2 else 1) s.toNat st

/-- TOPK_READ (R250).  -/
def execTopkRead (c : Bool) (s : BitVec 2) (d : BitVec 6) (st : State) : Res :=
  topkReadWord (.topkRead c s d) s.toNat d.toNat st

/-- ENGINE_WORD_START (R235). The word at the head of the queue starts when its condition holds. -/
def execEngineWordStart (core : Nat) (st : State) : Res :=
  .next (st.engineStart core)

/-- MMA_COMPLETE (R251).  -/
def execMmaComplete (core : Nat) (st : State) : Res :=
  .next (st.mmaDone core)

/-- BANK_LOAD_COMPLETE (R237).  -/
def execBankLoadComplete (core : Nat) (bank : Nat) (st : State) : Res :=
  .next (st.bankLoadDone core bank)

/-- BANK_DRAIN_COMPLETE (R237).  -/
def execBankDrainComplete (core : Nat) (bank : Nat) (st : State) : Res :=
  .next (st.bankDrainDone core bank)

/-- BANK_QUERY_COMPLETE (R237).  -/
def execBankQueryComplete (core : Nat) (st : State) : Res :=
  .next (st.bankQueryDone core)

end Sys2Proof.Machine
end

