-- ==== Sys2Proof/Machine/Walker.lean ====
section
/-!
DEFINITION. The tile walker (R339 to R343) and the completion of copies (R334, R335), with the causes they meet at
translation (R219, R223, R265).
-/
namespace Sys2Proof.Machine

/-! ## Shape records (R340) -/

/-- A shape record. -/
structure Shape where
  base : Nat
  esz : Nat
  ndim : Nat
  addt : Nat
  flagsHi : Nat
  rowb : Nat
  dims : List Nat
  strs : List Nat
  tile0 : Nat
  tile1 : Nat
  sbase : Word
  idx : Word
  fill : Nat
  nt : Nat
  ntHi : Nat

/-- The record of 64 bytes. -/
def Shape.of (b : List Byte) : Shape where
  base := fieldAt b 0 8
  esz := 2 ^ (fieldAt b 8 4 % 4)
  ndim := fieldAt b 8 4 / 4 % 4 + 1
  addt := fieldAt b 8 4 / 16 % 4
  flagsHi := fieldAt b 8 4 / 64
  rowb := fieldAt b 12 4
  dims := [fieldAt b 16 4, fieldAt b 20 4, fieldAt b 24 4, fieldAt b 28 4]
  strs := [fieldAt b 32 4, fieldAt b 36 4, fieldAt b 40 4]
  tile0 := fieldAt b 44 2
  tile1 := fieldAt b 46 2
  sbase := BitVec.ofNat 32 (fieldAt b 48 4)
  idx := BitVec.ofNat 32 (fieldAt b 52 4)
  fill := fieldAt b 56 4
  nt := fieldAt b 60 2
  ntHi := fieldAt b 62 2

/-- Functions that read an index list: GATHER and SCATTERADD. -/
def twkIndexed (fn : Nat) : Bool := fn = 2 || fn = 3

/-- The record keeps the rules of R340 that need no region check. -/
def Shape.ok (h : Shape) (fn : Nat) : Bool :=
  h.flagsHi = 0 && h.ntHi = 0 && h.base % h.esz = 0
    && (if fn = 3 then h.esz = 4 && h.addt != 3 else h.addt = 0)
    && h.rowb % 16 = 0 && 16 <= h.rowb && h.rowb <= 8192
    && h.dims.all (fun d => 1 <= d && d < 2 ^ 31) && (h.dims.drop h.ndim).all (· == 1)
    && h.strs.all (fun x => x % h.esz = 0) && (h.strs.drop (h.ndim - 1)).all (· == 0)
    && 1 <= h.tile0 && h.tile0 * h.esz <= h.rowb
    && 1 <= h.tile1 && h.tile1 <= 64 && h.tile1 * h.rowb <= 8192
    && !h.sbase.getLsbD 25 && h.sbase.toNat % 16 = 0
    && (if twkIndexed fn then !h.idx.getLsbD 25 && h.idx.toNat % 4 = 0 else h.idx = 0)
    && 1 <= h.nt && h.nt <= 4096

/-- The whole record is good for a team: its rules and its regions. -/
def State.shapeOk (s : State) (tm : Team) (h : Shape) (fn : Nat) : Bool :=
  let there (sa : Word) (n : Nat) : Bool := match s.resolveScratch tm sa n with
    | .at_ _ _ _ => true
    | _ => false
  h.ok fn && there h.sbase (h.nt * h.tile1 * h.rowb) && (!twkIndexed fn || there h.idx (4 * h.nt * h.tile1))

/-- A team as its walker jobs see it: what it has handed on is theirs until its copy begins (R175). -/
def Team.asWalker (tm : Team) : Team :=
  { tm with opens := tm.opens.map fun (o : OpenRef) => { o with handed := false } }

/-- Offsets of a job's scratch region and of its index list; none where the team has the object there open no longer (R171). -/
def State.jobPlace (s : State) (tm : Team) (j : TwkJob) : Option (Nat × Nat) :=
  let h := Shape.of j.recd
  let there (sa : Word) (n : Nat) : Option Nat := match s.resolveScratch tm.asWalker sa n with
    | .at_ _ off _ => some off
    | _ => none
  (there h.sbase (h.nt * h.tile1 * h.rowb)).bind fun b =>
    if twkIndexed j.fn then (there h.idx (4 * h.nt * h.tile1)).map fun x => (b, x) else some (b, 0)

/-! ## Issue (R341) -/

/-- There is what a TWK waits for: its record under no live range, and a place in the queue of 16 (R341). -/
def Core.walkerRoom (co : Core) (off : Nat) : Bool := !co.rangeBusy off 64 && co.twq.countP (fun j => !j.running) < 16

/-- TWK by one thread: checks, then the record is read and the job queued. -/
def State.twkIssue (s : State) (r : ThreadRef) (fn rec c sig : Nat) : State :=
  s.withThread r fun th =>
    match s.team? r.team with
    | none => s
    | some tm =>
      let sa := th.reg rec
      match s.engRegion tm sa 64 64 with
      | .error e => s.raise r e
      | .ok off =>
        if tm.sigUninit sig then s.raise r cSYNC_ERROR
        else
          let co := s.core tm.core
          if !co.walkerRoom off then s.block r (.room (.walker sa))
          else
            let bs := co.scratch.readBytes off 64
            let job : TwkJob := {
              team := r.team, tid := r.tid, fn := fn, recd := bs, coords := th.regsFrom c 4, sig := sig, tile := 0
              at_ := none, elem := 0, running := false, paused := none, thaw := false, error := !s.shapeOk tm (Shape.of bs) fn, ranged := none
              txid := none, got := [] }
            s.updCore tm.core fun c => { c with twq := c.twq ++ [job] }

/-! ## Jobs (R342, R343) -/

/-- Update job ix of a core. -/
def State.updJob (s : State) (core ix : Nat) (f : TwkJob → TwkJob) : State :=
  s.updCore core fun c => { c with twq := c.twq.modify ix f }

/-- Where element (i, n) of tile t of a job lies, with its index list at ix: its global address, none outside the tensor (R342). -/
def State.twkAddr (s : State) (core ix : Nat) (j : TwkJob) (h : Shape) (t i n : Nat) : Option Nat :=
  let m := t * h.tile1 + i
  let c (k : Nat) : Int := (j.coords.getD k 0).toInt
  let row : Int := if twkIndexed j.fn then
      (BitVec.ofNat 32 (leNat ((s.core core).scratch.readBytes (ix + 4 * m) 4))).toInt + c 1
    else c 1 + m
  let x : Int := c 0 + n
  let dim (k : Nat) : Int := h.dims.getD k 1
  let str (k : Nat) : Int := h.strs.getD k 0
  if 0 <= x && x < dim 0 && 0 <= row && row < dim 1 && 0 <= c 2 && c 2 < dim 2 && 0 <= c 3 && c 3 < dim 3 then
    some (BitVec.ofInt 64 (h.base + x * h.esz + row * str 0 + c 2 * str 1 + c 3 * str 2)).toNat
  else none

/-- One walk ahead of a page for the tile walker: an absent, lost or malformed entry is dropped and raises nothing, and a page
that a pending invalidation or a lock holds is left (R216). -/
def State.walkAheadPage (s : State) (core ctx page : Nat) : State :=
  let va := page * 65536
  if 2 ^ 56 <= va || s.vaHeld ctx va || (s.tlbHit core ctx va true).isSome then s
  else match s.walk (dieOf core) ctx va with
    | (s', .leaf l p pa) => s'.fill core ctx va l p pa true false
    | _ => s

/-- While a job runs the walker translates up to 16 tiles ahead of the tile being moved (R216): here the first and the last
element of each row of those tiles. -/
def State.walkAhead (s : State) (core ix : Nat) : State :=
  match (s.core core).twq[ix]? with
  | none => s
  | some j =>
    match j.at_, s.team? j.team with
    | some (_, x), some tm =>
      let h := Shape.of j.recd
      let tiles := (List.range 16).map (· + j.tile + 1) |>.filter (· < h.nt)
      let pages := (tiles.flatMap fun t => (List.range h.tile1).flatMap fun i =>
        ([0, h.tile0 - 1].filterMap (s.twkAddr core x j h t i)).map (· / 65536)).eraseDups
      pages.foldl (fun s p => s.walkAheadPage core tm.ctx p) s
    | _, _ => s

/-- A job stops on a fault: its sig object takes the error phase with WALKER_FAULT (R223). -/
def State.twkFail (s : State) (core ix : Nat) : State :=
  match (s.core core).twq[ix]? with
  | none => s
  | some j =>
    let s := s.updCore core fun c =>
      let c := j.ranged.elim c c.retireRange
      { c with twq := c.twq.eraseIdx ix }
    s.engineArrive j.team (j.tid / 32) j.sig (some cWALKER_FAULT)

/-- The current tile of a running job begins (R338, R342): LOAD and GATHER take its range, STORE and SCATTERADD wait for the writes
under way there, and an index list is read once no write to it is under way (R206).  A job whose object its team has closed fails
(R171; DEDUCED, log entry 85). -/
def State.twkBegin (s : State) (core ix : Nat) : State :=
  match (s.core core).twq[ix]? with
  | none => s
  | some j =>
    let h := Shape.of j.recd
    match s.team? j.team with
    | none => s
    | some tm =>
      if !j.running || j.at_.isSome || j.error || j.paused.isSome || h.nt <= j.tile || !(tm.state = .resident || tm.state = .killing) then s
      else match s.jobPlace tm j with
        | none => s.twkFail core ix
        | some p =>
          let co := s.core core
          let base := p.1 + j.tile * h.tile1 * h.rowb
          let begin_ (s : State) : State := (s.updJob core ix fun j => { j with at_ := some p, elem := 0 }).walkAhead core ix
          if twkIndexed j.fn && co.rangeBusy (p.2 + 4 * j.tile * h.tile1) (4 * h.tile1) then s
          else if j.fn != 0 && j.fn != 2 then (if co.rangeBusy base (h.tile1 * h.rowb) then s else begin_ s)
          else if j.ranged.isSome then begin_ s
          else match co.takeRange base (h.tile1 * h.rowb) false with
            | some co => begin_ ((s.updCore core fun _ => co).updJob core ix fun j => { j with ranged := some base })
            | none => s

/-- The first waiting job of a core starts; at most four run (R343). -/
def State.twkStart (s : State) (core : Nat) : State :=
  let co := s.core core
  match co.twq.findIdx? fun j => !j.running with
  | none => s
  | some ix =>
    if 4 <= co.twq.countP TwkJob.running then s
    else (s.updJob core ix fun j => { j with running := true }).twkBegin core ix

/-- How the elements of a tile go. -/
inductive TileEnd where
  | ok
  | wait
  | cause (c : Cause) (va level : Nat)
  | badVa (va : Nat)
deriving DecidableEq, Repr

/-- The sum SCATTERADD forms (R342). -/
def scatterAdd (addt : Nat) (old : List Byte) (v : Word) : List Byte :=
  amoBytes (if addt = 0 then 0 else if addt = 1 then 0x0A else 0x0B) old [v]

/-- Ask a peer for one element (R265), once; the tile waits for the answer. -/
def State.twkRemote (s : State) (core ix dev wa : Nat) (j : TwkJob) (type fn : Nat) (payload : List Byte) (acc : Access) :
    State × TileEnd :=
  if j.txid.isSome || s.peerBusy core dev wa payload.length then (s, .wait)
  else if !s.reachable dev then (s.noPort dev, .cause cREMOTE_TIMEOUT 0 0)
  else
    let ctx := ((s.team? j.team).map Team.ctx).getD 0
    let q := s.sendRemote core ⟨j.team, j.tid⟩ ctx dev wa acc type fn payload
    (q.1.updJob core ix fun j => { j with txid := some q.2 }, .wait)

/-- Element (i, n) of the current tile of job ix, which lies at a place (R342).  A write waits for an earlier copy of the thread that
has still to read the bytes (R206). -/
def State.twkElem (s : State) (core ix : Nat) (tm : Team) (j : TwkJob) (h : Shape) (at_ : Nat × Nat) (i n : Nat) : State × TileEnd :=
  let m := j.tile * h.tile1 + i
  let sc := (s.core core).scratch
  let sp := at_.1 + m * h.rowb + n * h.esz
  let reads := j.fn = 0 || j.fn = 2
  let put (s : State) (bs : List Byte) : State :=
    (s.updCore core fun k => { k with scratch := k.scratch.writeBytes sp bs }).markDirty core sp h.esz
  let key := m * h.tile0 + n
  match s.twkAddr core at_.2 j h j.tile i n with
  | none => (if reads then (put s (leBytes h.fill h.esz), .ok) else (s, .ok))
  | some ga => if !reads && s.copyReads ⟨j.team, j.tid⟩ core ga h.esz then (s, .wait) else match s.translate core tm.ctx ga (.tile (!reads)) with
    | (s, .badVa) => (s, .badVa ga)
    | (s, .wait) => (s, .wait)
    | (s, .cause e l) => (s, .cause e ga l)
    | (s, .home (.peer dev wa)) =>
      match j.got.find? (·.1 == key) with
      | some q => (if reads then put s q.2 else s, .ok)
      | none =>
        let data := sc.readBytes sp h.esz
        -- the access noted for the answer carries the element number
        let acc : Access := .load (BitVec.ofNat 64 ga) h.esz key
        if reads then s.twkRemote core ix dev wa j 2 0 (leBytes h.esz 2) acc
        else if j.fn = 1 then s.twkRemote core ix dev wa j 3 0 data acc
        else s.twkRemote core ix dev wa j 4 (if h.addt = 0 then 0 else if h.addt = 1 then 0x0A else 0x0B) data acc
    | (s, .home hm) =>
      let s := s.sluiceCount core tm.ctx ga hm (!reads)
      if j.fn != 1 && s.eccAt hm h.esz then (s, .cause cECC_UNCORR ga 0)
      else if reads then (put s (s.seen core hm h.esz), .ok)
      else if (s.core core).storeq.any fun q => !q.done && q.overlaps hm h.esz then (s, .wait)
      else
        let data := sc.readBytes sp h.esz
        let new := if j.fn = 1 then data else scatterAdd h.addt (s.homeRead hm 4) (BitVec.ofNat 32 (leNat data))
        ((s.homeWrite hm new).dropReplicas tm.ctx ga, .ok)

/-- A cause that an engine meets for a thread, delivered by KILL or FREEZE whatever that thread is doing (R219). -/
def State.engineCause (s : State) (r : ThreadRef) (c : Cause) : State :=
  match s.team? r.team with
  | none => s
  | some tm =>
    let s := s.setCause r.team (r.tid / 32) c
    if s.modeOf tm c = 2 then s.killTeam r.team c (some r) else s.freezeCtx tm.ctx [c.toNat, r.team, r.tid]

/-- A job meets a translation cause (R219, R221, R223). -/
def State.twkCause (s : State) (core ix : Nat) (tm : Team) (j : TwkJob) (c : Cause) (va level : Nat) : State :=
  let r : ThreadRef := ⟨j.team, j.tid⟩
  let pause (s : State) (thaw : Bool) : State := s.updJob core ix fun j => { j with
    paused := some va, thaw := thaw, at_ := none, elem := 0, got := [] }
  if c = cPAGE_ABSENT then
    match s.modeOf tm c with
    | 0 => (pause s false).openRequest tm.ctx va 16 tm.core level
    | 2 => (s.twkFail core ix).engineCause r c
    | _ => (pause s true).engineCause r c
  else if c = cPAGE_PROT then (pause s true).engineCause r c
  else s.twkFail core ix

/-- A tile at a non-canonical address (R219): under PARK firmware refuses it at once; under KILL or FREEZE the cause is delivered
as for an absent page. -/
def State.twkBadVa (s : State) (core ix : Nat) (tm : Team) (j : TwkJob) (va : Nat) : State :=
  if s.modeOf tm cPAGE_ABSENT = 0 then s.twkFail core ix else s.twkCause core ix tm j cPAGE_ABSENT va 0

/-- The elements of a tile that are left go in order, until one stops; what has been done stays done. -/
def State.twkElems (s : State) (core ix : Nat) (tm : Team) (j : TwkJob) (h : Shape) (at_ : Nat × Nat) : List (Nat × Nat) → Nat → State × TileEnd
  | [], n => (s.updJob core ix fun j => { j with elem := n }, .ok)
  | e :: es, n => match s.twkElem core ix tm j h at_ e.1 e.2 with
    | (s, .ok) => s.twkElems core ix tm j h at_ es (n + 1)
    | (s, x) => (s.updJob core ix fun j => { j with elem := n }, x)

/-- A tile is moved: its range retires, and the next one begins; a killed team's job ends with it, and a save stops the job there
(R97, R109). -/
def State.twkMoved (s : State) (core ix : Nat) (tm : Team) (j : TwkJob) : State :=
  let s := s.updCore core fun c => j.ranged.elim c c.retireRange
  let s := s.updJob core ix fun j => { j with tile := j.tile + 1, at_ := none, elem := 0, ranged := none, got := [] }
  if tm.state = .killing then s.updCore core fun c => { c with twq := c.twq.eraseIdx ix }
  else if tm.state = .saving then s
  else s.twkBegin core ix

/-- Move the current tile of a running job (R342, R343): whole, or up to the element that stops it. -/
def State.twkTile (s : State) (core ix : Nat) : State :=
  let s := s.twkBegin core ix
  match (s.core core).twq[ix]? with
  | none => s
  | some j =>
    match s.team? j.team, j.at_ with
    | some tm, some p =>
      let h := Shape.of j.recd
      let elems := (List.range h.tile1).flatMap fun i => (List.range h.tile0).map fun n => (i, n)
      match s.twkElems core ix tm j h p (elems.drop j.elem) j.elem with
      | (s, .ok) => s.twkMoved core ix tm j
      | (s, .wait) => s
      | (s, .badVa va) => s.twkBadVa core ix tm j va
      | (s, .cause c va l) => s.twkCause core ix tm j c va l
    | _, _ => s

/-- A job whose last tile is performed arrives; one whose record breaks R340 takes the error phase (R341, R343). -/
def State.twkFinish (s : State) (core ix : Nat) : State :=
  match (s.core core).twq[ix]? with
  | none => s
  | some j =>
    if !j.running then s
    else if j.error then s.twkFail core ix
    else if (Shape.of j.recd).nt <= j.tile then
      (s.updCore core fun c => { c with twq := c.twq.eraseIdx ix }).engineArrive j.team (j.tid / 32) j.sig none
    else s

/-! ## Copies (R334, R335) -/

/-- Update copy ix of a core. -/
def State.updCopy (s : State) (core ix : Nat) (f : Copy → Copy) : State :=
  s.updCore core fun c => { c with copies := c.copies.modify ix f }

/-- A copy retires: its 32 bytes are written, its count falls, its range's write is performed; a failed one writes zeros
and sets the thread's copy-fault pending bit. -/
def State.finishCopy (s : State) (core ix : Nat) (data : List Byte) (failed : Bool) : State :=
  match (s.core core).copies[ix]? with
  | none => s
  | some c =>
    let bytes := (if failed then [] else data) ++ List.replicate 32 0
    let s := s.updCore core fun k => { k.retireRange c.dst with
      scratch := k.scratch.writeBytes c.dst (bytes.take 32)
      copies := k.copies.eraseIdx ix }
    (s.markDirty core c.dst 32).updThread c.ref fun th => { th with
      cnt := th.cnt.modify c.tag (· - 1)
      copyFault := th.copyFault || (failed && th.live) }

/-- The parts of a copy's source, cut at the page boundary: address and length. -/
def copyParts (ga k : Nat) : List (Nat × Nat) :=
  let first := min k (65536 - ga % 65536)
  (if first = 0 then [] else [(ga, first)]) ++ (if first < k then [(ga + first, k - first)] else [])

/-- Read one part of a copy. -/
def State.copyPart (s : State) (core ix : Nat) (tm : Team) (c : Copy) (va n : Nat) : State × Except TileEnd (List Byte) :=
  match s.translate core tm.ctx va .copy with
  | (s, .badVa) => (s, .error (.badVa va))
  | (s, .wait) => (s, .error .wait)
  | (s, .cause e l) => (s, .error (.cause e va l))
  | (s, .home (.peer dev wa)) =>
    match c.got.find? (·.1 == va) with
    | some q => (s, .ok q.2)
    | none =>
      if c.txid.isSome || s.peerBusy core dev wa n then (s, .error .wait)
      else if !s.reachable dev then (s.noPort dev, .error (.cause cREMOTE_TIMEOUT va 0))
      else
        let q := s.sendRemote core c.ref tm.ctx dev wa (.load (BitVec.ofNat 64 va) n 0) 2 0 (leBytes n 2)
        (q.1.updCopy core ix fun c => { c with txid := some q.2 }, .error .wait)
  | (s, .home hm) =>
    if s.eccAt hm n then (s, .error (.cause cECC_UNCORR va 0))
    else (s.sluiceCount core tm.ctx va hm false, .ok (s.seen core hm n))

/-- A copy of a core completes, if every older copy of its thread and tag has (R334): or meets its cause (R335), which a killed
team's copy meets like another (R222, R223): it is held until the reply or the thaw, and its team's room is freed after it. -/
def State.cpyRetire (s : State) (core ix : Nat) : State :=
  match (s.core core).copies[ix]? with
  | none => s
  | some c =>
    let older := ((s.core core).copies.take ix).any fun o => o.ref = c.ref && o.tag = c.tag
    match s.team? c.ref.team with
    | none => s
    | some tm =>
      if older || c.held.isSome then s
      else if c.failed then s.finishCopy core ix [] true
      else
        let q := (copyParts c.ga.toNat c.k).foldl (fun (acc : State × Except TileEnd (List Byte)) p =>
          match acc.2 with
          | .error _ => acc
          | .ok bs => match acc.1.copyPart core ix tm c p.1 p.2 with
            | (s, .ok more) => (s, .ok (bs ++ more))
            | (s, .error e) => (s, .error e)) (s, .ok [])
        let s := q.1
        let absent (va l : Nat) : State :=
          let hold (s : State) (thaw : Bool) : State := s.updCopy core ix fun c => { c with held := some va, thaw := thaw }
          match s.modeOf tm cPAGE_ABSENT with
          | 0 => (hold s false).openRequest tm.ctx va 8 tm.core l
          | 2 => (s.finishCopy core ix [] true).engineCause c.ref cPAGE_ABSENT
          | _ => (hold s true).engineCause c.ref cPAGE_ABSENT
        match q.2 with
        | .ok bs => s.finishCopy core ix bs false
        | .error .ok | .error .wait => s
        | .error (.cause e va l) =>
          if e = cPAGE_ABSENT then absent va l
          else if e = cPAGE_PROT then (s.updCopy core ix fun c => { c with held := some va, thaw := true }).engineCause c.ref e
          else s.finishCopy core ix [] true
        | .error (.badVa va) => if s.modeOf tm cPAGE_ABSENT = 0 then s.finishCopy core ix [] true else absent va 0

/-! ## Work that goes with its team -/

/-- The range that an engine word writes under, by its base (R338). -/
def EngOp.range? : EngOp → Option Nat
  | .mma m => if m.fn = 4 then none else some m.out
  | .bank _ _ fn _ sa _ _ => if fn = 4 || fn = 5 then some sa else none
  | _ => none

/-- The team that issued an engine word. -/
def EngOp.team : EngOp → Nat
  | .mma m => m.team
  | .bank t _ _ _ _ _ _ => t
  | .topkInit t _ _ _ => t
  | .topkRead t _ _ _ => t

/-- The bank that a running word moves. -/
def EngOp.moves (b : Nat) : EngOp → Bool
  | .bank _ _ fn n _ _ _ => n = b && fn != 5
  | _ => false

/-- Copies, walker jobs and engine words of teams that are discarded: their ranges retire, and a bank that was being moved is as
before, or empty. -/
def Core.dropWork (c : Core) (mine : Nat → Bool) : Core :=
  let run := c.engRun.filter fun e => mine e.op.team
  let bases := ((c.copies.filter fun k => mine k.ref.team).map Copy.dst) ++ ((c.twq.filter fun j => mine j.team).filterMap TwkJob.ranged)
    ++ ((c.engq.filter fun e => mine e.team).filterMap EngOp.range?) ++ run.filterMap fun e => e.op.range?
  { bases.foldl Core.retireRange c with
    copies := c.copies.filter fun k => !mine k.ref.team
    twq := c.twq.filter fun j => !mine j.team
    engq := c.engq.filter fun e => !mine e.team
    engRun := c.engRun.filter fun e => !mine e.op.team
    banks := c.banks.mapIdx fun i (b : Bank) => if run.any (fun e => e.op.moves i) then
      { b with state := if b.state = .draining then b.before else .empty } else b }

/-- TWK_LOAD (R342).  -/
def execTwkLoad (c : Bool) (r : BitVec 6) (cc : BitVec 6) (g : BitVec 5) (p : BitVec 3) (st : State) : Res :=
  predWord (.twkLoad c r cc g p) p.toNat (fun st q => st.twkIssue q 0 r.toNat cc.toNat g.toNat) st

/-- TWK_STORE (R342).  -/
def execTwkStore (c : Bool) (r : BitVec 6) (cc : BitVec 6) (g : BitVec 5) (p : BitVec 3) (st : State) : Res :=
  predWord (.twkStore c r cc g p) p.toNat (fun st q => st.twkIssue q 1 r.toNat cc.toNat g.toNat) st

/-- TWK_GATHER (R342).  -/
def execTwkGather (c : Bool) (r : BitVec 6) (cc : BitVec 6) (g : BitVec 5) (p : BitVec 3) (st : State) : Res :=
  predWord (.twkGather c r cc g p) p.toNat (fun st q => st.twkIssue q 2 r.toNat cc.toNat g.toNat) st

/-- TWK_SCATTERADD (R342).  -/
def execTwkScatteradd (c : Bool) (r : BitVec 6) (cc : BitVec 6) (g : BitVec 5) (p : BitVec 3) (st : State) : Res :=
  predWord (.twkScatteradd c r cc g p) p.toNat (fun st q => st.twkIssue q 3 r.toNat cc.toNat g.toNat) st

/-- TWK_JOB_START (R343).  -/
def execTwkJobStart (core : Nat) (st : State) : Res :=
  .next (st.twkStart core)

/-- TWK_TILE_DONE (R342).  -/
def execTwkTileDone (core : Nat) (job : Nat) (st : State) : Res :=
  .next (st.twkTile core job)

/-- TWK_JOB_COMPLETE (R343).  -/
def execTwkJobComplete (core : Nat) (job : Nat) (st : State) : Res :=
  .next (st.twkFinish core job)

/-- CPY_RETIRE (R334).  -/
def execCpyRetire (core : Nat) (ix : Nat) (st : State) : Res :=
  .next (st.cpyRetire core ix)

end Sys2Proof.Machine
end

