-- ==== Sys2Proof/Machine/MemSide.lean ====
section
/-!
DEFINITION. The memory side: loads land, writes are performed and acknowledged (R57, R192 to R197), waits by time end, and
remote accesses get their answers (R261, R265).
-/
namespace Sys2Proof.Machine

/-- A load, atomic or scratch result lands: registers, predicate, and the acknowledgement of an atomic.  With its last load in
flight a thread waits for an operand no longer (R101). -/
def State.loadLand (s : State) (core ix : Nat) : State :=
  match (s.core core).loads[ix]? with
  | none => s
  | some l =>
    if l.txid.isSome then s else
    let s := s.updCore core fun c => { c with loads := c.loads.eraseIdx ix }
    let more := (s.core core).loads.any fun x => x.ref = l.ref
    s.updThread l.ref fun th =>
      let th := if th.status = .waiting .pending && !more then { th with status := .ready } else th
      let th := (th.setRegs l.d l.words).keepLanded l.d l.words.length
      let th := match l.pk with
        | some (k, b) => th.setPred k b
        | none => th
      match l.ack with
      | some k => th.countDown k false
      | none => th

/-- Every load of a thread whose value is there lands (R57): loads land in any order, and its next word waits for them. -/
def State.landAll (s : State) (core : Nat) (r : ThreadRef) : State :=
  (List.range (s.core core).loads.length).reverse.foldl (fun s i =>
    if (s.core core).loads[i]?.any fun l => l.ref = r then s.loadLand core i else s) s

/-- The target of a queued write is lost: its die is fenced, or its core is. -/
def State.targetLost (s : State) (h : Home) : Bool :=
  match h with
  | .dev pa => s.dieFenced (paDie pa)
  | .scratch c _ => s.coreGone c
  | _ => false

/-- A queued write is performed at its home and acknowledged, or NACKed.  It waits for older queued writes to the same
bytes, for a page lock, and for an answer that a frame brings. -/
def State.ackReceive (s : State) (core ix : Nat) (nack : Bool) : State :=
  match (s.core core).storeq[ix]? with
  | none => s
  | some q =>
    let older := ((s.core core).storeq.take ix).any fun o => o.overlaps q.home q.data.length
    let held := match q.home with
      | .dev _ => s.migrations.any fun m => m.replica.isNone && m.ctx = q.ctx && m.page = q.va / 65536
      | _ => false
    if older || held || q.txid.isSome then s
    else
      let bad := nack || s.targetLost q.home
      let s := s.updCore core fun c => { c with storeq := c.storeq.eraseIdx ix }
      let s := if bad then s else s.homeWrite q.home q.data
      let s := match q.home with
        | .dev _ => if bad then s else s.dropReplicas q.ctx q.va
        | .scratch c o => if bad then s else s.markDirty c o q.data.length
        | _ => s
      s.updThread q.ref fun th => th.countDown q.home.ackKind bad

/-- A thread that waits for a lock bit tries again (R332). -/
def State.lockRetry (s : State) (r : ThreadRef) : State :=
  if s.status? r = some (.waiting .lock) then s.updThread r fun th => { th with status := .ready } else s

/-- A YIELD or SLEEP ends (R352, R361): the core has counted the front cycles. -/
def State.timerEnd (s : State) (r : ThreadRef) (sleep : Bool) : State :=
  match s.status? r, s.team? r.team with
  | some (.waiting (.timer sl u)), some tm =>
    if sl = sleep then
      (s.countTo tm.core u).updThread r fun th =>
        { th with status := .ready, grant := some 0 }
    else s
  | _, _ => s

/-! ## Answers of remote accesses (R265) -/

/-- What ends a remote access. -/
inductive Answer where
  | ok (data : List Byte)
  | fault
  | prot
  | timeout
deriving DecidableEq, Repr

/-- PAGE_PROT for a thread from a remote answer: its cause bit, and the context is frozen (R129). -/
def State.protFreeze (s : State) (r : ThreadRef) : State :=
  match s.team? r.team with
  | none => s
  | some tm => (s.setCause r.team (r.tid / 32) cPAGE_PROT).freezeCtx tm.ctx [2, r.team, r.tid]

/-- A remote load or atomic of a thread ends without a value. -/
def State.remoteFail (s : State) (q : Remote) (a : Answer) : State :=
  let mine (l : InFlight) : Bool := l.txid = some q.txid
  let ack := ((s.core q.core).loads.find? mine).bind InFlight.ack
  let s := s.updCore q.core fun c => { c with loads := c.loads.filter fun l => !mine l }
  let s := match ack with
    | some k => s.updThread q.ref fun th => th.countDown k false
    | none => s
  let dead : Bool := match s.team? q.ref.team with
    | some tm => tm.state = .killing || tm.state = .ended
    | none => true
  if dead then s else
  match a with
  | .prot =>
    (s.updThread q.ref fun th => { th.leaveRun with record := q.acc :: th.record, recCause := 0 }).protFreeze q.ref
  | .fault => s.remoteCause q.ref q.acc cREMOTE_FAULT
  | _ => s.remoteCause q.ref q.acc cREMOTE_TIMEOUT

/-- A remote store ends: its counts fall, and a NACK is noted. -/
def State.remoteStoreEnd (s : State) (q : Remote) (a : Answer) : State :=
  let nack : Bool := match a with
    | .ok _ => false
    | _ => true
  let s := s.updCore q.core fun c => { c with storeq := c.storeq.filter fun w => w.txid != some q.txid }
  let s := s.updThread q.ref fun th => th.countDown (.dev q.dev) nack
  match a with
  | .prot => s.protFreeze q.ref
  | _ => s

/-- Give a value to a load, non-faulting load or atomic in flight; it lands afterwards. -/
def State.remoteValue (s : State) (q : Remote) (ws : List Word) (pk : Option (Nat × Bool)) : State :=
  let give (l : InFlight) : InFlight := if l.txid = some q.txid then { l with words := ws, pk := pk, txid := none } else l
  s.updCore q.core fun c => { c with loads := c.loads.map give }

/-- The answer of a tile's or a copy's remote access (R265). -/
def State.engineAnswer (s : State) (q : Remote) (a : Answer) : State :=
  let co := s.core q.core
  match co.twq.findIdx? fun j => j.txid = some q.txid with
  | some ix =>
    let key := match q.acc with
      | .load _ _ k => k
      | _ => 0
    match a with
    | .ok data => s.updJob q.core ix fun j => { j with txid := none, got := (key, data) :: j.got }
    | .prot => (s.updJob q.core ix fun j => { j with txid := none, paused := some q.acc.va, thaw := true, at_ := none, elem := 0, got := [] }).protFreeze q.ref
    | _ => s.twkFail q.core ix
  | none =>
    match co.copies.findIdx? fun c => c.txid = some q.txid with
    | some ix => match a with
      | .ok data => s.updCopy q.core ix fun c => { c with txid := none, got := (q.acc.va, data) :: c.got }
      | .prot => (s.updCopy q.core ix fun c => { c with txid := none, held := some q.acc.va, thaw := true }).protFreeze q.ref
      | _ => s.updCopy q.core ix fun c => { c with txid := none, failed := true }
    | none => s

/-- The read of part of a fetch block ends: the line is filled, or keeps the cause that its threads meet when they fetch again
(R40, R265). -/
def State.fetchEnd (s : State) (q : Remote) (ctx n : Nat) (a : Answer) : State :=
  let set (data : List Byte) (c : Option Cause) : State := s.updCtx ctx fun k => { k with
    peerCode := k.peerCode.map fun (l : PeerLine) => if l.txid = some q.txid then { l with txid := none, data := data, cause := c } else l }
  match a with
  | .ok data => set (data.take n) none
  | .fault => set [] (some cREMOTE_FAULT)
  | .prot => set [] (some cPAGE_PROT)
  | .timeout => set [] (some cREMOTE_TIMEOUT)

/-- The answer of an access of TASK.DONE: its word takes it when it issues again; PROT freezes the context, and the word asks
again after the thaw (R150, R265). -/
def State.taskAnswer (s : State) (q : Remote) (stage : Nat) (a : Answer) : State :=
  let mine (k : TaskAsk) : Bool := k.ref = q.ref && k.stage = stage
  let set (f : TaskAsk → TaskAsk) : State := { s with taskAsks := s.taskAsks.map fun k => if mine k then f k else k }
  match a with
  | .ok data => set fun k => { k with data := some data }
  | .fault => set fun k => { k with cause := some cREMOTE_FAULT }
  | .timeout => set fun k => { k with cause := some cREMOTE_TIMEOUT }
  | .prot =>
    ({ s with taskAsks := s.taskAsks.filter fun k => !mine k } : State).protFreeze q.ref

/-- The line that a peer has answered enters the issuing core's L1 (R194). -/
def State.peerFill (s : State) (q : Remote) (line : List Byte) : State :=
  match s.ctxOf? q.ref with
  | some ctx => if q.fills then s.updCore q.core fun c => c.l1Fill ⟨ctx, q.acc.va / 64 * 64, line⟩ else s
  | none => s

/-- A remote load has its answer, which is the whole line: the value, and the line for L1. -/
def State.peerLoad (s : State) (q : Remote) (n : Nat) (data : List Byte) (pk : Option (Nat × Bool)) : State :=
  let line := (data ++ List.replicate 64 0).take 64
  (s.remoteValue q (loadWords ((line.drop (q.acc.va % 64)).take n)) pk).peerFill q line

/-- A FENCE.ACQ that an atomic left waiting is performed once the thread has no remote load or atomic left (R198, R200). -/
def State.acquireDue (s : State) (r : ThreadRef) : State :=
  if ((s.thread? r).map Thread.acq).getD false && !s.remoteLoads r then
    (s.updThread r fun th => { th with acq := false }).acquireAll r
  else s

/-- What an answer does to its access. -/
def State.answered (s : State) (q : Remote) (a : Answer) : State :=
  let co := s.core q.core
  if co.twq.any (fun j => j.txid = some q.txid) || co.copies.any (fun c => c.txid = some q.txid) then s.engineAnswer q a
  else match q.acc, a with
    | .fetch ctx _ n, a => s.fetchEnd q ctx n a
    | .task _ stage, a => s.taskAnswer q stage a
    | .load _ n _, .ok data => s.peerLoad q n data none
    | .nfLoad _ n _ pk, .ok data => s.peerLoad q n data (some (pk, true))
    | .nfLoad _ n _ pk, _ => s.remoteValue q (List.replicate (n / 4) 0) (some (pk, false))
    | .amo _ fn _ _ _ _, .ok data => s.remoteValue q (wordsOf data (amoWidth fn / 4)) none
    | .store _ _, a => s.remoteStoreEnd q a
    | _, a => s.remoteFail q a

/-- A remote access ends by its answer, or without one (R265). -/
def State.remoteEnd (s : State) (q : Remote) (a : Answer) : State :=
  (({ s with remotes := s.remotes.filter fun x => x.txid != q.txid } : State).answered q a).acquireDue q.ref

/-- LOAD_LAND (R57).  -/
def execLoadLand (core : Nat) (ix : Nat) (st : State) : Res :=
  .next (st.loadLand core ix)

/-- ACK_RECEIVE (R197).  -/
def execAckReceive (core : Nat) (ix : Nat) (nack : Bool) (st : State) : Res :=
  .next (st.ackReceive core ix nack)

/-- LOCK_RETRY (R332).  -/
def execLockRetry (team : Nat) (tid : Nat) (st : State) : Res :=
  .next (st.lockRetry ⟨team, tid⟩)

/-- YIELD_EXPIRY (R352).  -/
def execYieldExpiry (team : Nat) (tid : Nat) (st : State) : Res :=
  .next (st.timerEnd ⟨team, tid⟩ false)

/-- SLEEP_EXPIRY (R361).  -/
def execSleepExpiry (team : Nat) (tid : Nat) (st : State) : Res :=
  .next (st.timerEnd ⟨team, tid⟩ true)

end Sys2Proof.Machine
end

