-- ==== Sys2Proof/Machine/Skew.lean ====
section
/-!
DEFINITION. Clock settings (R12, R269), and the steps that firmware takes by the arrival skew of grid phases (R276).
-/
namespace Sys2Proof.Machine

/-- A setting that R12 allows: front clock in MHz, ratio in halves, lane clock at most 1,900 MHz. -/
def clockOk (front ratio2 : Nat) : Bool :=
  300 <= front && front <= 1200 && front % 50 = 0 && (ratio2 = 1 || ratio2 = 2 || ratio2 = 4) && front * ratio2 <= 2 * 1900

/-- A request is applied, and the quarter's issue stops while the clocks relock, for at most 2,048 cycles of the old front clock; or
it is refused. -/
def State.clockSet (s : State) (die quarter front ratio2 : Nat) : State :=
  if die < 64 && quarter < 4 && clockOk front ratio2 then
    -- what has passed was counted at the old clock
    let now := s.now
    let s := (s.cores.filter fun c => dieOf c.id = die && quarterOf (numOf c.id) = quarter).foldl (fun s c => s.liftCore c.id now) s
    s.updQuarter die quarter fun k => { k with
      front := front, ratio2 := ratio2, relocking := true
      until_ := instantAfter k.front now 2048, base := k.cyclesAt now, at_ := now }
  else s.tell "CLOCK_REFUSED" [die, quarter, front, ratio2]

/-! ## The power policy (R14, R270) -/

/-- The die is within its share of 112 W. -/
def State.shareKept (s : State) (die : Nat) : Bool := (s.die die).real <= 112

/-- The package is within the lower of 8,000 W and PCAP: the dies' loads beside the 300 W of the host die, the 360 W of the link dies
and the 172 W of slope headroom, which steady load is not granted. -/
def State.capKept (s : State) : Bool := (s.dies.map Die.real).sum + 832 <= min 8000 s.pcap

/-- The policy's answer to a step whose load is beyond a share or the cap: each quarter of the die goes one step of 50 MHz lower, to no
lower than 0.30 GHz.  The manual leaves the choice of the settings to the policy (DESIGN CHOICE, log entry 87). -/
def State.policyStep (s : State) (die : Nat) : State :=
  if s.shareKept die && s.capKept then s
  else (List.range 4).foldl (fun s q =>
    let k := s.quarter die q
    if k.relocking || k.front < 350 then s else s.clockSet die q (k.front - 50) k.ratio2) s

/-- Twice the median: the two middle numbers added. -/
def median2 (l : List Nat) : Nat :=
  let l := l.insertionSort (· ≤ ·)
  l.getD (l.length / 2) 0 + l.getD ((l.length - 1) / 2) 0

/-- The quarters that run a launch. -/
def State.quartersOf (s : State) (launch : Nat) : List (Nat × Nat) :=
  ((s.teams.filter fun t => t.launch = launch && t.state != .ended).map fun t =>
    (dieOf t.core, quarterOf (numOf t.core))).eraseDups

/-- One step of 50 MHz lower, to no lower than 0.30 GHz; the power freed is reported through the management port. -/
def State.clockLower (s : State) (launch : Nat) (d q : Nat) : State :=
  let k := s.quarter d q
  if k.front < 350 then s
  else
    let s := s.updLaunch launch fun l =>
      if l.ceil.any fun c => c.1 = d && c.2.1 = q then l else { l with ceil := (d, q, k.front) :: l.ceil }
    (s.clockSet d q (k.front - 50) k.ratio2).tell "POWER_FREED" [d, q, k.front - 50]

/-- One step higher, up to the setting before the first lowering. -/
def State.clockRaise (s : State) (launch : Nat) (d q : Nat) : State :=
  let k := s.quarter d q
  match (s.launch? launch).bind fun l => l.ceil.find? fun c => c.1 = d && c.2.1 = q with
  | some c => if k.front + 50 <= c.2.2 && clockOk (k.front + 50) k.ratio2 && s.shareKept d && s.capKept then s.clockSet d q (k.front + 50) k.ratio2 else s
  | none => s

/-- Over the last eight phases of a launch: a median wait above a tenth of the median length lowers the front clocks of its
quarters, one below a fiftieth raises them.  After a change eight phases are measured anew (DEDUCED, log entry 53). -/
def State.budgetShare (s : State) (launch : Nat) : State :=
  match s.launch? launch with
  | none => s
  | some l =>
    let w := median2 (l.skew.map (·.1))
    let n := median2 (l.skew.map (·.2))
    let anew (s : State) : State := s.updLaunch launch fun k => { k with skew := [] }
    if l.skew.length < 8 then s
    else if n < 10 * w then anew ((s.quartersOf launch).foldl (fun s q => s.clockLower launch q.1 q.2) s)
    else if 50 * w < n then anew ((s.quartersOf launch).foldl (fun s q => s.clockRaise launch q.1 q.2) s)
    else s

/-- An end marker arrives on a grid object g of a launch: it is no local arrival, and a phase that it completes is measured. -/
def State.gridMarker (s : State) (launch g : Nat) : State :=
  let phase (s : State) : Nat := (((s.launch? launch).map Launch.gsyncs).getD []).getD g SyncObj.fresh |>.phase
  let t := (((s.launch? launch).map Launch.gtimes).getD []).getD g (0, 0)
  let s' := s.arriveOn (Team.stub launch 0) (48 + g)
  if phase s' = phase s then s'.updLaunch launch fun l => { l with gtimes := l.gtimes.set g t }
  else
    let m := (s.now - t.1, s.now - t.2)
    (s'.updLaunch launch fun l => { l with skew := (m :: l.skew).take 8 }).budgetShare launch

end Sys2Proof.Machine
end

