-- ==== Sys2Proof/Machine/Link.lean ====
section
/-!
DEFINITION. The link: ports (R259), reliable frames (R260 to R262), accesses, markers and launches that other devices send
(R263, R264, R266, R153), and what ends the accesses of this device (R265).
-/
namespace Sys2Proof.Machine

/-! ## Ports (R257, R259) -/

/-- A port; DOWN when it is not listed. -/
def State.port (s : State) (p : Nat) : Port := (s.ports.find? (·.ix == p)).getD ⟨p, .down, [], none⟩

/-- Store a port. -/
def State.setPort (s : State) (k : Port) : State := { s with ports := k :: s.ports.filter (·.ix != k.ix) }

/-- Fence a port: its bits in the route table are cleared (R259). -/
def State.fencePort (s : State) (p : Nat) : State :=
  if p < 16 && (s.port p).state != .fenced then
    let s := s.setPort ⟨p, .fenced, [], none⟩
    { s with routes := s.routes.map fun q => (q.1, q.2 &&& ~~~(BitVec.ofNat 16 (2 ^ p))) }
  else s

/-- Move a port to a state, when its state allows it.  An entry to TRAINING is the eighth within 2^30 link cycles: the port is
fenced. -/
def State.portTo (s : State) (p : Nat) (ok : PortState → Bool) (dest : PortState) : State :=
  let old := s.port p
  if p < 16 && ok old.state then
    if dest = .training then
      let since := s.now :: old.trainings.filter fun t => s.now < t + 2 ^ 30
      if 8 <= since.length then s.fencePort p else s.setPort ⟨p, .training, since, none⟩
    else s.setPort ⟨p, dest, old.trainings, none⟩
  else s

/-- Training ends: eight lanes pass, or four of one half, or too few (R259). -/
def State.trained (s : State) (p : Nat) (lanes : BitVec 8) : State :=
  let isT (q : PortState) : Bool := q == .training
  if lanes = 0xFF then s.portTo p isT .up
  else if lanes.extractLsb' 0 4 = 0xF || lanes.extractLsb' 4 4 = 0xF then s.portTo p isT .degraded
  else if p < 16 && (s.port p).state = .training then
    (s.setPort { s.port p with state := .down, failedAt := some s.now }).tell "TRAINING_FAILED" [p]
  else s

/-- A port that failed to train is tried again; only such a port is (R259). -/
def State.retrain (s : State) (p : Nat) : State :=
  if (s.port p).failedAt.isNone then s else s.portTo p (· == .down) .training

/-- A detour between dies whose minimal path has both an x and a y hop (R257): only timing. -/
def State.detour (s : State) (src dst : Nat) : State :=
  if src < 64 && dst < 64 && src % 8 != dst % 8 && src / 8 != dst / 8 then
    { s with detours := (src, dst) :: s.detours.filter (· != (src, dst)) }
  else s

/-! ## Sequence numbers (R261) -/

/-- Sequence number a lies below b, modulo 2^24. -/
def seqBelow (a b : Nat) : Bool := 1 <= (b + 2 ^ 24 - a) % 2 ^ 24 && (b + 2 ^ 24 - a) % 2 ^ 24 < 2 ^ 23

/-- How far b lies ahead of a, modulo 2^24. -/
def seqAhead (a b : Nat) : Nat := (b + 2 ^ 24 - a) % 2 ^ 24

/-- A destination becomes unreachable: what is outstanding toward it ends as a timeout does (R261, R265). -/
def State.unreach (s : State) (dst : Nat) : State :=
  let s := s.markUnreachable dst
  let s := { s with queues := s.queues.map fun (q : HostQueue) => { q with
    accs := q.accs.map fun (a : QAccess) => if a.txid.isSome && a.dev = dst then { a with txid := none, res := some none } else a } }
  (s.remotes.filter fun q => q.dev = dst).foldl (fun s q => s.remoteEnd q .timeout) s

/-- Resend a frame on a usable port.  Sixteen resends without cover make the destination unreachable (R261); a frame whose
ports are all in TRAINING stays held (R268). -/
def State.resend (s : State) (ix : Nat) : State :=
  match s.sent[ix]? with
  | none => s
  | some f =>
    if 17 <= f.tries then s.unreach f.dst
    else
      let ports := s.usablePorts f.dst
      let mask := ((s.routes.find? (·.1 == f.dst)).map (·.2)).getD 0
      let training := (List.range 16).any fun p => mask.getLsbD p && (s.port p).state = .training
      if ports.isEmpty then (if training then s else s.unreach f.dst)
      else
        let port := ports.getD (Config.routeHash (BitVec.ofNat 32 (FrameHdr.unpack f.hdr).txid) % ports.length) 0
        { s with sent := s.sent.modify ix fun f => { f with tries := f.tries + 1, port := port, since := s.now } }

/-- An LNACK: bit i of its bitmap names the number ACKSEQ + i, and exactly those frames are resent (R261). -/
def State.lnackIn (s : State) (h : FrameHdr) (payload : List Byte) : State :=
  let bits := leNat payload
  let hit (f : Sent) : Bool := f.dst = h.src && f.vc = h.vc && seqAhead h.ackseq f.seq < 64
    && bits / 2 ^ seqAhead h.ackseq f.seq % 2 = 1
  (s.sent.filter hit).foldl (fun s f =>
    match s.sent.findIdx? fun x => x.dst = f.dst && x.vc = f.vc && x.seq = f.seq with
    | some i => s.resend i
    | none => s) s

/-! ## Inbound accesses (R263, R264) -/

/-- The VALID tenant entry of a source and tag. -/
def State.tenantAt (s : State) (src tag : Nat) : Option Tenant :=
  s.tenants.find? fun t => t.valid && t.srcdev.toNat = src && t.tag.toNat = tag

/-- Set the FROZEN bit of a tenant entry. -/
def State.freezeTenant (s : State) (ix : Nat) : State :=
  { s with tenants := s.tenants.map fun t => if t.ix = ix then { t with frozen := true } else t }

/-- How an inbound access resolves. -/
inductive Inbound where
  | go (ctx va : Nat) (home : Home)
  /-- A FAULT answer with its reason. -/
  | fault (why : Nat)
  | prot
  | hold
deriving DecidableEq, Repr

/-- Resolve an inbound access (R263); a PROT answer freezes the sender's entry.  One that has passed step 1 completes although the entry
has been frozen since (R264). -/
def State.inbound (s : State) (h : FrameHdr) (write passed : Bool) : State × Inbound :=
  match s.tenantAt h.src h.tag with
  | none => (s, .fault 3)
  | some t =>
    if t.frozen && !passed then (s, .fault 4)
    else
      let ctx := (s.queue t.func.toNat t.queue.toNat).ctxid
      let va := h.addr % 2 ^ 52
      let prot (s : State) : State × Inbound := ((s.tell "FABRIC_PROT" [h.src, h.tag, va]).freezeTenant t.ix, .prot)
      if (s.ctx? ctx).isNone then (s, .fault 3)
      else match s.tableWalk ctx va write with
        | (s, .wait) => (s, .hold)
        | (s, .badVa) => (s, .fault 0)
        | (s, .cause c _) =>
          if c = cPAGE_ABSENT then (s, .fault 0) else if c = cMEMORY_LOST then (s, .fault 1) else prot s
        | (s, .home (.dev pa)) => (s, .go ctx va (.dev pa))
        | (s, .home _) => prot s

/-- Answer a request: RESP on VC 1 or WRACK on VC 2, with its tag and transaction id. -/
def State.answer (s : State) (h : FrameHdr) (type status why : Nat) (data : List Byte) : State :=
  s.sendFrame ⟨h.src, 0, if type = 5 then 1 else 2, type, 0, 0, h.tag, 0, 0, h.txid, status, why⟩ data

/-- A frame that must wait. -/
def State.holdFrame (s : State) (h : FrameHdr) (payload : List Byte) (passed : Bool) : State :=
  { s with heldFrames := s.heldFrames ++ [⟨h.pack, payload, passed⟩] }

/-- Perform an inbound access at its home: the bytes of its answer, none for an uncorrectable error (R263).  A READ carries its
byte count as a two-byte payload (PRESUMED, log entry 15). -/
def State.accessAt (s : State) (h : FrameHdr) (payload : List Byte) (ctx va : Nat) (home : Home) : State × Option (List Byte) :=
  let fn := h.ops % 32
  let n := if h.type = 2 then min 512 (leNat payload) else amoWidth fn
  if h.type != 3 && s.eccAt home n then (s, none)
  else if h.type = 2 then (s, some (s.homeRead home n))
  else
    let old := s.homeRead home n
    let new := if h.type = 3 then payload else amoBytes fn old (wordsOf payload (amoRegs fn))
    (((s.sluiceHome ctx va home true).homeWrite home new).dropReplicas ctx va, some (if h.type = 3 then [] else old))

/-- An inbound READ, WRITE or ATOMIC (R263, R264). -/
def State.accessIn (s : State) (h : FrameHdr) (payload : List Byte) (passed : Bool) : State :=
  let back := if h.type = 3 then 6 else 5
  if h.type = 4 && 0x0E < h.ops % 32 then s
  else match s.inbound h (h.type != 2) passed with
    | (s, .hold) => s.holdFrame h payload true
    | (s, .fault why) => s.answer h back 1 why []
    | (s, .prot) => s.answer h back 2 0 []
    | (s, .go ctx va home) => match s.accessAt h payload ctx va home with
      | (s, some data) => s.answer h back 0 0 data
      | (s, none) => s.answer h back 1 2 []

/-! ## Markers (R266) -/

/-- One ARRIVE on cluster object o of cluster cix of a launch; discarded where there is no such object. -/
def State.clusterMarker (s : State) (launch cix o : Nat) : State :=
  match s.cluster? launch cix with
  | some c => if c.ended || o < 32 then s else s.arriveOn (Team.stub launch cix) o
  | none => s

/-- One ARRIVE by a remote end marker on object o of a launch; one that completes a phase of a grid object is measured (R276). -/
def State.markerArrive (s : State) (launch cix o : Nat) : State :=
  if o < 48 then s.clusterMarker launch cix o
  else if o < 56 && (s.launch? launch).isSome then s.gridMarker launch (o - 48)
  else s

/-- One ARRIVE by a marker of the device's own on object o of a launch. -/
def State.ownMarker (s : State) (launch cix o : Nat) : State :=
  if o < 48 then s.clusterMarker launch cix o
  else if o < 56 && (s.launch? launch).isSome then s.arriveOn (Team.stub launch cix) o
  else s

/-- The oldest RUNNING launch of a queue. -/
def State.oldestRunning (s : State) (fn q : Nat) : Option Nat :=
  (s.launches.filter fun l => l.fn = fn && l.q = q && l.state = .running).foldl (fun acc l =>
    match acc with
    | none => some l.id
    | some m => some (min m l.id)) none

/-- A received marker. -/
def State.markerIn (s : State) (h : FrameHdr) : State :=
  match s.tenantAt h.src h.tag with
  | none => s
  | some t =>
    if t.frozen then s
    else match s.oldestRunning t.func.toNat t.queue.toNat with
      | some l => s.markerArrive l (h.addr / 2 ^ 48) (bitsOf h.addr 17 12)
      | none => s

/-! ## Inbound launches (R152, R153) -/

/-- Refuse a launch message; the payload byte 1 tells QFULL (PRESUMED, log entry 16). -/
def State.launchNack (s : State) (h : FrameHdr) (full : Bool) : State :=
  s.sendFrame ⟨h.src, 0, 1, 9, 0, 0, h.tag, 0, 0, h.txid, 0, 0⟩ [if full then 1 else 0]

/-- A mismatch: the entry freezes, and firmware logs it. -/
def State.launchMismatch (s : State) (h : FrameHdr) (t : Tenant) : State :=
  ((s.freezeTenant t.ix).tell "LAUNCH_MISMATCH" [h.src, h.tag]).launchNack h false

/-- Index at which a queue takes its next packet. -/
def HostQueue.writeIx (q : HostQueue) : Word := q.limit.getD q.qrd

/-- A context that is being torn down, or is none: no page of it will come (R137). -/
def State.tornDown (s : State) (ctx : Nat) : Bool :=
  !(s.ctx? ctx).any fun k => k.state != .teardown && k.state != .scrubbing

/-- Another launch message is being written to the queue: its access has no end yet.  Messages take their slots one at a time. -/
def HostQueue.launchBusy (q : HostQueue) (h : FrameHdr) : Bool := q.accs.any fun a => a.frame.isSome && a.frame != some h.pack.toNat

/-- An access for a launch message: it is performed, or the frame waits for a page, for an answer of another device or for the end
of a range invalidation; an access that cannot be performed is a failed check (R153).  The manual does not say what an absent
page does here: the model asks for it and holds the frame (DESIGN CHOICE, log entry 74). -/
def State.launchAccess (s : State) (h : FrameHdr) (t : Tenant) (payload : List Byte) (va : Nat) (op : QOp)
    (k : State → List Byte → State) : State :=
  let q := s.queue t.func.toNat t.queue.toNat
  match s.tableWalk q.ctxid va op.writes with
  | (_, .home (.peer _ _)) => match s.queueAccess q q.writeIx va op (some h.pack.toNat) with
    | (s, .ok data) => k s data
    | (s, .wait) => s.holdFrame h payload false
    | (s, .fail) => s.launchMismatch h t
  | (s, .home hm) => match s.queueAt q.ctxid va hm op with
    | (s, .ok data) => k s data
    | (s, _) => s.launchMismatch h t
  | (s, .wait) => s.holdFrame h payload false
  | (s, .badVa) => s.launchMismatch h t
  | (s, .cause c l) =>
    if c = cPAGE_ABSENT && !s.tornDown q.ctxid then
      (s.openRequest q.ctxid va (if op.writes then 2 else 1) 0 l).holdFrame h payload false
    else s.launchMismatch h t

/-- A launch message whose entry passes every check: its packet is written and made fetchable, or the queue is full. -/
def State.launchAccept (s : State) (h : FrameHdr) (t : Tenant) (payload : List Byte) : State :=
  let q := s.queue t.func.toNat t.queue.toNat
  if (q.writeIx - q.qdone).toNat = 2 ^ q.log2n then s.launchNack h true
  else s.launchAccess h t payload (q.slotVa q.writeIx) (.write (leBytes 1 8 ++ payload.take 56)) fun s _ =>
    s.updQueue q.fn q.q fun k => { k with limit := some (k.writeIx + 1) }

/-- A received launch message (R153): bytes 8 to 63 of a LAUNCH packet (PRESUMED, log entry 16). -/
def State.launchIn (s : State) (h : FrameHdr) (payload : List Byte) : State :=
  match s.tenantAt h.src h.tag with
  | none => (s.tell "LAUNCH_NOENTRY" [h.src, h.tag]).launchNack h false
  | some t =>
    let q := s.queue t.func.toNat t.queue.toNat
    let rec_ := fieldAt payload 0 8
    if t.frozen then s.launchNack h false
    else if s.updating || q.launchBusy h then s.holdFrame h payload false
    else if rec_ < t.reclo.toNat || t.rechi.toNat <= rec_ || !q.en || !q.inbound || payload.length != 56 then
      s.launchMismatch h t
    else s.launchAccess h t payload (rec_ + 48) (.read 12) fun s g =>
      if fieldAt g 0 4 * fieldAt g 4 4 * fieldAt g 8 4 <= t.maxgrid.toNat then s.launchAccept h t payload
      else s.launchMismatch h t

/-! ## Answers (R265) -/

/-- A remote access that a queue makes ends: with data, with a failure, or with PROT, which is PAGE_PROT and freezes the function's
queues until the thaw (R147, R395). -/
def State.queueAnswer (s : State) (txid : Nat) (a : Answer) : State :=
  let mine (x : QAccess) : Bool := x.txid = some txid
  let set (f : QAccess → QAccess) (s : State) : State := { s with queues := s.queues.map fun (q : HostQueue) => { q with
    accs := q.accs.map fun (x : QAccess) => if mine x then f { x with txid := none } else x } }
  match a with
  | .ok data => set (fun x => { x with res := some (some data) }) s
  | .prot =>
    let fns := ((s.queues.filter fun q => q.accs.any mine).map HostQueue.fn).eraseDups
    fns.foldl (fun s f => s.freezeQueues f) (set (fun x => { x with hold := true }) s)
  | _ => set (fun x => { x with res := some none }) s

/-- RESP or WRACK: status 0 OK, 1 FAULT, 2 PROT; an answer that nothing waits for is discarded. -/
def State.answerIn (s : State) (h : FrameHdr) (payload : List Byte) : State :=
  let a : Answer := match h.ops with
    | 0 => .ok payload
    | 2 => .prot
    | _ => .fault
  match s.remotes.find? fun q => q.txid = h.txid && q.dev = h.src with
  | none => s.queueAnswer h.txid a
  | some q => s.remoteEnd q a

/-- A remote access gets no answer in time (R265): its core counts the 262,144 front cycles since its issue.  An access that a queue
makes has no core, and counts as many control-core cycles (DESIGN CHOICE, log entry 31). -/
def State.remoteTimeout (s : State) (core txid : Nat) : State :=
  match s.remotes.find? fun q => q.txid = txid && q.core = core with
  | some q => (s.countTo core (q.since + 262144)).remoteEnd q .timeout
  | none => match (s.queues.flatMap HostQueue.accs).find? fun a => a.txid = some txid with
    | some a => ({ s with ns := max s.ns (a.since + 262144) } : State).queueAnswer txid .timeout
    | none => s

/-! ## Reception (R260, R261) -/

/-- The context that an inbound frame is for: that of its tenant entry's queue, or of the access it answers. -/
def State.frameCtx (s : State) (h : FrameHdr) : Option Nat :=
  if h.type = 5 || h.type = 6 then
    match s.remotes.find? fun q => q.txid = h.txid && q.dev = h.src with
    | some q => s.ctxOf? q.ref
    | none => s.queues.findSome? fun q => (q.accs.find? fun a => a.txid = some h.txid && a.dev = h.src).map QAccess.ctx
  else if h.type = 2 || h.type = 3 || h.type = 4 || h.type = 7 || h.type = 8 then
    (s.tenantAt h.src h.tag).map fun t => (s.queue t.func.toNat t.queue.toNat).ctxid
  else none

/-- A frame of a log is supplied to a replaying context (R136): an access is made in its page table and not answered, an answer goes
to its oldest remote access at that device, a marker to its oldest launch.  A launch message comes again as the packet that it
became. -/
def State.replayFrame (s : State) (ctx : Nat) (h : FrameHdr) (payload : List Byte) : State :=
  match h.type with
  | 2 | 3 | 4 => match s.tableWalk ctx (h.addr % 2 ^ 52) (h.type != 2) with
    | (s, .home (.dev pa)) => (s.accessAt h payload ctx (h.addr % 2 ^ 52) (.dev pa)).1
    | (s, _) => s
  | 5 | 6 =>
    let wrack (a : Access) : Bool := match a with
      | .store _ _ => true
      | _ => false
    let a : Answer := match h.ops with
      | 0 => .ok payload
      | 2 => .prot
      | _ => .fault
    match s.remotes.find? fun q => q.dev = h.src && s.ctxOf? q.ref = some ctx && wrack q.acc = (h.type = 6) with
    | some q => s.remoteEnd q a
    | none => s
  | 7 => match ((s.launches.filter fun l => l.ctx = ctx && l.state = .running).map Launch.id).min? with
    | some l => s.markerArrive l (h.addr / 2 ^ 48) (bitsOf h.addr 17 12)
    | none => s
  | _ => s

/-- The next record of a replaying context's log is a frame: it is supplied (R136), and captured as it arrives (R135). -/
def State.takeLogged (s : State) (ctx : Nat) : State :=
  match (s.ctx? ctx).bind Ctx.replay with
  | none => s
  | some log => match log.find? fun x => x.kind != 2 with
    | some x =>
      if x.kind = 1 then
        ((s.updCtx ctx fun k => { k with replay := some (log.erase x) }).capture ctx x).replayFrame ctx
          (FrameHdr.unpack (BitVec.ofNat 256 (x.nums.headD 0))) x.bytes
      else s
    | none => s

/-- Every inbound frame for a context is captured as it arrives (R135). -/
def State.captureFrame (s : State) (h : FrameHdr) (payload : List Byte) : State :=
  match s.frameCtx h with
  | some c => s.capture c ⟨1, [h.pack.toNat], payload⟩
  | none => s

/-- What a received frame does. -/
def State.frameAct (s : State) (h : FrameHdr) (payload : List Byte) (passed : Bool) : State :=
  match h.type with
  | 0 => s.lnackIn h payload
  | 1 => s
  | 2 | 3 | 4 => s.accessIn h payload passed
  | 5 | 6 => s.answerIn h payload
  | 7 => s.markerIn h
  | 8 => s.launchIn h payload
  | _ => s.tell "LAUNCHNACK" [h.src, h.txid, leNat payload]

/-- A frame arrives: it is captured, and it acts. -/
def State.frameTaken (s : State) (h : FrameHdr) (payload : List Byte) : State := (s.captureFrame h payload).frameAct h payload false

/-- Receive a frame.  A bad header is as lost.  ACKSEQ covers what was sent.  A gap asks for the missing numbers, a
duplicate or a number outside the window is dropped, and a frame taken acts once and is acknowledged. -/
def State.frameIn (s : State) (hdr : BitVec 256) (payload : List Byte) : State :=
  let h := FrameHdr.unpack hdr
  if frameBad hdr || h.len != payload.length || 512 < h.len then s
  else if s.ownDevice h.src then s.frameTaken h payload
  else
    let s : State := { s with sent := s.sent.filter fun f => !(f.dst = h.src && f.vc = h.vc && seqBelow f.seq h.ackseq) }
    if h.type < 2 then s.frameAct h payload false
    else
      let rx := s.rxOf h.src h.vc
      if rx.above.contains h.seq || 4096 <= seqAhead rx.next h.seq then
        (if seqBelow h.seq rx.next || rx.above.contains h.seq then s.sendAck h.src h.vc none else s)
      else
        let have_ := h.seq :: rx.above
        let next := have_.foldl (fun n _ => if have_.contains n then (n + 1) % 2 ^ 24 else n) rx.next
        let rx' : RxState := ⟨h.src, h.vc, next, have_.filter fun n => seqAhead next n < 4096⟩
        let s : State := { s with rx := rx' :: s.rx.filter fun q => !(q.src = h.src && q.vc = h.vc) }
        let miss := (List.range 64).foldl (fun acc i =>
          if i < seqAhead next h.seq && seqAhead next h.seq < 4096 && !rx'.above.contains ((next + i) % 2 ^ 24)
          then acc + 2 ^ i else acc) 0
        let s := s.sendAck h.src h.vc (if rx.next = h.seq || miss = 0 then none else some miss)
        s.frameTaken h payload

/-- Receive a frame of one type. -/
def State.frameOf (s : State) (type : Nat) (hdr : BitVec 256) (payload : List Byte) : State :=
  if (FrameHdr.unpack hdr).type = type then s.frameIn hdr payload else s

/-- The next frame from this device itself arrives. -/
def State.takeLoopback (s : State) : State :=
  match s.loopback with
  | [] => s
  | q :: rest => { s with loopback := rest }.frameTaken (FrameHdr.unpack q.1) q.2

/-- The next frame that waited acts. -/
def State.takeHeld (s : State) : State :=
  match s.heldFrames with
  | [] => s
  | q :: rest => { s with heldFrames := rest }.frameAct (FrameHdr.unpack q.hdr) q.payload q.passed

/-- FRAME_LNACK (R261).  -/
def execFrameLnack (hdr : BitVec 256) (payload : List (BitVec 8)) (st : State) : Res :=
  .next (st.frameOf 0 hdr payload)

/-- FRAME_ACKONLY (R261).  -/
def execFrameAckonly (hdr : BitVec 256) (payload : List (BitVec 8)) (st : State) : Res :=
  .next (st.frameOf 1 hdr payload)

/-- FRAME_READ (R263).  -/
def execFrameRead (hdr : BitVec 256) (payload : List (BitVec 8)) (st : State) : Res :=
  .next (st.frameOf 2 hdr payload)

/-- FRAME_WRITE (R263).  -/
def execFrameWrite (hdr : BitVec 256) (payload : List (BitVec 8)) (st : State) : Res :=
  .next (st.frameOf 3 hdr payload)

/-- FRAME_ATOMIC (R263).  -/
def execFrameAtomic (hdr : BitVec 256) (payload : List (BitVec 8)) (st : State) : Res :=
  .next (st.frameOf 4 hdr payload)

/-- FRAME_RESP (R265).  -/
def execFrameResp (hdr : BitVec 256) (payload : List (BitVec 8)) (st : State) : Res :=
  .next (st.frameOf 5 hdr payload)

/-- FRAME_WRACK (R265).  -/
def execFrameWrack (hdr : BitVec 256) (payload : List (BitVec 8)) (st : State) : Res :=
  .next (st.frameOf 6 hdr payload)

/-- FRAME_MARKER (R266).  -/
def execFrameMarker (hdr : BitVec 256) (payload : List (BitVec 8)) (st : State) : Res :=
  .next (st.frameOf 7 hdr payload)

/-- FRAME_LAUNCH (R153).  -/
def execFrameLaunch (hdr : BitVec 256) (payload : List (BitVec 8)) (st : State) : Res :=
  .next (st.frameOf 8 hdr payload)

/-- FRAME_LAUNCHNACK (R153).  -/
def execFrameLaunchnack (hdr : BitVec 256) (payload : List (BitVec 8)) (st : State) : Res :=
  .next (st.frameOf 9 hdr payload)

/-- DISCARDED_FRAME (R260). The receiver treats the frame as lost. -/
def execDiscardedFrame (hdr : BitVec 256) (payload : List (BitVec 8)) (crc : BitVec 32) (st : State) : Res :=
  .next (if crc = frameCrc hdr payload && !frameBad hdr then st else st.tell "FRAME_DISCARDED" [payload.length])

/-- REMOTE_TIMEOUT (R265).  -/
def execRemoteTimeout (core : Nat) (txid : BitVec 32) (st : State) : Res :=
  .next (st.remoteTimeout core txid.toNat)

/-- FRAME_RESEND_TIMEOUT (R261).  -/
def execFrameResendTimeout (ix : Nat) (st : State) : Res :=
  .next (st.resend ix)

/-- UNREACHABLE_CLEAR (R261).  -/
def execUnreachableClear (dev : BitVec 12) (st : State) : Res :=
  .next { st with unreachable := st.unreachable.filter (· != dev.toNat) }

/-- PORT_ENABLE (R259).  -/
def execPortEnable (port : Nat) (st : State) : Res :=
  .next (st.portTo port (· == .down) .training)

/-- TRAINING_COMPLETE (R259).  -/
def execTrainingComplete (port : Nat) (lanes : BitVec 8) (st : State) : Res :=
  .next (st.trained port lanes)

/-- TRAINING_RETRY_TIMER (R259). Only a port that has trained and failed is retried. -/
def execTrainingRetryTimer (port : Nat) (st : State) : Res :=
  .next (st.retrain port)

/-- LANE_FAULT (R259).  -/
def execLaneFault (port : Nat) (st : State) : Res :=
  .next (st.portTo port (fun q => q == .up || q == .degraded) .training)

/-- PORT_FENCE (R259).  -/
def execPortFence (port : Nat) (st : State) : Res :=
  .next (st.fencePort port)

/-- PORT_UNFENCE (R259).  -/
def execPortUnfence (port : Nat) (st : State) : Res :=
  .next (st.portTo port (· == .fenced) .down)

/-- ROUTE_DETOUR (R257).  -/
def execRouteDetour (src : Nat) (dst : Nat) (st : State) : Res :=
  .next (st.detour src dst)

end Sys2Proof.Machine
end

