-- ==== Sys2Proof/Machine/Object.lean ====
section
/-!
DEFINITION. Named objects (R167 to R180): the name directory, NOBJ, moves and restores; and SEND.EMARK (R266, R380).
-/
namespace Sys2Proof.Machine

/-! ## The directory (R168) -/

/-- The die index a name hashes to. -/
def nameHash (ctx : Nat) (name : DWord) : Nat :=
  (List.range 10).foldl (fun a i => a ^^^ bitsOf name.toNat (6 * i + 5) (6 * i)) (bitsOf name.toNat 63 60) ^^^ ctx % 64

/-- The first live die at or after an index, wrapping. -/
def homeFrom (live : Nat → Bool) (d : Nat) : Nat :=
  (((List.range 64).map fun i => (d + i) % 64).find? live).getD d

/-- The home die of a name. -/
def State.homeDie (s : State) (ctx : Nat) (name : DWord) : Nat := homeFrom (fun d => !s.dieFenced d) (nameHash ctx name)

/-- The entry of a name is being rebuilt on a new home die. -/
def State.rebuilding (s : State) (ctx : Nat) (name : DWord) : Bool :=
  s.dies.any fun d => d.rebuilding && homeFrom (fun x => x = d.id || !s.dieFenced x) (nameHash ctx name) = d.id

/-- The live entry of a name. -/
def State.obj? (s : State) (ctx : Nat) (name : DWord) : Option Obj := s.objs.find? fun o => o.ctx = ctx && o.name = name

/-- The entry is DOOMED: dropped while open. -/
def Obj.isDoomed (ob : Obj) : Bool := ob.doomed && ob.state = .resident

/-! ## Scratch space (R82, R167) -/

/-- The object has a region on its holder. -/
def Obj.placed (ob : Obj) : Bool := ob.state = .resident || ob.state = .moving || ob.state = .restoring

/-- Regions of a core's scratch in use: windows, objects, targets of moves, and windows reserved for a placement move (R174). -/
def State.occupied (s : State) (core : Nat) : List (Nat × Nat) :=
  ((s.teams.filter fun t => t.core = core && (t.state = .resident || t.state = .saving || t.state = .killing)).map fun t =>
    (t.winBase, t.scrsz))
    ++ ((s.objs.filter fun o => o.placed && o.holder = core).map fun o => (o.base, o.size))
    ++ ((s.objs.filter fun o => o.state = .moving && o.target = core).map fun o => (o.targetBase, o.size))
    ++ (s.launches.flatMap fun l => (l.wins.filter fun w => w.1 = core).map fun w => (w.2, l.recd.scrsz))

/-- A region lies in the scratchpad and meets none of these. -/
def regionFree (occ : List (Nat × Nat)) (base size : Nat) : Bool :=
  base + size <= 2 ^ 21 && occ.all fun q => base + size <= q.1 || q.1 + q.2 <= base || q.2 = 0

/-- The lowest 256-byte-aligned region of a size that meets none of these. -/
def lowestFree (occ : List (Nat × Nat)) (size : Nat) : Option Nat :=
  ((0 :: occ.map fun q => (q.1 + q.2 + 255) / 256 * 256).filter fun b => regionFree occ b size).foldl (fun acc b =>
    match acc with
    | none => some b
    | some m => some (min m b)) none

/-- Scratch of a core that is not free: regions in use, and what still writes under a live range. -/
def State.scratchInUse (s : State) (core : Nat) : List (Nat × Nat) :=
  s.occupied core ++ ((s.core core).ranges.filter fun q => q.writes != 0).map fun q => (q.base, q.len)

/-- The lowest 256-byte-aligned region of a size that a core has free; what still writes keeps its range.  The manual leaves the offsets open (DESIGN CHOICE, log
entry 66). -/
def State.freeBase (s : State) (core size : Nat) : Option Nat := lowestFree (s.scratchInUse core) size

/-- Object slots of a core in use (R167). -/
def State.objSlots (s : State) (core : Nat) : Nat :=
  s.objs.countP fun o => (o.placed && o.holder = core) || (o.state = .moving && o.target = core)

/-- A region for an object on a core: a slot and contiguous space. -/
def State.objSpace (s : State) (core size : Nat) : Option Nat :=
  if 32 <= s.objSlots core then none else s.freeBase core size

/-- A %CORE value that names a compute core able to hold an object (R170). -/
def State.coreUsable (s : State) (core : Nat) : Bool :=
  core / 256 < 64 && core % 256 < 48 && !(s.core core).disabled && !s.coreGone core

/-! ## Status values (R170) -/

def objAbsent : Word := 0xFFFFFFFF
def objExists : Word := 0xFFFFFFFE
def objNospace : Word := 0xFFFFFFFD
def objBadarg : Word := 0xFFFFFFFC
def objNotopen : Word := 0xFFFFFFFB
def objLost : Word := 0xFFFFFFA0
def objRemote : Word := 0xFFFFFFA1
def objBusy : Word := 0xFFFFFFA2

/-! ## Operations (R169 to R171, R175, R177) -/

/-- Scratch address of an object for a team: local, or on another core of its cluster; none when its holder is neither. -/
def State.objAddress (s : State) (tm : Team) (ob : Obj) : Option Word :=
  let word (rmt pos : Nat) : Word := BitVec.ofNat 32 (2 ^ 26 + rmt * 2 ^ 25 + pos * 2 ^ 21 + ob.base)
  if ob.holder = tm.core then some (word 0 0)
  else ((List.range (s.clusterSize tm)).find? fun p => s.clusterCore tm p = ob.holder).map fun p => word 1 p

/-- The team has the object open. -/
def Team.hasOpen (tm : Team) (name : DWord) : Bool := tm.opens.any fun o => o.name = name && !o.lost && !o.handed

/-- Record that a team has an object open. -/
def State.setOpen (s : State) (tm : Team) (name : DWord) : State :=
  s.updTeam tm.id fun t => { t with opens := ⟨name, false, false⟩ :: t.opens.filter (·.name != name) }

/-- A team has an object open no longer. -/
def State.clearOpen (s : State) (tm : Team) (name : DWord) : State :=
  s.updTeam tm.id fun t => { t with opens := t.opens.filter (·.name != name) }

/-- A team has handed an object on: its open is closed (R175). -/
def State.handOpen (s : State) (tm : Team) (name : DWord) : State :=
  s.updTeam tm.id fun t => { t with opens := t.opens.map fun (o : OpenRef) => if o.name = name then { o with handed := true } else o }

/-- What an object's jobs still needed of a hand-over is done. -/
def State.forgetHanded (s : State) (ctx : Nat) (name : DWord) : State :=
  { s with teams := s.teams.map fun (t : Team) =>
      if t.ctx = ctx then { t with opens := t.opens.filter fun o => !(o.name = name && o.handed) } else t }

/-- An entry is dropped: its region is zeroed and freed with it. -/
def State.dropObj (s : State) (ob : Obj) : State :=
  let s := if ob.placed then s.updCore ob.holder fun c => { c with scratch := c.scratch.clear ob.base ob.size } else s
  { s with objs := s.objs.filter fun o => !(o.ctx = ob.ctx && o.name = ob.name) }

/-- Drop an entry that is DOOMED with no opens. -/
def State.dropDoomed (s : State) (ctx : Nat) (name : DWord) : State :=
  match s.obj? ctx name with
  | some ob => if ob.isDoomed && ob.k = 0 then s.dropObj ob else s
  | none => s

/-- One NOBJ operation of a thread, handled by the home die when it issues; its answer goes to V[v+2] (R377). -/
def State.nobj (s : State) (r : ThreadRef) (v : Nat) (f : State → Team → Thread → DWord → State × Word) : State :=
  match s.thread? r, s.team? r.team with
  | some th, some tm =>
    let name := th.pair v
    let q := if s.rebuilding tm.ctx name then (s, objBusy) else f s tm th name
    q.1.updThread r fun th => th.setReg (v + 2) q.2
  | _, _ => s

/-- CREATE. -/
def State.nobjCreate (s : State) (tm : Team) (name : DWord) (size : Nat) : State × Word :=
  if name = 0 || size % 256 != 0 || size < 256 || 1048576 < size then (s, objBadarg)
  else if (s.obj? tm.ctx name).isSome then (s, objExists)
  else if 4096 <= s.objs.countP fun o => s.homeDie o.ctx o.name = s.homeDie tm.ctx name then (s, objNospace)
  else match s.objSpace tm.core size with
    | none => (s, objNospace)
    | some base =>
      let ob : Obj := ⟨tm.ctx, name, .resident, false, 1, tm.core, base, size, none, [], 0, 0, [], none⟩
      let s := s.updCore tm.core fun c => { c with scratch := c.scratch.clear base size }
      (({ s with objs := ob :: s.objs } : State).setOpen tm name, BitVec.ofNat 32 (2 ^ 26 + base))

/-- OPEN. -/
def State.nobjOpen (s : State) (tm : Team) (name : DWord) : State × Word :=
  match s.obj? tm.ctx name with
  | none => (s, objAbsent)
  | some ob =>
    if ob.isDoomed then (s, objAbsent)
    else if ob.state = .lost then (s, objLost)
    else if ob.state = .moving || ob.state = .restoring then (s, objBusy)
    else if ob.state = .spilled then (s, objRemote)
    else match s.objAddress tm ob with
      | none => (s, objRemote)
      | some a =>
        if tm.hasOpen name then (s, a)
        else if 63 <= ob.k then (s, objBusy)
        else ((s.updObj tm.ctx name fun o => { o with k := o.k + 1 }).setOpen tm name, a)

/-- CLOSE, its release already done.  An open that was lost with its holder closes too (R179). -/
def State.nobjClose (s : State) (tm : Team) (name : DWord) : State × Word :=
  if tm.opens.any fun o => o.name = name && o.lost && !o.handed then (s.clearOpen tm name, 0)
  else if !tm.hasOpen name then (s, objNotopen)
  else (((s.updObj tm.ctx name fun o => { o with k := o.k - 1 }).clearOpen tm name).dropDoomed tm.ctx name, 0)

/-- HAND, its release already done (R175).  Where several statuses apply, that of an object not open comes first, then that of a bad
argument, then that of a busy one; MIRROR has the same order (DESIGN CHOICE, log entry 99). -/
def State.nobjHand (s : State) (tm : Team) (name : DWord) (target : Nat) : State × Word :=
  match s.obj? tm.ctx name with
  | none => (s, objNotopen)
  | some ob =>
    if !tm.hasOpen name then (s, objNotopen)
    else if !s.coreUsable target then (s, objBadarg)
    else if ob.isDoomed then (s, objBusy)
    else if target = ob.holder then s.nobjClose tm name
    else if ob.k != 1 || ob.state != .resident then (s, objBusy)
    else match s.objSpace target ob.size with
      | none => (s, objNospace)
      | some base =>
        ((s.updObj tm.ctx name fun o => { o with state := .moving, k := 0, target := target, targetBase := base }).handOpen
          tm name, 0)

/-- DROP. -/
def State.nobjDrop (s : State) (ctx : Nat) (name : DWord) : State × Word :=
  match s.obj? ctx name with
  | none => (s, objAbsent)
  | some ob =>
    if ob.isDoomed then (s, objAbsent)
    else if ob.state = .lost || ob.state = .spilled || (ob.state = .resident && ob.k = 0) then (s.dropObj ob, 0)
    else (s.updObj ctx name fun o => { o with doomed := true }, 0)

/-- STATE of the QUERY word (R171). -/
def Obj.stateCode (ob : Obj) : Nat :=
  if ob.isDoomed then 4
  else match ob.state with
    | .resident => 1
    | .moving => 2
    | .spilled => 3
    | .lost => 5
    | .restoring => 6

/-- QUERY. -/
def State.nobjQuery (s : State) (ctx : Nat) (name : DWord) : State × Word :=
  match s.obj? ctx name with
  | none => (s, objAbsent)
  | some ob =>
    (s, BitVec.ofNat 32 ((if ob.mirror.isSome then 2 ^ 28 else 0) + ob.k * 2 ^ 22 + ob.holder * 2 ^ 8 + ob.stateCode))

/-- Write the first n blocks of an object to a new mirror address, until one does not go. -/
def State.mirrorWhole (s : State) (r : ThreadRef) (tm : Team) (ob : Obj) (addr : DWord) : List Nat → State × Bool
  | [] => (s, true)
  | b :: rest =>
    let q := s.mirrorBlock r tm (addr + BitVec.ofNat 64 (256 * b)) (s.objBlock ob b)
    if q.2 then q.1.mirrorWhole r tm ob addr rest else (q.1, false)

/-- MIRROR, its release already done: the whole object is written first, and a block that faults makes the thread issue the
word again after its cause (R177). -/
def State.nobjMirror (s : State) (r : ThreadRef) (v : Nat) : State :=
  match s.thread? r, s.team? r.team with
  | some th, some tm =>
    let name := th.pair v
    let addr := th.pair (v + 2)
    let out (s : State) (x : Word) : State := s.updThread r fun th => th.setReg (v + 2) x
    if s.rebuilding tm.ctx name then out s objBusy
    else match s.obj? tm.ctx name with
      | none => out s objNotopen
      | some ob =>
        if !tm.hasOpen name then out s objNotopen
        else if addr.toNat % 256 != 0 then out s objBadarg
        else if addr = 0 then out (s.updObj tm.ctx name fun o => { o with mirror := none, dirty := [] }) 0
        else
          let q := s.mirrorWhole r tm ob addr (List.range (ob.size / 256))
          if q.2 then out (q.1.updObj tm.ctx name fun o => { o with mirror := some addr.toNat, dirty := [] }) 0 else q.1
  | _, _ => s

/-! ## Copies of objects -/

/-- A tile-walker job issued by a team before it handed the object on has tiles to write there (R175). -/
def Obj.jobWrites (ob : Obj) (t : Team) (j : TwkJob) : Bool :=
  let h := Shape.of j.recd
  let off := (h.sbase.extractLsb' 0 21).toNat
  j.team = t.id && (j.fn = 0 || j.fn = 2) && !j.error && h.sbase.getLsbD 26
    && ob.base <= off && off < ob.base + ob.size && t.core = ob.holder
    && t.opens.any fun o => o.name = ob.name && o.handed

/-- A live scoreboard range of the holder still writes into the object, or a queued store of a core or a tile-walker job issued
before the hand-over does (R175). -/
def State.objBusyAt (s : State) (ob : Obj) : Bool :=
  (s.core ob.holder).rangeBusy ob.base ob.size || s.cores.any (fun c => c.remoteBusy ob.holder ob.base ob.size)
    || s.teams.any fun t => t.ctx = ob.ctx && (((s.core ob.holder).twq ++ t.savedJobs).any (ob.jobWrites t))

/-- A move or hand-over copy completes (R169). -/
def State.objectCopied (s : State) (ctx : Nat) (name : DWord) : State :=
  match s.obj? ctx name with
  | none => s
  | some ob =>
    if ob.state != .moving || s.objBusyAt ob then s
    else
      let data := (s.core ob.holder).scratch.slice ob.base ob.size
      let s := s.updCore ob.holder fun c => { c with scratch := c.scratch.clear ob.base ob.size }
      let s := s.updCore ob.target fun c => { c with
        scratch := (c.scratch.clear ob.targetBase ob.size).paste ob.targetBase data }
      let s := s.updObj ctx name fun o => { o with
        state := .resident, holder := ob.target, base := ob.targetBase, target := 0, targetBase := 0, forLaunch := none }
      (s.forgetHanded ctx name).dropDoomed ctx name

/-- Read n bytes of a context for firmware, block by block; none where a page is not there. -/
def State.firmwareRead (s : State) (ctx va : Nat) : Nat → Option (List Byte)
  | 0 => some []
  | n + 1 =>
    match (s.tableWalk ctx va false).2 with
    | .home h => (s.firmwareRead ctx (va + 256) n).map fun bs => s.homeRead h 256 ++ bs
    | _ => none

/-- Write blocks of 256 bytes for firmware; false where a page is not there. -/
def State.firmwareWrite (s : State) (ctx va : Nat) : List (List Byte) → State × Bool
  | [] => (s, true)
  | b :: bs =>
    match s.tableWalk ctx va true with
    | (s, .home h) => ((s.homeWrite h b).dropReplicas ctx va).firmwareWrite ctx (va + 256) bs
    | (s, _) => (s, false)

/-- A restore copy completes (R169, R176, R179): from the mirror or from the save area.  It waits for a page that is absent. -/
def State.objectRestored (s : State) (ctx : Nat) (name : DWord) : State :=
  match s.obj? ctx name with
  | none => s
  | some ob =>
    if ob.state != .restoring then s
    else
      let data : Option Memory := match ob.mirror with
        | some m => (s.firmwareRead ctx m (ob.size / 256)).map fun bs => Memory.writeBytes [] 0 bs
        | none => some ob.backing
      match data with
      | none => s
      | some bs =>
        let s := s.updCore ob.holder fun c => { c with scratch := (c.scratch.clear ob.base ob.size).paste ob.base bs }
        let s := s.updObj ctx name fun o => { o with state := .resident, k := 0, backing := [], dirty := [], forLaunch := none }
        s.dropDoomed ctx name

/-! ## SEND.EMARK (R266, R380) -/

/-- The marker descriptor breaks R266. -/
def markerBad (d : DWord) : Bool :=
  let o := (d.extractLsb' 12 6).toNat
  o < 32 || 56 <= o || d.extractLsb' 18 14 != 0 || (48 <= o && d.extractLsb' 48 16 != 0)

/-- The thread's earlier loads have been performed, and its writes toward a device answered; for the own device, its package writes. -/
def State.markerReady (s : State) (r : ThreadRef) (dev : Nat) : Bool :=
  match s.thread? r with
  | none => true
  | some th => !s.remoteLoads r && if s.ownDevice dev then th.ackPkg = 0 else th.devCount dev = 0

/-- EMARK by one thread: check, release, wait, then send.  The release meets a NACK that is there when it begins; one that comes during
the wait only ends it.  The own device's marker is a local arrival of the thread's own launch. -/
def State.emark (s : State) (r : ThreadRef) (v : Nat) : State :=
  match s.thread? r, s.team? r.team with
  | some th, some tm =>
    let d := th.pair v
    let dev := (d.extractLsb' 0 12).toNat
    let o := (d.extractLsb' 12 6).toNat
    let cix := (d.extractLsb' 48 16).toNat
    if markerBad d then s.raise r cSYNC_ERROR
    else if th.nackPending && !th.marking && s.markerReady r dev then
      (s.updThread r fun th => { th with nackPending := false }).raise r cSTORE_NACK
    else if !s.markerReady r dev then (s.updThread r fun th => { th with marking := th.marking || !th.nackPending }).block r (.marker dev)
    else
      let s := s.updThread r fun th => { th with marking := false }
      if s.ownDevice dev then s.ownMarker tm.launch cix o else
      let q := s.takeTx
      q.1.sendFrame ⟨dev, 0, 3, 7, 0, 0, (d.extractLsb' 32 16).toNat, 0, d.toNat, q.2, 0, 0⟩ []
  | _, _ => s

/-- NOBJ_CREATE (R169).  -/
def execNobjCreate (c : Bool) (v : BitVec 6) (p : BitVec 3) (st : State) : Res :=
  predWord (.nobjCreate c v p) p.toNat (fun st r => st.nobj r v.toNat fun st tm th name => st.nobjCreate tm name (th.reg (v.toNat + 2)).toNat) st

/-- NOBJ_OPEN (R171).  -/
def execNobjOpen (c : Bool) (v : BitVec 6) (p : BitVec 3) (st : State) : Res :=
  predWord (.nobjOpen c v p) p.toNat (fun st r => st.nobj r v.toNat fun st tm _ name => st.nobjOpen tm name) st

/-- NOBJ_CLOSE (R171).  -/
def execNobjClose (c : Bool) (v : BitVec 6) (p : BitVec 3) (st : State) : Res :=
  predWord (.nobjClose c v p) p.toNat (fun st r => st.release r 4 fun st => st.nobj r v.toNat fun st tm _ name => st.nobjClose tm name) st

/-- NOBJ_HAND (R175).  -/
def execNobjHand (c : Bool) (v : BitVec 6) (p : BitVec 3) (st : State) : Res :=
  predWord (.nobjHand c v p) p.toNat (fun st r => st.release r 4 fun st => st.nobj r v.toNat fun st tm th name => st.nobjHand tm name (th.reg (v.toNat + 2)).toNat) st

/-- NOBJ_DROP (R169).  -/
def execNobjDrop (c : Bool) (v : BitVec 6) (p : BitVec 3) (st : State) : Res :=
  predWord (.nobjDrop c v p) p.toNat (fun st r => st.nobj r v.toNat fun st tm _ name => st.nobjDrop tm.ctx name) st

/-- NOBJ_QUERY (R171).  -/
def execNobjQuery (c : Bool) (v : BitVec 6) (p : BitVec 3) (st : State) : Res :=
  predWord (.nobjQuery c v p) p.toNat (fun st r => st.nobj r v.toNat fun st tm _ name => st.nobjQuery tm.ctx name) st

/-- NOBJ_MIRROR (R177).  -/
def execNobjMirror (c : Bool) (v : BitVec 6) (p : BitVec 3) (st : State) : Res :=
  predWord (.nobjMirror c v p) p.toNat (fun st r => st.release r 4 fun st => st.nobjMirror r v.toNat) st

/-- OBJECT_RESTORE_COMPLETE (R169).  -/
def execObjectRestoreComplete (ctx : Nat) (name : BitVec 64) (st : State) : Res :=
  .next (st.objectRestored ctx name)

/-- DIRECTORY_REBUILD_COMPLETE (R168). The entries of every die that rebuild on this one are complete. -/
def execDirectoryRebuildComplete (die : Nat) (st : State) : Res :=
  .next { st with dies := st.dies.map fun (d : Die) =>
    if d.fenced && homeFrom (fun x => !st.dieFenced x) d.id = die then { d with rebuilding := false } else d }

/-- SEND_EMARK (R380).  -/
def execSendEmark (c : Bool) (v : BitVec 6) (p : BitVec 3) (st : State) : Res :=
  predWord (.sendEmark c v p) p.toNat (fun st r => st.emark r v.toNat) st

end Sys2Proof.Machine
end

