-- ==== Sys2Proof/Machine/Task.lean ====
section
/-!
DEFINITION. TASK words (R378, R379, R148 to R151): one action for each group in the bundle.
-/
namespace Sys2Proof.Machine

/-- A TASK word acts once for each group with threads in the bundle whose predicate is true, in ascending group number;
groups of one number act in the order of their teams (R379). -/
def taskWord (i : Instr) (p : Nat) (f : State → Team → List ThreadRef → State) (st : State) : Res :=
  let st := st.eachIssuing i fun s _ => s
  let on := st.issue.bundle.filter fun r => match st.thread? r with
    | some th => th.pred p
    | none => false
  let keys := ((on.map fun r => (r.team, r.tid / 32)).eraseDups).insertionSort fun a b => a.2 <= b.2
  .next (keys.foldl (fun s k =>
    match s.team? k.1 with
    | some tm =>
      let rs := on.filter fun r => r.team = k.1 && r.tid / 32 = k.2 && s.issue.bundle.contains r
      if rs.isEmpty then s else f s tm rs
    | none => s) st)

/-- Raise a cause for every issuing thread of the group. -/
def State.raiseEach (s : State) (rs : List ThreadRef) (c : Cause) : State := s.forRefs rs fun s r => s.raise r c

/-- Every issuing thread of the group waits. -/
def State.blockEach (s : State) (rs : List ThreadRef) (w : WaitKind) : State := s.forRefs rs fun s r => s.block r w

/-- Write a result register in every issuing thread of the group. -/
def State.taskOut (s : State) (rs : List ThreadRef) (v : Nat) (x : Word) : State :=
  s.forRefs rs fun s r => s.updThread r fun th => th.setReg v x

/-- Lanes of the group's issuing threads. -/
def lanesOf (rs : List ThreadRef) : Word := rs.foldl (fun acc r => acc ||| BitVec.ofNat 32 (2 ^ (r.tid % 32))) 0

/-- Registers of the group's lowest issuing lane. -/
def State.firstThread (s : State) (rs : List ThreadRef) : Thread :=
  ((rs.head?.bind s.thread?)).getD (Thread.fresh 64 0)

/-- The release of a TASK word by all of its group's issuing threads: they wait together, a pending STORE_NACK is raised
for its thread, and the word acts for those that are left. -/
def State.taskRelease (s : State) (rs : List ThreadRef) (scope : Nat) (mirror : Bool) (k : State → List ThreadRef → State) :
    State :=
  if rs.any fun r => !s.releaseDone r scope then s.blockEach rs (.together scope (lanesOf rs))
  else
    let s := s.forRefs rs fun s r => if mirror then s.release r scope id else s.releaseBare r scope id
    let left := rs.filter fun r => s.issue.bundle.contains r
    if left.isEmpty then s else k s left

/-- The checks of a TASK word's scratch address: 64-byte alignment, and a local region (R379). -/
def State.taskRegion (s : State) (tm : Team) (rs : List ThreadRef) (v : Nat) (k : Nat → State) : State :=
  let a := (s.firstThread rs).reg v
  if a.toNat % 64 != 0 then s.raiseEach rs cALIGN
  else if a.getLsbD 25 then s.raiseEach rs cSCRATCH_RANGE
  else match s.resolveScratch tm a 64 with
    | .cause c => s.raiseEach rs c
    | .wait => s.blockEach rs (.room (.span a 64))
    | .at_ core off _ => if (s.core core).rangeBusy off 64 then s.blockEach rs (.room (.span a 64)) else k off

/-- PUSH. -/
def State.taskPush (s : State) (tm : Team) (rs : List ThreadRef) (level v : Nat) : State :=
  s.taskRegion tm rs v fun off =>
    s.taskRelease rs 3 false fun s rs =>
      let bytes := (s.core tm.core).scratch.readBytes off 64
      match s.pushTask tm.ctx level tm.core (tm.launch, bytes) with
      | some s => s.taskOut rs v 0
      | none => s.raiseEach rs cTASK_OVERFLOW

/-- POP and TRYPOP; an acquire at die scope follows the record. -/
def State.taskPop (s : State) (tm : Team) (rs : List ThreadRef) (level v : Nat) (waits : Bool) : State :=
  s.taskRegion tm rs v fun off =>
    match s.popTask tm.ctx level tm.core with
    | none => if waits then s.blockEach rs (.task level) else s.taskOut rs v 0xFFFFFFFF
    | some (s, bytes) =>
      let s := (s.homeWrite (.scratch tm.core off) bytes).markDirty tm.core off 64
      (s.invalidateL1 tm.core).taskOut rs v (if taskEos bytes then 1 else 0)

/-- EOS. -/
def State.taskEosWord (s : State) (tm : Team) (rs : List ThreadRef) (level : Nat) : State :=
  s.taskRelease rs 3 false fun s rs =>
    match s.pushTask tm.ctx level tm.core (tm.launch, eosRecord) with
    | some s => s
    | none => s.raiseEach rs cTASK_OVERFLOW

/-- A translation cause of DONE's accesses, of the given kinds (R220): an absent page in PARK mode parks every issuing thread
until its reply, after which the word issues again; an address that is not canonical is refused at once (R219); other causes
are delivered (DEDUCED, log entry 17). -/
def State.taskCause (s : State) (tm : Team) (rs : List ThreadRef) (va : Nat) (c : Cause) (level kinds : Nat) : State :=
  if c = cPAGE_ABSENT && s.parksAbsent tm then
    if 2 ^ 56 <= va then
      (s.forRefs rs fun s r => s.setCause r.team (r.tid / 32) c).killTeam tm.id c rs.head?
    else
      (s.forRefs rs fun s r => ((s.setCause r.team (r.tid / 32) c).parkAtWord r c).updThread r fun th =>
        { th with waitPage := some (va / 65536) }).openRequest tm.ctx va kinds tm.core level
  else s.raiseEach rs c

/-- One of DONE's translating accesses: it goes to the home, waits, or meets its cause. -/
def State.taskAt (s : State) (tm : Team) (rs : List ThreadRef) (va : Nat) (kind : AccKind) (kinds : Nat)
    (k : State → Home → State) : State :=
  match s.translate tm.core tm.ctx va kind with
  | (s, .badVa) => s.taskCause tm rs va cPAGE_ABSENT 0 kinds
  | (s, .wait) => s.blockEach rs (.room (.page va))
  | (s, .cause c l) => s.taskCause tm rs va c l kinds
  | (s, .home h) => k s h

/-- The accesses of the group's DONE at other devices are forgotten. -/
def State.taskForget (s : State) (rs : List ThreadRef) : State :=
  { s with taskAsks := s.taskAsks.filter fun k => !rs.contains k.ref }

/-- An access of DONE at another device (R265): sent once, waited for, and its answer used. -/
def State.taskAsk (s : State) (tm : Team) (rs : List ThreadRef) (va dev wa stage fn : Nat) (payload : List Byte)
    (k : State → List Byte → State) : State :=
  match s.taskAsks.find? fun a => rs.contains a.ref && a.stage = stage with
  | some a => match a.data, a.cause with
    | some data, _ => k s data
    | none, some c => (s.taskForget rs).raiseEach rs c
    | none, none => s.blockEach rs (.room .answer)
  | none =>
    match rs.head? with
    | none => s
    | some r =>
      if s.reachable dev then
        let q := s.sendRemote tm.core r tm.ctx dev wa (.task (BitVec.ofNat 64 va) stage) (if stage = 1 then 4 else 2) fn payload
        ({ q.1 with taskAsks := q.1.taskAsks ++ [⟨r, stage, none, none⟩] } : State).blockEach rs (.room .answer)
      else ((s.noPort dev).taskForget rs).raiseEach rs cREMOTE_TIMEOUT

/-- The record beside a counter that has reached 0 is pushed to the die queue, after what is still to do for the counter
(R150). -/
def State.taskNext (s : State) (tm : Team) (rs : List ThreadRef) (va : Nat) (down : State → State) : State :=
  let push (s : State) (rec : List Byte) : State :=
    match ((down s).taskForget rs).pushTask tm.ctx 3 tm.core (tm.launch, rec) with
    | some s => s
    | none => (s.taskForget rs).raiseEach rs cTASK_OVERFLOW
  s.taskAt tm rs va .load 1 fun s h =>
    match h with
    | .peer dev wa => s.taskAsk tm rs va dev wa 2 0 (leBytes 64 2) fun s data => push s (data.take 64)
    | h =>
      if s.eccAt h 64 then s.raiseEach rs cECC_UNCORR
      else push (s.sluiceCount tm.core tm.ctx va h false) (s.homeRead h 64)

/-- The decrement of a counter at another device.  No fabric atomic leaves a 0 alone, so the counter is read and then taken down
by compare and swap until that holds (DESIGN CHOICE, log entry 75). -/
def State.taskDownPeer (s : State) (tm : Team) (rs : List ThreadRef) (va dev wa : Nat) : State :=
  s.taskAsk tm rs va dev wa 0 0 (leBytes 4 2) fun s data =>
    let old := leNat (data.take 4)
    if old = 0 then s.taskForget rs
    else s.taskAsk tm rs va dev wa 1 9 (leBytes old 4 ++ leBytes (old - 1) 4) fun s seen =>
      if leNat (seen.take 4) = old then
        if old = 1 then s.taskNext tm rs (va + 64) id else s.taskForget rs
      else ({ s with taskAsks := (s.taskAsks.filter fun a => !(rs.contains a.ref && a.stage = 1)).map fun a =>
        if rs.contains a.ref then { a with data := some seen } else a } : State).blockEach rs (.room .answer)

/-- The decrement of a counter at a home of this package or the host; nothing is changed where the record that it would push
cannot be read or pushed. -/
def State.taskDownHere (s : State) (tm : Team) (rs : List ThreadRef) (va : Nat) (h : Home) : State :=
  let old := leNat (s.homeRead h 4)
  let down (s : State) : State := (s.homeWrite h (leBytes (old - 1) 4)).dropReplicas tm.ctx va
  if (s.core tm.core).storeq.any fun q => !q.done && q.overlaps h 4 then s.blockEach rs (.room (.queued h 4))
  else if s.eccAt h 4 then s.raiseEach rs cECC_UNCORR
  else
    let s := s.sluiceCount tm.core tm.ctx va h true
    if old = 0 then s else if old = 1 then s.taskNext tm rs (va + 64) down else down s

/-- DONE (R150). -/
def State.taskDone (s : State) (tm : Team) (rs : List ThreadRef) (v : Nat) : State :=
  let a := (s.firstThread rs).pair v
  if a.toNat % 64 != 0 then s.raiseEach rs cALIGN
  else s.taskRelease rs 4 true fun s rs =>
    if a = 0 then s
    else s.taskAt tm rs a.toNat .store 3 fun s h =>
      match h with
      | .peer dev wa => s.taskDownPeer tm rs a.toNat dev wa
      | h => s.taskDownHere tm rs a.toNat h

/-- TASK_PUSH (R379).  -/
def execTaskPush (c : Bool) (s : BitVec 3) (v : BitVec 6) (p : BitVec 3) (st : State) : Res :=
  taskWord (.taskPush c s v p) p.toNat (fun st g rs => st.taskPush g rs s.toNat v.toNat) st

/-- TASK_POP (R379).  -/
def execTaskPop (c : Bool) (s : BitVec 3) (v : BitVec 6) (p : BitVec 3) (st : State) : Res :=
  taskWord (.taskPop c s v p) p.toNat (fun st g rs => st.taskPop g rs s.toNat v.toNat true) st

/-- TASK_TRYPOP (R379).  -/
def execTaskTrypop (c : Bool) (s : BitVec 3) (v : BitVec 6) (p : BitVec 3) (st : State) : Res :=
  taskWord (.taskTrypop c s v p) p.toNat (fun st g rs => st.taskPop g rs s.toNat v.toNat false) st

/-- TASK_EOS (R151).  -/
def execTaskEos (c : Bool) (s : BitVec 3) (p : BitVec 3) (st : State) : Res :=
  taskWord (.taskEos c s p) p.toNat (fun st g rs => st.taskEosWord g rs s.toNat) st

/-- TASK_DONE (R150).  -/
def execTaskDone (c : Bool) (s : BitVec 3) (v : BitVec 6) (p : BitVec 3) (st : State) : Res :=
  taskWord (.taskDone c s v p) p.toNat (fun st g rs => st.taskDone g rs v.toNat) st

end Sys2Proof.Machine
end

