-- ==== Sys2Proof/Machine/Waits.lean ====
section
/-!
DEFINITION. Fetch (R40), and the ends of waits that no act brings (R83, R101): a thread whose wait is over is ready.
-/
namespace Sys2Proof.Machine

/-! ## Fetch (R40) -/

/-- How a fetch of a packet ends. -/
inductive Fetch where
  | words (ws : List Word)
  | wait
  | cause (c : Cause) (level va : Nat)
  | badVa
deriving DecidableEq, Repr

/-- A page's instruction-cache lines have been dropped. -/
def Ctx.isStale (k : Ctx) (page : Nat) : Bool := k.stale.any fun q => q.1 <= page && page <= q.2

/-- The byte of code at an offset of a page's home: memory as it stood at the context's last launch, or as it stands where
the lines have been dropped (R40). -/
def State.codeByte (s : State) (k : Ctx) (page : Nat) (h : Home) (off : Nat) : Byte :=
  match h with
  | .dev pa => if k.isStale page then s.mem.read (pa + off) else k.code.read (pa + off)
  | .host a => if k.isStale page then s.hostMem.read (a + off) else k.hostCode.read (a + off)
  | _ => 0

/-- A byte of code on another device, from the lines that have been fetched. -/
def Ctx.peerByte (k : Ctx) (va : Nat) : Byte :=
  ((k.peerCode.find? fun l => l.va <= va && va < l.va + l.data.length).map fun l => l.data.getD (va - l.va) 0).getD 0

/-- The page's lines are dropped no longer. -/
def Ctx.unstale (k : Ctx) (page : Nat) : Ctx :=
  { k with stale := k.stale.flatMap fun q =>
      if q.1 <= page && page <= q.2 then
        (if q.1 < page then [(q.1, page - 1)] else []) ++ (if page < q.2 then [(page + 1, q.2)] else [])
      else [q] }

/-- Copy the 64 KiB frame that holds an address from one memory to another. -/
def Memory.copyFrame (to_ from_ : Memory) (a : Nat) : Memory :=
  let f := a / 65536 * 65536
  (to_.clear f 65536).paste f (from_.slice f 65536)

/-- Code of a page is what its frame holds now, from now on; h is the home of the address va. -/
def State.fillCode (s : State) (ctx va : Nat) (h : Home) : State :=
  match h with
  | .dev pa => s.updCtx ctx fun k => { k.unstale (va / 65536) with code := k.code.copyFrame s.mem pa }
  | .host a => s.updCtx ctx fun k => { k.unstale (va / 65536) with hostCode := k.hostCode.copyFrame s.hostMem a }
  | _ => s

/-- A fetch fills the instruction cache from a page whose lines had been dropped. -/
def State.refetch (s : State) (ctx va : Nat) (h : Home) : State :=
  if (s.ctx? ctx).any fun k => k.isStale (va / 65536) then s.fillCode ctx va h else s

/-- Virtual address of a packet, and of its fetch block. -/
def Ctx.packetVa (k : Ctx) (pkt : Word) : Nat := k.codebase + 12 * pkt.toNat
def Ctx.blockVa (k : Ctx) (pkt : Word) : Nat := k.codebase + 48 * (pkt.toNat / 4)

/-- Bytes of a packet that lies at va, from the page homes of its fetch block's first and last byte. -/
def State.packetBytes (s : State) (k : Ctx) (va first last : Nat) (h0 h1 : Home) : List Byte :=
  (List.range 12).map fun i =>
    let inFirst : Bool := (va + i) / 65536 = first / 65536
    let h := if inFirst then h0 else h1
    match h with
    | .peer _ _ => k.peerByte (va + i)
    | _ => if inFirst then s.codeByte k (first / 65536) h (va + i - first)
      else s.codeByte k (last / 65536) h (va + i - last / 65536 * 65536)

/-- The lines of a context's pages on other devices that a drop or a range covers go (R221, R224). -/
def Ctx.dropPeer (k : Ctx) (page : Nat) : Ctx :=
  if k.isStale page then { k.unstale page with peerCode := k.peerCode.filter fun l => l.va / 65536 != page } else k

/-- Part of a fetch block, n bytes at va, that lies on another device: it is read from there, and the bundle waits for the
answer (DEDUCED, log entry 25). -/
def State.peerFetch (s : State) (core ctx va n dev wa : Nat) (h : Home) : State × (Home ⊕ Fetch) :=
  let s := s.updCtx ctx fun k => k.dropPeer (va / 65536)
  let line := ((s.ctx? ctx).bind fun k => k.peerCode.find? fun l => l.va = va).filter fun l =>
    l.txid.all fun t => s.remotes.any fun q => q.txid = t
  let drop (s : State) : State := s.updCtx ctx fun k => { k with peerCode := k.peerCode.filter fun l => l.va != va }
  match line with
  | some l => match l.cause, l.txid with
    | some c, _ => (drop s, .inr (.cause c 0 0))
    | none, some _ => (s, .inr .wait)
    | none, none => (s, .inl h)
  | none =>
    match s.reachable dev, s.issue.bundle with
    | true, r :: _ =>
      let q := s.sendRemote core r ctx dev wa (.fetch ctx (BitVec.ofNat 64 va) n) 2 0 (leBytes n 2)
      ((drop q.1).updCtx ctx fun k => { k with peerCode := ⟨va, some q.2, [], none⟩ :: k.peerCode }, .inr .wait)
    | _, _ => (s, .inr (.cause cREMOTE_TIMEOUT 0 0))

/-- The home of n bytes for a fetch. -/
def State.fetchHome (s : State) (core ctx va n : Nat) : State × (Home ⊕ Fetch) :=
  match s.translate core ctx va .fetch with
  | (s, .home (.peer dev wa)) => s.peerFetch core ctx va n dev wa (.peer dev wa)
  | (s, .home h) => (s, .inl h)
  | (s, .badVa) => (s, .inr .badVa)
  | (s, .wait) => (s, .inr .wait)
  | (s, .cause c l) => (s, .inr (.cause c l 0))

/-- The packet's words, from the context as the fetch leaves it. -/
def State.fetched (s : State) (ctx : Nat) (k : Ctx) (pkt : Word) (a b : Nat) (h0 h1 : Home) : State × Fetch :=
  let k' := (s.ctx? ctx).getD k
  (s, .words (wordsOf (s.packetBytes k' (k.packetVa pkt) a b h0 h1) 3))

/-- Fetch a packet for a core: the block's pages are translated. -/
def State.fetchPacket (s : State) (core : Nat) (k : Ctx) (pkt : Word) : State × Fetch :=
  let a := k.blockVa pkt
  let b := a + 47
  let mid := b / 65536 * 65536
  let at_ (va : Nat) (f : Fetch) : Fetch := match f with
    | .cause c l _ => .cause c l va
    | x => x
  let n := if a / 65536 = b / 65536 then 48 else mid - a
  match s.fetchHome core k.id a n with
  | (s, .inr f) => (s, at_ a f)
  | (s, .inl h0) =>
    if a / 65536 = b / 65536 then (s.refetch k.id a h0).fetched k.id k pkt a b h0 h0
    else match s.fetchHome core k.id mid (b + 1 - mid) with
      | (s, .inr f) => (s, at_ mid f)
      | (s, .inl h1) => ((s.refetch k.id a h0).refetch k.id b h1).fetched k.id k pkt a b h0 h1

/-- Look at a packet without fetching it: no translation is filled. -/
def State.peek (s : State) (k : Ctx) (pkt : Word) : Option (List Word) :=
  let home (va : Nat) : Option Home := match (s.walkLevels va 4 0 k.ptroot).2 with
    | .leaf l p _ => match s.leafHome 0 k.id va .fetch l p with
      | .home (.peer d w) =>
        if k.peerCode.any fun x => x.va <= va && va < x.va + x.data.length then some (.peer d w) else none
      | .home h => some h
      | _ => none
    | _ => none
  let a := k.blockVa pkt
  let b := a + 47
  if 2 ^ 56 <= b then none
  else (home a).bind fun h0 =>
    (if a / 65536 = b / 65536 then some h0 else home (b / 65536 * 65536)).map fun h1 =>
      wordsOf (s.packetBytes k (k.packetVa pkt) a b h0 h1) 3

/-! ## Readiness (R83, R101) -/

/-- The mirror's block can be written or meets its cause (R177). -/
def State.mirrorRoom (s : State) (r : ThreadRef) (tm : Team) (va : DWord) : Bool :=
  let s := s.updThread r fun th => { th with status := .ready }
  (s.mirrorBlock r tm va (List.replicate 256 0)).1.status? r != some (.waiting (.room (.mirror va)))

/-- An access of TASK.DONE by the thread's group has no answer yet. -/
def State.asks (s : State) (r : ThreadRef) : Bool :=
  s.taskAsks.any fun a => a.ref.team = r.team && a.ref.tid / 32 = r.tid / 32 && a.data.isNone && a.cause.isNone

/-- What a thread waits for is there: its word would not wait for it now. -/
def State.roomFor (s : State) (r : ThreadRef) (tm : Team) (core : Nat) (q : Room) : Bool :=
  match q with
  | .access a => match (s.perform r a).2 with
    | .wait (.room _) => false
    | _ => true
  | .span sa n => match s.resolveScratch tm sa n with
    | .at_ c off _ => !(s.core c).rangeBusy off n
    | .wait => false
    | .cause _ => true
  | .mirror va => s.mirrorRoom r tm va
  | .packet pkt => match (s.ctx? tm.ctx).map fun k => (s.fetchPacket core k pkt).2 with
    | some .wait => false
    | _ => true
  | .line dev wa => !s.peerBusy core dev wa 1
  | .engine take region => (s.core core).engineRoom take region
  | .walker sa => match s.engRegion tm sa 64 64 with
    | .ok off => (s.core core).walkerRoom off
    | .error _ => true
  | .page va => !s.vaHeld tm.ctx va
  | .queued h n => !(s.core core).storeq.any fun q => !q.done && q.overlaps h n
  | .answer => !s.asks r

/-- The wait of a thread is over: the word where it waits may issue again.  Waits that another act ends are not listed. -/
def State.waitOver (s : State) (r : ThreadRef) (th : Thread) (core : Nat) (w : WaitKind) : Bool :=
  match w with
  | .rejoin _ | .sync _ _ | .lock | .engine => false
  | .collective m p => (s.group? r.team (r.tid / 32)).any fun g => g.setWaits p m
  | .fullGroup p => (s.group? r.team (r.tid / 32)).any fun g => g.allWait p
  | .cpw tag n => th.cnt.getD tag 0 <= n
  | .timer sleep _ => sleep && s.preqPending r
  | .release scope => s.releaseDone r scope
  | .marker dev => s.markerReady r dev
  | .operand => !(s.core core).loads.any fun l => l.ref = r && !l.words.isEmpty
  | .pending => true
  | .room q => (s.team? r.team).all fun tm => s.roomFor r tm core q
  | .task level => ((s.team? r.team).map fun t => s.taskReady t.ctx level core).getD false
  | .deferMma => !(s.core core).deferPending r.team (r.tid / 32)
  | .together scope lanes =>
    (List.range 32).all fun l => !lanes.getLsbD l || s.releaseDone ⟨r.team, r.tid / 32 * 32 + l⟩ scope

/-- A thread is READY, or its wait is over, which makes it so (R101). -/
def State.isReady (s : State) (r : ThreadRef) (th : Thread) (core : Nat) : Bool :=
  match th.status with
  | .ready => true
  | .waiting w => s.waitOver r th core w
  | _ => false

/-- A thread of a team that may issue is ready. -/
def State.threadReady (s : State) (r : ThreadRef) (core : Nat) : Bool :=
  match s.group? r.team (r.tid / 32) with
  | none => false
  | some g => !g.stopReq && !g.stopped && (g.threads[r.tid % 32]?).any fun th => !th.stopped && s.isReady r th core

/-- No thread of the team is READY: it has yielded (R124). -/
def State.teamYielded (s : State) (t : Team) : Bool :=
  t.refs.all fun r => (s.thread? r).all fun th => th.stopped || !s.isReady r th t.core

/-- A core that has nothing to issue counts up to now.  One that lags still has cycles of its own to issue in (R86, R87). -/
def State.joinNow (s : State) (core : Nat) : State :=
  if s.teams.any fun t => t.core = core && t.state = .resident && t.refs.any fun r => s.threadReady r core then s
  else s.liftCore core s.now

end Sys2Proof.Machine
end

