-- ==== Sys2Proof/Machine/Heron.lean ====
section
/-!
DEFINITION. Launch records (R154 to R158) and Heron's room for clusters (R82, R119, R159, R160, R172).
-/
namespace Sys2Proof.Machine

/-! ## The launch record (R154, R155, R157) -/

/-- A role at an offset of the record. -/
def roleAt (b : List Byte) (off : Nat) : RoleRec :=
  ⟨BitVec.ofNat 32 (fieldAt b off 4), fieldAt b (off + 4) 1, fieldAt b (off + 5) 1⟩

/-- Bucket i of the record. -/
def bucketAt (b : List Byte) (i : Nat) : BucketRec :=
  let o := 96 + 16 * i
  let w := fieldAt b (o + 12) 4
  ⟨fieldAt b o 4, fieldAt b (o + 4) 4, BitVec.ofNat 32 (fieldAt b (o + 8) 4), w % 4, w / 4 % 2 = 1, w / 2 ^ 16⟩

/-- GRIDDIM x that a bucket gives (R157). -/
def BucketRec.gridX (k : BucketRec) (shx : Nat) : Nat :=
  let teams := (k.hi + k.tile - 1) / k.tile
  max shx ((teams + shx - 1) / shx * shx)

/-- Bucket i keeps the rules of R157. -/
def bucketOk (b : List Byte) (shx i : Nat) : Bool :=
  let k := bucketAt b i
  let w := fieldAt b (96 + 16 * i + 12) 4
  if k.valid then w / 8 % 2 ^ 13 = 0 && k.lo <= k.hi && 1 <= k.tile && k.gridX shx <= 65535
  else zeroAt b (96 + 16 * i) 16

/-- The record from its 256 bytes. -/
def LaunchRec.of (b : List Byte) : LaunchRec where
  cor := fieldAt b 0 4 % 2 = 1
  det := fieldAt b 0 4 / 2 % 2 = 1
  reissue := fieldAt b 0 4 / 4 % 2 = 1
  sys := fieldAt b 0 4 / 8 % 2 = 1
  roles := [roleAt b 8, roleAt b 16, roleAt b 24]
  teamdim := [fieldAt b 32 2, fieldAt b 34 2, fieldAt b 36 2]
  shx := fieldAt b 40 4 % 16
  shy := fieldAt b 40 4 / 16 % 16
  grid := [fieldAt b 48 4, fieldAt b 52 4, fieldAt b 56 4]
  scrsz := fieldAt b 60 4
  names := (List.range 4).map fun i => BitVec.ofNat 64 (fieldAt b (64 + 8 * i) 8)
  buckets := (List.range 8).map (bucketAt b)
  pdeadline := fieldAt b 224 4
  waitmax := fieldAt b 228 4
  sigaddr := BitVec.ofNat 64 (fieldAt b 232 8)
  sigscope := fieldAt b 240 4
  handler := BitVec.ofNat 32 (fieldAt b 244 4)
  placeEn := fieldAt b 248 8 / 2 ^ 63 = 1
  placeDie := fieldAt b 248 8 / 2 ^ 48 % 64
  placeMask := BitVec.ofNat 48 (fieldAt b 248 8)

/-- Groups of a team. -/
def LaunchRec.groups (l : LaunchRec) : Nat := (l.roles.map RoleRec.ngrp).sum

/-- A role keeps R155. -/
def RoleRec.ok (r : RoleRec) : Bool :=
  if r.ngrp = 0 then r.entry = 0 && r.nreg = 0 else 16 <= r.nreg && r.nreg <= 64 && r.nreg % 8 = 0

/-- The record keeps R155, in a context that may or may not launch system teams. -/
def recordOk (b : List Byte) (sysok : Bool) : Bool :=
  let l := LaunchRec.of b
  b.length = 256
    && fieldAt b 0 4 / 16 = 0 && zeroAt b 4 4
    && zeroAt b 14 2 && zeroAt b 22 2 && zeroAt b 30 2
    && zeroAt b 38 2 && fieldAt b 40 4 / 256 = 0 && zeroAt b 44 4
    && l.sigscope < 8 && (l.sigaddr = 0 || (3 <= l.sigscope && l.sigscope <= 5)) && l.sigaddr.toNat % 8 = 0
    && l.roles.all RoleRec.ok && 1 <= l.groups && l.groups <= 32
    && l.teamdim.all (· != 0) && l.teamdim.prod = 32 * l.groups
    && 1 <= l.shx && l.shx <= 4 && 1 <= l.shy && l.shy <= 3
    && l.grid.all (fun g => 1 <= g && g <= 65535) && l.grid.getD 0 1 % l.shx = 0 && l.grid.getD 1 1 % l.shy = 0
    && (List.range 8).all (bucketOk b l.shx)
    && (!l.sys || sysok)
    && (if l.placeEn then l.placeMask != 0 && fieldAt b 248 8 / 2 ^ 54 % 2 ^ 9 = 0 else zeroAt b 248 8)
    && l.scrsz % 256 = 0 && l.scrsz <= 2097152
    && l.waitmax <= 1024
    && (l.pdeadline = 0 || (1024 <= l.pdeadline && l.pdeadline <= 2 ^ 31))
    && !(l.reissue && l.cor)

/-- The bucket a launch takes: the first valid one that holds SH[SEL]; 8 when none does. -/
def LaunchRec.bucketFor (l : LaunchRec) (sh : List Word) : Nat :=
  ((List.range 8).find? fun i => match l.buckets[i]? with
    | some k => k.valid && k.lo <= (sh.getD k.sel 0).toNat && (sh.getD k.sel 0).toNat <= k.hi
    | none => false).getD 8

/-! ## Shape of a launch -/

/-- Number of clusters. -/
def Launch.ncl (l : Launch) : Nat :=
  l.grid.getD 0 1 / l.recd.shx * (l.grid.getD 1 1 / l.recd.shy) * l.grid.getD 2 1

/-- Threads, register words and scratch of one team (R82, R156). -/
def LaunchRec.threads (l : LaunchRec) : Nat := 32 * l.groups
def LaunchRec.regs (l : LaunchRec) : Nat := (l.roles.map fun r => 32 * r.ngrp * r.nreg).sum

/-- Cores of a cluster rectangle by position (R159). -/
def rectCores (shx shy origin : Nat) : List Nat := (List.range (shx * shy)).map fun p => origin + p % shx + 8 * (p / shx)

/-- Origins of the rectangles of a quarter, in ascending core number. -/
def rectOrigins (shx shy q : Nat) : List Nat :=
  (List.range (4 - shy)).flatMap fun i => (List.range (5 - shx)).map fun j => (3 * (q / 2) + i) * 8 + 4 * (q % 2) + j

/-! ## Room (R82, R119, R159, R160) -/

/-- Heron may use the core for the launch: PLACE, disabled and fenced cores (R154, R159). -/
def State.permitted (s : State) (l : LaunchRec) (core : Nat) : Bool :=
  s.coreUsable core && (!l.placeEn || (dieOf core = l.placeDie && l.placeMask.getLsbD (numOf core)))

/-- Teams whose registers, slots and windows a core holds. -/
def State.holding (s : State) (core : Nat) : List Team :=
  s.teams.filter fun t => t.core = core && t.holdsRoom

/-- Threads and register words that a team takes. -/
def Team.threads (t : Team) : Nat := 32 * t.groups.length
def Team.regs (t : Team) : Nat := (t.groups.map fun g => 32 * g.nreg).sum

/-- Threads of a team that have not exited. -/
def Team.live (t : Team) : List Thread := (t.groups.flatMap Group.threads).filter Thread.live

/-- The thread is PARKED, and not STOPPED. -/
def Thread.isParked (th : Thread) : Bool := (match th.status with
  | .parked _ => true
  | _ => false) && !th.stopped

/-- The thread's record head met PAGE_ABSENT on the page, or the thread is parked there without a record. -/
def Thread.awaits (th : Thread) (page : Nat) : Bool :=
  (th.recCause = cPAGE_ABSENT && match th.record with
    | a :: _ => a.va / 65536 = page
    | [] => false) || (th.status = .parked cPAGE_ABSENT && th.waitPage = some page)

/-- The thread's record, or the thread itself, waits for a page whose request has no reply yet (R92, R221). -/
def State.heldUp (s : State) (ctx : Nat) (th : Thread) : Bool := s.pageReqs.any fun q => q.ctx = ctx && th.awaits q.page

/-- Every park cause of a team's threads is resolved (R98).  A STOPPED thread is not looked at (R117). -/
def State.resolved (s : State) (t : Team) : Bool := t.live.all fun th => th.stopped || !s.heldUp t.ctx th

/-- A swapped team may return now, as far as its own state and its context's go. -/
def State.eligible (s : State) (t : Team) : Bool :=
  t.state = .swapped && s.resolved t && ((s.ctx? t.ctx).map fun k => decide (k.state = .running)).getD false

/-- A team is COR. -/
def State.teamCor (s : State) (t : Team) : Bool := (s.launch? t.launch).any fun l => l.recd.cor

/-- A team runs on the place of a swapped one. -/
def State.isLent (s : State) (t : Team) : Bool := s.teams.any fun x => x.lent.contains t.id && x.holdsRoom

/-- The swapped COR teams of a core whose places can be lent: one that may return has its own place back (R99). -/
def State.lenders (s : State) (core : Nat) : List Nat :=
  (s.teams.filter fun t => t.core = core && t.state = .swapped && s.teamCor t && !s.eligible t && !s.isLent t).map Team.id

/-- Demand that others hold reserved on a core: teams, threads, register words and scratch.  A planned COR launch or a
placement move reserves its rectangles; of two COR launches that wait, the earlier one's reservation is made first.  The windows of a
move are taken already.  A swapped COR team keeps its place unless it is lent, or is one of those named (R99, R160, R174). -/
def State.reservedOn (s : State) (launch core : Nat) (lent : List Nat) : Nat × Nat × Nat × Nat :=
  let cor := (s.launch? launch).any fun l => l.recd.cor
  let plans := (s.launches.filter fun l => l.id != launch && !(cor && l.recd.cor && launch < l.id)).flatMap fun l =>
    (l.plan.filter fun o => (rectCores l.recd.shx l.recd.shy o).contains core).map fun _ =>
      (1, l.recd.threads, l.recd.regs, if l.wins.any fun w => w.1 = core then 0 else l.recd.scrsz)
  let kept := (s.teams.filter fun t => t.core = core && t.state = .swapped && t.launch != launch && s.teamCor t
    && !lent.contains t.id && !s.isLent t).map fun t => (1, t.threads, t.regs, t.scrsz)
  (plans ++ kept).foldl (fun a b => (a.1 + b.1, a.2.1 + b.2.1, a.2.2.1 + b.2.2.1, a.2.2.2 + b.2.2.2)) (0, 0, 0, 0)

/-- The core belongs to the context, or to none, and is ready for a launch (R121, R122). -/
def State.coreReady (s : State) (ctx core : Nat) : Bool :=
  let c := s.core core
  (c.owner.isNone || c.owner = some ctx) && !c.scrubbing && !c.ramp

/-- Windows of a size that regions leave room for. -/
def windowsFit (occ : List (Nat × Nat)) (size : Nat) : Nat → Bool
  | 0 => true
  | n + 1 => match lowestFree occ size with
    | some b => windowsFit ((b, size) :: occ) size n
    | none => false

/-- Room for n teams of a demand on a core, beside the reservations that are not lent. -/
def State.teamsRoom (s : State) (launch ctx core threads regs scr : Nat) (lent : List Nat) (n : Nat) : Bool :=
  let ts := s.holding core
  let rv := s.reservedOn launch core lent
  let free := 2 ^ 21 - ((s.occupied core).map Prod.snd).sum
  s.coreUsable core && s.coreReady ctx core
    && ts.length + rv.1 + n <= 8
    && (ts.map Team.threads).sum + rv.2.1 + n * threads <= 1536
    && (ts.map Team.regs).sum + rv.2.2.1 + n * regs <= 98304
    && n * scr + rv.2.2.2 <= free
    && windowsFit (s.scratchInUse core) scr n

/-- Room for one team's demand on a core: the base of its window, and the swapped COR teams whose places it takes, as few as
will do and none unless it may borrow (R99). -/
def State.teamRoom (s : State) (launch ctx core threads regs scr : Nat) (borrow : Bool) : Option (Nat × List Nat) :=
  let ls := if borrow then s.lenders core else []
  (List.range (ls.length + 1)).findSome? fun i =>
    if s.teamsRoom launch ctx core threads regs scr (ls.take i) 1 then (s.freeBase core scr).map fun b => (b, ls.take i) else none

/-- Room for one team of a launch on a core. -/
def State.room (s : State) (l : Launch) (core : Nat) (borrow : Bool) : Option (Nat × List Nat) :=
  if s.permitted l.recd core then s.teamRoom l.id l.ctx core l.recd.threads l.recd.regs l.recd.scrsz borrow else none

/-- The first rectangle of a die on which every core passes a test; drawn rectangles lie in the holder's quarter and
contain it (R159, R172). -/
def findRect (shx shy die : Nat) (hold : Option Nat) (ok : Nat → Bool) : Option Nat :=
  let qs := match hold with
    | some h => [quarterOf (numOf h)]
    | none => [0, 1, 2, 3]
  ((qs.flatMap fun q => rectOrigins shx shy q).map fun n => coreOf die n).find? fun o =>
    let cs := rectCores shx shy o
    (match hold with
      | some h => cs.contains h
      | none => true) && cs.all ok

/-- A rectangle of a die with room for a cluster of a launch. -/
def State.rectFor (s : State) (l : Launch) (die : Nat) (hold : Option Nat) (lend : Bool) : Option Nat :=
  findRect l.recd.shx l.recd.shy die hold fun c => (s.room l c lend).isSome

/-- The images of a cluster on its cores fit the save area (R119). -/
def State.imageRoom (s : State) (l : Launch) (cores : List Nat) : Bool :=
  match s.ctx? l.ctx with
  | none => false
  | some k =>
    let fresh := cores.filter fun c => !s.teams.any fun t => t.ctx = l.ctx && t.state != .ended && t.core = c
    s.saveUsed l.ctx + l.recd.image * cores.length + 65536 * fresh.length <= k.savesz

/-! ## COR plans (R160) -/

/-- Dies that a launch may use, in ascending index. -/
def State.launchDies (s : State) (l : Launch) : List Nat :=
  (if l.recd.placeEn then [l.recd.placeDie] else List.range 64).filter fun d => !s.dieFenced d

/-- Clusters placed in the plan so far that cover a core. -/
def planCount (shx shy : Nat) (plan : List Nat) (core : Nat) : Nat :=
  plan.countP fun o => (rectCores shx shy o).contains core

/-- The cores taken as empty hold one more team of the launch beside those of the plan. -/
def State.planOk (s : State) (l : Launch) (plan : List Nat) (core : Nat) : Bool :=
  let n := planCount l.recd.shx l.recd.shy plan core + 1
  s.permitted l.recd core && n <= 8 && n * l.recd.threads <= 1536 && n * l.recd.regs <= 98304 && n * l.recd.scrsz <= 2 ^ 21

/-- Origins for n clusters in ascending index; none when they do not fit. -/
def State.corPlan (s : State) (l : Launch) (hold : Option Nat) : Nat → List Nat → Option (List Nat)
  | 0, plan => some plan
  | n + 1, plan =>
    let dies := match hold with
      | some h => [dieOf h]
      | none => s.launchDies l
    match dies.findSome? fun d => findRect l.recd.shx l.recd.shy d hold (s.planOk l plan) with
    | some o => s.corPlan l hold n (plan ++ [o])
    | none => none

/-- Core that holds the object a launch is drawn to: RESIDENT, on a core the launch may use (R172). -/
def State.drawHolder (s : State) (l : Launch) (name : DWord) : Option Nat :=
  match s.obj? l.ctx name with
  | some ob => if ob.state = .resident && !ob.doomed && s.permitted l.recd ob.holder then some ob.holder else none
  | none => none

/-- The declared name that draws: the first in index order. -/
def State.drawName (s : State) (l : Launch) : Option DWord :=
  l.recd.names.find? fun n => n != 0 && (s.drawHolder l n).isSome

/-- The plan of a COR launch: drawn first, then undrawn. -/
def State.planFor (s : State) (l : Launch) : Option (List Nat) :=
  let drawn := match s.drawName l with
    | some n => s.corPlan l (s.drawHolder l n) l.ncl []
    | none => none
  drawn.or (s.corPlan l none l.ncl [])

end Sys2Proof.Machine
end

