-- ==== Sys2Proof/Machine/Kernel.lean ====
section
/-!
DEFINITION. The life of a launch (R159 to R166, R172 to R174): chunks, placement, completion, killed teams, and the loss of a
core (R179) or of a die (R163).
-/
namespace Sys2Proof.Machine

/-! ## Placing a cluster (R82, R156, R159) -/

/-- Team coordinates of a position of cluster cix. -/
def Launch.coords (l : Launch) (cix pos : Nat) : Nat × Nat × Nat :=
  let nx := l.grid.getD 0 1 / l.recd.shx
  let ny := l.grid.getD 1 1 / l.recd.shy
  (cix % nx * l.recd.shx + pos % l.recd.shx, cix / nx % ny * l.recd.shy + pos / l.recd.shx, cix / nx / ny)

/-- Groups of a fresh team: LOADER, COMPUTER, then STORER; the COMPUTER entry is its bucket's (R156, R157). -/
def Launch.freshGroups (l : Launch) : List Group :=
  (List.range 3).flatMap fun i =>
    match l.recd.roles[i]? with
    | none => []
    | some r =>
      let entry := if i = 1 then ((l.recd.buckets[l.bucket]?).map BucketRec.entry).getD r.entry else r.entry
      List.replicate r.ngrp (Group.fresh i r.nreg entry)

/-- %PAD of a team (R157). -/
def Launch.padded (l : Launch) (x : Nat) : Bool :=
  match l.recd.buckets[l.bucket]? with
  | some b => (l.sh.getD b.sel 0).toNat <= x * b.tile
  | none => false

/-- A fresh team at a position of a cluster. -/
def Launch.freshTeam (l : Launch) (id cix pos core win : Nat) : Team :=
  let q := l.coords cix pos
  { Team.stub l.id cix with
    id := id
    ctx := l.ctx
    x := q.1
    y := q.2.1
    z := q.2.2
    clx := pos
    core := core
    winBase := win
    scrsz := l.recd.scrsz
    pad := l.padded q.1
    state := .resident
    groups := l.freshGroups
    syncs := List.replicate 32 SyncObj.fresh
    placedAt := id }

/-- Ages count from a cycle of the core (R86). -/
def Team.startClock (t : Team) (cyc : Nat) : Team :=
  { t with groups := t.groups.map fun (g : Group) => { g with threads := g.threads.map fun (th : Thread) => { th with
    lastIssue := cyc, readyAt := cyc, pathAt := cyc } } }

/-- A core's tile-store image of a context comes back when a team of the context is placed there (R126, R128). -/
def State.imageBack (s : State) (ctx core : Nat) : State :=
  match (s.core core).images.find? (·.1 == ctx) with
  | none => s
  | some (_, bs, se, cs) => s.updCore core fun c => { c with
      banks := bs, sedge := se, collectors := cs, images := c.images.filter (·.1 != ctx) }

/-- Place one team: its window is zeroed, its core belongs to its context. -/
def State.placeTeam (s : State) (l : Launch) (cix pos core : Nat) (borrow : Bool) : State :=
  match s.room l core borrow with
  | none => s
  | some (win, lent) =>
    let s := (s.joinNow core).imageBack l.ctx core
    let t := { (l.freshTeam s.serial cix pos core win).startClock (s.core core).cyc with lent := lent }
    let s := s.updCore core fun c => { c with
      owner := some l.ctx
      scratch := c.scratch.clear win l.recd.scrsz }
    { s with teams := s.teams ++ [t], serial := s.serial + 1 }

/-- Clusters drawn to an object that has come to another die are placed by that die (DEDUCED, log entry 68). -/
def State.redraw (s : State) (ctx : Nat) (name : DWord) (die : Nat) : State :=
  { s with launches := s.launches.map fun (l : Launch) =>
      if l.ctx = ctx && l.draw = some name then { l with todo := l.todo.map fun q => (die, q.2), roundFrom := 0 } else l }

/-- The SPILLED objects that the launch declares are restored onto the core of the first team placed that has room (R172). -/
def State.restoreDeclared (s : State) (l : Launch) (core : Nat) : State :=
  l.recd.names.foldl (fun s n =>
    match s.obj? l.ctx n with
    | some ob =>
      if n != 0 && ob.state = .spilled then
        match s.objSpace core ob.size with
        | some base => (s.updObj l.ctx n fun o => { o with
            state := .restoring, holder := core, base := base, forLaunch := some l.id }).redraw l.ctx n (dieOf core)
        | none => s
      else s
    | none => s) s

/-- Place cluster cix of a launch on the rectangle at an origin; all of its teams start together (R159). -/
def State.placeCluster (s : State) (l : Launch) (cix origin : Nat) (lend : Bool) : State :=
  let cores := rectCores l.recd.shx l.recd.shy origin
  let s : State := { s with clusters := s.clusters ++
    [⟨l.id, cix, origin, List.replicate 16 SyncObj.fresh, l.gsyncs.map SyncObj.phase, false⟩] }
  let s := (List.range cores.length).foldl (fun s p => s.placeTeam l cix p (cores.getD p 0) lend) s
  let s := s.restoreDeclared l origin
  let s := s.updDie (dieOf origin) fun d => { d with placedThisStep := d.placedThisStep + 1 }
  s.updLaunch l.id fun k => { k with todo := k.todo.filter (fun q => q.2 != cix), rounds := 0, roundFrom := 0 }

/-! ## Dispatch (R119, R157, R160, R166) -/

/-- The context has no launch queued or in progress: it is READY again (R120). -/
def State.idleCtx (s : State) (ctx : Nat) : State :=
  if (s.launches.any fun l => l.ctx = ctx) || s.queues.any (fun q => q.pkts.any fun p => p.ctx = ctx && p.type = 1 && !p.complete) then s
  else s.updCtx ctx fun k => if k.state = .running then { k with state := .ready } else k

/-- The die whose Heron is master: the live die with the lowest index (R161). -/
def State.masterDie (s : State) : Nat := ((List.range 64).find? fun d => !s.dieFenced d).getD 0

/-- The live die with the next higher index, which holds the copy of the chunk table (R162). -/
def State.dieAfter (s : State) (d : Nat) : Option Nat := (List.range 64).find? fun x => d < x && !s.dieFenced x

/-- The master copies its table to the next live die: the chunks handed out, and the clusters that have ended (R162). -/
def State.copyTable (s : State) (launch : Nat) : State :=
  let done := (s.clusters.filter fun c => c.launch = launch && c.ended).map Cluster.cix
  s.updLaunch launch fun k => { k with copyDie := s.dieAfter k.master, copy := (k.chunks, done) }

/-- A fenced die was master, or held the copy: the lowest live die takes over with the copy it holds, and a new copy goes to the
next live die (R162). -/
def State.elect (s : State) (die : Nat) : State :=
  s.launches.foldl (fun s l =>
    if l.master = die then
      (s.updLaunch l.id fun k => { k with
        master := s.masterDie, chunks := if k.copyDie.isSome then k.copy.1 else k.chunks }).copyTable l.id
    else if l.copyDie = some die then s.copyTable l.id
    else s) s

/-- Dispatch a validated launch: NOFIT, NOSAVE, or RUNNING with its plan.  The context's code is fetched afresh (R40). -/
def State.startLaunch (s : State) (qu : HostQueue) (pkt : Word) (recd : LaunchRec) (args : DWord) (sh : List Word)
    (sigval : DWord) : State :=
  match s.ctx? qu.ctxid with
  | none => s
  | some k =>
    let b := recd.bucketFor sh
    let grid := match recd.buckets[b]? with
      | some bk => [bk.gridX recd.shx, recd.grid.getD 1 1, recd.grid.getD 2 1]
      | none => recd.grid
    let l : Launch := {
      id := s.serial, ctx := k.id, fn := qu.fn, q := qu.q, pkt := pkt, recd := recd, args := args, sh := sh
      sigval := sigval, bucket := b, grid := grid, det := recd.det || k.det, state := .running
      draw := none, plan := [], next := 0, again := [], chunks := [], todo := [], endedTeams := 0, killed := 0
      dieLost := false, rounds := 0, roundFrom := 0, turn := 0, roff := 0, gsyncs := List.replicate 8 SyncObj.fresh
      master := s.masterDie, copyDie := s.dieAfter s.masterDie, copy := ([], []), wins := []
      releasing := [], started := [], gtimes := List.replicate 8 (s.now, s.now), skew := [], ceil := [] }
    let plan := if recd.cor then s.planFor l else some []
    match plan with
    | none => (s.completePacket qu.fn qu.q pkt stNOFIT 0).idleCtx k.id
    | some plan =>
      let cores := (plan.flatMap (rectCores recd.shx recd.shy)).eraseDups
      let need := if recd.cor then recd.image * l.ncl * recd.shx * recd.shy + 65536 * cores.length
        else (recd.image + 65536) * recd.shx * recd.shy
      if k.savesz < need then (s.completePacket qu.fn qu.q pkt stNOSAVE 0).idleCtx k.id
      else
        let l := { l with plan := plan, draw := if recd.cor then none else s.drawName l, next := if recd.cor then l.ncl else 0 }
        let s : State := { s with launches := s.launches ++ [l], serial := s.serial + 1 }
        let m := s.mem
        let h := s.hostMem
        s.updCtx k.id fun k => { k with
          state := if k.state = .ready then .running else k.state
          code := m
          hostCode := h
          peerCode := []
          stale := [] }

/-! ## Chunks (R161, R162, R165) -/

/-- The die on which the drawn object stands, also while it is being moved or restored. -/
def State.drawDie (s : State) (l : Launch) : Option Nat :=
  ((l.draw.bind (s.obj? l.ctx)).filter fun ob => ob.placed && !ob.doomed && s.permitted l.recd ob.holder).map fun ob =>
    dieOf ob.holder

/-- A launch of a context that is SAVED or FROZEN holds its state and its chunk table (R166). -/
def State.launchHeld (s : State) (l : Launch) : Bool := (s.ctx? l.ctx).any fun k => k.state = .saved || k.state = .frozen

/-- A die may ask for chunks of a launch at all. -/
def State.dieEligible (s : State) (l : Launch) (die : Nat) : Bool :=
  (s.launchDies l).contains die && (findRect l.recd.shx l.recd.shy die none (s.permitted l.recd)).isSome

/-- Dies that take the chunks of a launch under DET, in turn.  A die that can place no cluster of the launch is passed over, since
it never asks for a chunk (DEDUCED, log entry 67). -/
def State.detDies (s : State) (l : Launch) : List Nat :=
  match s.drawDie l with
  | some d => [d]
  | none => (s.launchDies l).filter (s.dieEligible l)

/-- A die's Heron asks the master for a chunk (R161): up to 16 consecutive indices, or clusters to hand out again. -/
def State.chunkRequest (s : State) (launch die : Nat) : State :=
  match s.launch? launch with
  | none => s
  | some l =>
    let mine := match s.drawDie l with
      | some d => d = die
      | none => s.dieEligible l die && ((s.rectFor l die none false).isSome || (s.rectFor l die none true).isSome)
    let order := s.detDies l
    let myTurn := !l.det || order.getD (l.turn % max 1 order.length) die = die
    if l.state != .running || s.launchHeld l || l.recd.cor || !mine || !myTurn || l.todo.any (fun q => q.1 = die) then s
    else
      let fresh := (List.range 16).filterMap fun i => if l.next + i < l.ncl then some (l.next + i) else none
      let cs := if fresh.isEmpty then l.again.take 16 else fresh
      if cs.isEmpty then s
      else (s.updLaunch launch fun k => { k with
        next := if fresh.isEmpty then k.next else k.next + cs.length
        again := if fresh.isEmpty then k.again.drop 16 else k.again
        chunks := k.chunks ++ (if fresh.isEmpty then cs.map fun c => (die, c, 1) else [(die, cs.getD 0 0, cs.length)])
        todo := k.todo ++ cs.map fun c => (die, c)
        turn := k.turn + 1 }).copyTable launch

/-! ## Placement (R159, R172 to R174) -/

/-- The next cluster of a launch that a die has to place: the lowest index. -/
def Launch.nextFor (l : Launch) (die : Nat) : Option Nat :=
  (l.todo.filter fun q => q.1 = die).foldl (fun acc q =>
    match acc with
    | none => some q.2
    | some m => some (min m q.2)) none

/-- Heron may place clusters of the launch's context now. -/
def State.mayPlace (s : State) (l : Launch) : Bool :=
  l.state = .running && ((s.ctx? l.ctx).map fun k => decide (k.state = .running)).getD false

/-- Place a cluster on a rectangle whose images fit (R119). -/
def State.tryPlace (s : State) (l : Launch) (cix : Nat) (rect : Option Nat) (lend : Bool) : Option State :=
  match rect with
  | some o => if s.imageRoom l (rectCores l.recd.shx l.recd.shy o) then some (s.placeCluster l cix o lend) else none
  | none => none

/-- First fit on a die; where the space of a swapped COR team is all there is, on a lent reservation (R99). -/
def State.firstFit (s : State) (l : Launch) (die cix : Nat) (hold : Option Nat) : Option State :=
  (s.tryPlace l cix (s.rectFor l die hold false) false).or
    (if l.recd.cor then none else s.tryPlace l cix (s.rectFor l die hold true) true)

/-- Begin a placement move of a drawn object (R174): the target, and the rectangle its cluster will take. -/
def State.beginMove (s : State) (l : Launch) (name : DWord) : Option State :=
  match s.obj? l.ctx name with
  | none => none
  | some ob =>
    let declares (t : Team) : Bool := ((s.launch? t.launch).map fun k => k.recd.names.contains name).getD false
    if ob.k != 0 || ob.doomed || ob.state != .resident
        || s.teams.any (fun t => t.ctx = l.ctx && (t.state = .resident || t.state = .saving) && declares t) then none
    else
      let die := dieOf ob.holder
      let hq := quarterOf (numOf ob.holder)
      let inQ (q : Nat) : List Nat := (List.range 48).filter fun n => quarterOf n = q
      let nums := inQ hq ++ ([0, 1, 2, 3].filter (· != hq)).flatMap inQ
      (nums.map fun n => coreOf die n).findSome? fun c =>
        match s.objSpace c ob.size with
        | none => none
        | some base =>
          if c = ob.holder then none
          else
            let s' := s.updObj l.ctx name fun o => { o with
              state := .moving, target := c, targetBase := base, forLaunch := some l.id }
            (s'.rectFor l die (some c) false).map fun o => s'.updLaunch l.id fun k => { k with
              plan := [o]
              wins := (rectCores l.recd.shx l.recd.shy o).filterMap fun x => (s'.room l x false).map fun b => (x, b.1) }

/-- The rules of R173 for a drawn cluster, once WAITMAX is reached. -/
def State.waitRules (s : State) (l : Launch) (die cix : Nat) (name : DWord) (hold : Nat) : State :=
  match s.firstFit l die cix (some hold) with
  | some s => s
  | none =>
    match s.beginMove l name with
    | some s => s
    | none => (s.firstFit l die cix none).getD s

/-- A drawn cluster that found no room waits: its dispatch round is counted from now, in front cycles of the holder's quarter
(R173). -/
def State.startRound (s : State) (launch holder : Nat) : State :=
  s.updLaunch launch fun k => { k with roundFrom := max 1 (s.cycAt holder s.now) }

/-- An attempt for a drawn cluster: where it placed nothing and set no move going, the cluster waits. -/
def State.orWait (s' : State) (launch holder : Nat) : State :=
  match s'.launch? launch with
  | some l => if l.plan.isEmpty && (l.nextFor (dieOf holder)).isSome && l.roundFrom = 0 then s'.startRound launch holder else s'
  | none => s'

/-- Heron tries to place the next cluster of a launch on a die.  A drawn cluster waits for its holder's rectangle until
WAITMAX rounds have passed (R173). -/
def State.clusterPlace (s : State) (launch die : Nat) : State :=
  match s.launch? launch with
  | none => s
  | some l =>
    let full := (s.die die).stepSize (l.recd.shx * l.recd.shy) <= (s.die die).placedThisStep
    if !s.mayPlace l || l.recd.cor || full || !l.plan.isEmpty then s
    else match l.nextFor die with
      | none => s
      | some cix =>
        match l.draw with
        | none => (s.firstFit l die cix none).getD s
        | some name =>
          match s.obj? l.ctx name with
          | none => (s.firstFit l die cix none).getD s
          | some ob =>
            if ob.state = .moving || ob.state = .restoring then s
            else match s.drawHolder l name with
              | none => (s.firstFit l die cix none).getD s
              | some h =>
                if l.recd.waitmax <= l.rounds then (s.waitRules l die cix name h).orWait launch h
                else ((s.firstFit l die cix (some h)).getD s).orWait launch h

/-- A dispatch round of a drawn cluster ends: Heron tries again, and a round without placement is counted, but while the context
is SAVED or FROZEN (R173).  The next round begins. -/
def State.roundExpiry (s : State) (launch : Nat) : State :=
  match s.launch? launch with
  | none => s
  | some l =>
    match l.draw.bind (s.drawHolder l), l.state = .running && l.plan.isEmpty with
    | some h, true =>
      if (l.nextFor (dieOf h)).isNone then s
      else if s.launchHeld l then s.startRound launch h
      else
        let s' := (s.startRound launch h).clusterPlace launch (dieOf h)
        let left (s : State) : Nat := ((s.launch? launch).map fun k => k.todo.length).getD 0
        if left s' < left s then s'
        else (s'.updLaunch launch fun k => { k with rounds := k.rounds + 1 }).clusterPlace launch (dieOf h)
    | _, _ => s

/-- The cluster for which Heron has moved an object is placed on the rectangle that was reserved for it, within S of its die (R173,
R272); where the reservation does not serve any more it is placed like another. -/
def State.placeMoved (s : State) (launch : Nat) : State :=
  match s.launch? launch with
  | none => s
  | some l =>
    match l.recd.cor, l.plan with
    | false, [o] =>
      let moves := s.objs.any fun ob => ob.state = .moving && ob.forLaunch = some launch
      let full := (s.die (dieOf o)).stepSize (l.recd.shx * l.recd.shy) <= (s.die (dieOf o)).placedThisStep
      if moves || (full && s.mayPlace l) then s
      else
        let s := s.updLaunch launch fun k => { k with plan := [], wins := [] }
        let fits := (rectCores l.recd.shx l.recd.shy o).all fun c => (s.room l c false).isSome
        match l.nextFor (dieOf o), fits && s.mayPlace l with
        | some cix, true => (s.tryPlace l cix (some o) false).getD s
        | _, _ => s
    | _, _ => s

/-- A move or hand-over copy completes; the cluster for which Heron moved the object is placed (R169, R173).  Heron's moves stop
while the context is FROZEN (R130, R180). -/
def State.copyComplete (s : State) (ctx : Nat) (name : DWord) : State :=
  let ob := s.obj? ctx name
  let who := ob.bind Obj.forLaunch
  let frozen := (s.ctx? ctx).any fun k => k.state = .frozen
  if who.isSome && frozen then s
  else
    let s' := s.objectCopied ctx name
    let moved := ((s'.obj? ctx name).map fun ob => decide (ob.state != .moving)).getD true
    if !moved then s'
    else match who, ob with
      | some l, _ => s'.placeMoved l
      | none, some o => if dieOf o.target = dieOf o.holder then s' else s'.redraw ctx name (dieOf o.target)
      | none, none => s'

/-! ## COR launches (R160) -/

/-- Start the first n clusters of a die that wait to start, in ascending index (R160, R272). -/
def State.startClusters (s : State) (launch die n : Nat) : State :=
  match s.launch? launch with
  | none => s
  | some l =>
    let waiting := (s.clusters.filter fun c => c.launch = launch && dieOf c.origin = die && !l.started.contains c.cix).map (·.cix)
    s.updLaunch launch fun k => { k with started := k.started ++ (waiting.insertionSort (· <= ·)).take n }

/-- All reserved space is held: every team is placed, and the first step of each die starts. -/
def State.corComplete (s : State) (launch : Nat) : State :=
  match s.launch? launch with
  | none => s
  | some l =>
    if !l.recd.cor || l.plan.isEmpty || !s.mayPlace l then s
    else
      let put := (List.range l.plan.length).foldl (fun (acc : Option State) i =>
        acc.bind fun s =>
          let o := l.plan.getD i 0
          if (rectCores l.recd.shx l.recd.shy o).all fun c => (s.room l c false).isSome then
            s.tryPlace l i (some o) false
          else none) (some s)
      match put with
      | none => s
      | some s =>
        let s := s.updLaunch launch fun k => { k with plan := [] }
        let n := l.recd.shx * l.recd.shy
        ((l.plan.map dieOf).eraseDups).foldl (fun s d => s.startClusters launch d ((s.die d).stepSize n)) s

/-! ## The end of teams and launches (R109, R164) -/

/-- Engine or memory work of a team is in flight. -/
def State.teamBusy (s : State) (t : Nat) : Bool :=
  let inOp (e : EngOp) : Bool := match e with
    | .mma m => m.team = t
    | .bank team _ _ _ _ _ _ => team = t
    | .topkInit team _ _ _ => team = t
    | .topkRead team _ _ _ => team = t
  s.cores.any fun c =>
    c.storeq.any (fun q => q.ref.team = t) || c.copies.any (fun q => q.ref.team = t) || c.twq.any (fun j => j.team = t)
      || c.engq.any inOp || c.engRun.any (fun e => inOp e.op)
      || c.loads.any (fun l => l.ref.team = t && l.ack.isSome)

/-- Remove what is left of an ended launch; its EOS tokens go with it (R151). -/
def State.purge (s : State) (launch : Nat) : State :=
  match s.launch? launch with
  | none => s
  | some l =>
    if l.state != .ended || s.teams.any (fun t => t.launch = launch && t.state != .ended) then s
    else
      let s : State := { s with
        teams := s.teams.filter fun t => t.launch != launch
        clusters := s.clusters.filter fun c => c.launch != launch
        launches := s.launches.filter fun k => k.id != launch }
      (s.dropEos launch).idleCtx l.ctx

/-- A launch ends with a status; what its teams still do drains. -/
def State.endLaunch (s : State) (l : Launch) (status detail : Nat) : State :=
  let its (p : Packet) : Bool := p.index = l.pkt && p.ctx = l.ctx
  let s := if (s.queue l.fn l.q).pkts.any its then s.completePacket l.fn l.q l.pkt status detail else s
  (s.updLaunch l.id fun k => { k with
    state := .ended, todo := [], again := [], next := k.ncl, plan := [], wins := [], releasing := [] }).purge l.id

/-- In-flight work of a killed team has drained: its room is freed (R109). -/
def State.killDrained (s : State) (team : Nat) : State :=
  match s.team? team with
  | some tm => if tm.state = .killing && !s.teamBusy team then (s.endTeam team).purge tm.launch else s
  | none => s

/-- Launches that p names are aborted: their teams end without kill records, their cluster and grid objects take the error
phase with DIE_LOST, and their packets complete (R137, R146).  DETAIL of a launch that FAILED by a save failure counts the teams killed
before, not those that the failure ends (R141; DESIGN CHOICE, log entry 96). -/
def State.abortLaunches (s : State) (p : Launch → Bool) (status : Nat) : State :=
  (s.launches.filter fun l => p l && l.state != .ended).foldl (fun s l =>
    let s := (s.teams.filter fun t => t.launch = l.id && t.state != .ended).foldl (fun s t =>
      (s.errorShared t cDIE_LOST).endTeamQuietly t.id) s
    s.endLaunch l status (if status = stFAILED then l.killed else 0)) s

/-- The release at SIGSCOPE has nothing to wait for (R164): every write of the launch's teams is performed. -/
def State.launchDrained (s : State) (l : Launch) : Bool :=
  !s.teams.any fun t => t.launch = l.id && s.teamBusy t.id

/-- Every cluster has been handed out and has ended. -/
def State.launchOver (s : State) (l : Launch) : Bool :=
  let live := s.teams.any fun t => t.launch = l.id && t.state != .ended
  !live && l.plan.isEmpty && (l.dieLost || (l.ncl <= l.next && l.again.isEmpty && l.todo.isEmpty
    && (s.clusters.countP fun c => c.launch = l.id && c.ended) = l.ncl))

/-- The last team has ended: the release, the SIGVAL store, then STATUS (R164, R142). -/
def State.launchComplete (s : State) (launch : Nat) : State :=
  match s.launch? launch with
  | none => s
  | some l =>
    if l.state != .running || s.launchHeld l || !s.launchOver l || !s.launchDrained l then s
    else
      let s := s.writeKills
      if l.dieLost then s.endLaunch l stDIELOST 0
      else if l.killed != 0 then s.endLaunch l stFAILED l.killed
      else if l.recd.sigaddr = 0 then s.endLaunch l stDONE 0
      else match s.queueAccess (s.queueFor l.fn l.q l.ctx) l.pkt l.recd.sigaddr.toNat (.write (leBytes l.sigval.toNat 8)) with
        | (s, .ok _) => s.endLaunch l stDONE 0
        | (s, .fail) => s.endLaunch l stFAULTED 0
        | (s, .wait) => s

/-! ## Loss of a core (R179) -/

/-- A team ends at once: what it has in flight on its core is gone or is performed. -/
def State.finishTeam (s : State) (t : Team) (lost : Bool) : State :=
  let mine (r : ThreadRef) : Bool := r.team = t.id
  let q := (s.core t.core).storeq.filter fun w => mine w.ref && !w.done && w.txid.isNone
  let s := if lost then s else q.foldl (fun s w => (s.homeWrite w.home w.data).dropReplicas w.ctx w.va) s
  let s := s.updCore t.core fun c => { c.dropWork (· = t.id) with
    storeq := c.storeq.filter fun w => !mine w.ref
    loads := c.loads.filter fun l => !mine l.ref }
  let s : State := { s with remotes := s.remotes.filter fun x => !mine x.ref }
  s.endTeam t.id

/-- A team of a cluster that is handed out again ends by R109 steps 1 to 3: what it has in flight drains, and it belongs to no
cluster any more. -/
def State.leaveCluster (s : State) (t : Team) : State :=
  let s := s.endTeamQuietly t.id
  s.updTeam t.id fun x => { x with cix := 2 ^ 32 + t.id }

/-- A cluster is handed out again, whole, after all chunks not yet handed out (R163): its teams end, those on a lost core at once,
and its sync objects are gone. -/
def State.reissueCluster (s : State) (l : Launch) (cix : Nat) (lost : Nat → Bool) : State :=
  let ts := s.teams.filter fun t => t.launch = l.id && t.cix = cix && t.state != .ended
  let s := ts.foldl (fun s t => if lost t.core then (s.endTeamQuietly t.id).finishTeam t true else s.leaveCluster t) s
  let s : State := { s with
    teams := s.teams.filter fun t => !(t.launch = l.id && t.cix = cix)
    clusters := s.clusters.filter fun c => !(c.launch = l.id && c.cix = cix) }
  s.updLaunch l.id fun k => { k with again := k.again ++ [cix] }

/-- The launch for which an object was being moved goes on without the move. -/
def State.moveOver (s : State) (who : Option Nat) : State :=
  match who with
  | some l => s.updLaunch l fun k => if k.recd.cor then k else { k with plan := [], wins := [] }
  | none => s

/-- An object whose holder is lost: a mirrored one is restored to a core of R174's order on the same die or on the next
live die, or becomes SPILLED on its mirror; another becomes LOST.  Its opens are lost (R179).  A DOOMED object goes the same way: one
without a mirror is LOST and its drop forgotten, a mirrored one is restored and then dropped, or dropped at once where no core has room
(DESIGN CHOICE, log entry 69). -/
def State.loseObject (s : State) (ob : Obj) : State :=
  let s := s.moveOver ob.forLaunch
  let s : State := { s with teams := s.teams.map fun (t : Team) =>
    if t.ctx = ob.ctx then { t with opens := t.opens.map fun (o : OpenRef) =>
      if o.name = ob.name then { o with lost := true } else o } else t }
  if ob.mirror.isNone then
    s.updObj ob.ctx ob.name fun o => { o with state := .lost, k := 0, doomed := false, forLaunch := none }
  else
    let die := dieOf ob.holder
    let hq := quarterOf (numOf ob.holder)
    let inQ (q : Nat) : List Nat := (List.range 48).filter fun n => quarterOf n = q
    let nums := inQ hq ++ ([0, 1, 2, 3].filter (· != hq)).flatMap inQ
    let next := homeFrom (fun d => !s.dieFenced d) ((die + 1) % 64)
    let try_ (d : Nat) : Option (Nat × Nat) := (nums.map fun n => coreOf d n).findSome? fun c =>
      if s.coreUsable c then (s.objSpace c ob.size).map fun b => (c, b) else none
    match (if s.dieFenced die then none else try_ die).or (try_ next) with
    | some (c, b) => (s.updObj ob.ctx ob.name fun o => { o with
        state := .restoring, k := 0, holder := c, base := b, dirty := [], forLaunch := none }).redraw ob.ctx ob.name (dieOf c)
    | none =>
      if ob.doomed then { s with objs := s.objs.filter fun o => !(o.ctx = ob.ctx && o.name = ob.name) }
      else s.updObj ob.ctx ob.name fun o => { o with state := .spilled, k := 0, dirty := [], forLaunch := none }

/-- Objects when a core is lost: its own, and those moving to it, which stay at their source with k = 0, or are dropped there where a
DROP has come meanwhile (R180). -/
def State.loseObjects (s : State) (p : Nat → Bool) : State :=
  let back := s.objs.filter fun o => o.state = .moving && p o.target && !p o.holder
  let s := (s.objs.filter fun o => o.state = .moving && p o.target).foldl (fun s o => s.moveOver o.forLaunch) s
  let s : State := { s with objs := s.objs.map fun (o : Obj) =>
    if o.state = .moving && p o.target && !p o.holder then
      { o with state := .resident, k := 0, target := 0, targetBase := 0, forLaunch := none } else o }
  let s := back.foldl (fun s o => (s.forgetHanded o.ctx o.name).dropDoomed o.ctx o.name) s
  (s.objs.filter fun o => o.placed && p o.holder).foldl (fun s o => s.loseObject o) s

/-- Remake the plan of a COR launch that has not placed its teams, or end it NOFIT (R160).  It does so at once for a launch whose context is
SAVED or FROZEN too, as the loss of its teams is dealt with at once (R166; DESIGN CHOICE, log entry 98). -/
def State.replan (s : State) (p : Nat → Bool) : State :=
  (s.launches.filter fun l => l.recd.cor && l.plan.any fun o => (rectCores l.recd.shx l.recd.shy o).any p).foldl
    (fun s l =>
      match s.planFor l with
      | some plan => s.updLaunch l.id fun k => { k with plan := plan }
      | none => s.endLaunch l stNOFIT 0) s

/-- Fence a lost core (R179, R18). -/
def State.coreLost (s : State) (core : Nat) : State :=
  if core % 256 < 48 && core < 64 * 256 && !(s.core core).fenced then
    let s := s.updCore core fun c => { c with fenced := true, held := none }
    let s : State := { s with flash := { s.flash with disabled := s.flash.disabled.filter (· != core) ++ [core] } }
    let hit := s.teams.filter fun t => t.core = core && t.state != .ended && t.state != .swapped
    let s := hit.foldl (fun s t =>
      match s.launch? t.launch with
      | none => s
      | some l =>
        if l.recd.reissue then
          (if s.teams.any (fun x => x.id = t.id && x.cix = t.cix) then s.reissueCluster l t.cix (· == core) else s)
        else (s.killTeam t.id cDIE_LOST none).finishTeam t true) s
    ((s.updCore core fun c => { c with
      storeq := [], loads := [], copies := [], twq := [], engq := [], engRun := [], ranges := [], locks := [], l1 := [] }).loseObjects
      (· == core)).replan (· == core)
  else s

/-- CHUNK_REQUEST (R161).  -/
def execChunkRequest (launch : Nat) (die : Nat) (st : State) : Res :=
  .next (st.chunkRequest launch die)

/-- CLUSTER_PLACE (R159).  -/
def execClusterPlace (launch : Nat) (die : Nat) (st : State) : Res :=
  .next (st.clusterPlace launch die)

/-- COR_RESERVATION_COMPLETE (R160).  -/
def execCorReservationComplete (launch : Nat) (st : State) : Res :=
  .next (st.corComplete launch)

/-- DISPATCH_ROUND_EXPIRY (R173).  -/
def execDispatchRoundExpiry (launch : Nat) (st : State) : Res :=
  .next (st.roundExpiry launch)

/-- OBJECT_COPY_COMPLETE (R169).  -/
def execObjectCopyComplete (ctx : Nat) (name : BitVec 64) (st : State) : Res :=
  .next (st.copyComplete ctx name)

/-- LAUNCH_COMPLETE (R164).  -/
def execLaunchComplete (launch : Nat) (st : State) : Res :=
  .next (st.launchComplete launch)

/-- TEAM_KILL_DRAINED (R109).  -/
def execTeamKillDrained (team : Nat) (st : State) : Res :=
  .next (st.killDrained team)

/-- CORE_LOST (R179).  -/
def execCoreLost (core : Nat) (st : State) : Res :=
  .next (st.coreLost core)

end Sys2Proof.Machine
end

