-- ==== Sys2Proof/Machine/Page.lean ====
section
/-!
DEFINITION. Pages: the page-request ring and its replies (R219 to R223, R395), range invalidation (R224), background walks
(R218), Sluice (R225 to R229), and the loss of a die (R163, R230).
-/
namespace Sys2Proof.Machine

/-! ## The page-request ring (R220) -/

/-- The eight words of an ABSENT record. -/
def PageReq.words (q : PageReq) : List Word :=
  let va := q.page * 65536
  [BitVec.ofNat 32 (1 + q.ctx * 256 + q.kinds.toNat * 65536), 0, BitVec.ofNat 32 va, BitVec.ofNat 32 (va / 2 ^ 32),
    BitVec.ofNat 32 q.core, 0, BitVec.ofNat 32 q.level, 0]

/-- A MOVED record. -/
def movedWords (ctx page pa : Nat) : List Word :=
  [BitVec.ofNat 32 (2 + ctx * 256), 0, BitVec.ofNat 32 (page * 65536), BitVec.ofNat 32 (page * 65536 / 2 ^ 32),
    BitVec.ofNat 32 (pa / 65536), BitVec.ofNat 32 (pa / 65536 / 2 ^ 32), 0, 0]

/-- A LOST record of a context for a fenced die. -/
def lostWords (ctx die : Nat) : List Word :=
  [BitVec.ofNat 32 (3 + ctx * 256), 0, BitVec.ofNat 32 die, 0, 0, 0, 0, 0]

/-- A RECLAIMED record of a frame. -/
def reclaimedWords (pa : Nat) : List Word :=
  [4, 0, BitVec.ofNat 32 pa, BitVec.ofNat 32 (pa / 2 ^ 32), 0, 0, 0, 0]

/-- Hold a record for the ring. -/
def State.holdRecord (s : State) (ws : List Word) : State := { s with prqHeld := s.prqHeld ++ [.words ws] }

/-- Firmware writes the oldest held record once the ring has room; none while an update holds requests (R284).  The ABSENT
record of a request that has been closed is dropped. -/
def State.postRecord (s : State) : State :=
  if (s.prqwr - s.prqrd).toNat = 256 || s.updating then s
  else
    let write (s : State) (ws : List Word) : State :=
      { s with mem := s.mem.writeBytes (s.prqbase.toNat + 32 * (s.prqwr.toNat % 256)) (bytesOf ws), prqwr := s.prqwr + 1 }
    match s.prqHeld with
    | [] => s
    | .words ws :: rest => write { s with prqHeld := rest } ws
    | .absent c p :: rest =>
      let s : State := { s with prqHeld := rest }
      match s.pageReqs.find? fun q => q.ctx = c && q.page = p && !q.posted with
      | none => s
      | some q =>
        let s := write s q.words
        { s with pageReqs := s.pageReqs.map fun (x : PageReq) => if x.ctx = c && x.page = p then { x with posted := true } else x }

/-! ## What waits on a page -/

/-- Threads of a context that wait on a page. -/
def State.awaiting (s : State) (ctx page : Nat) : List ThreadRef :=
  (s.teams.filter fun t => t.ctx = ctx && t.state != .ended && t.state != .killing).flatMap fun t =>
    t.refs.filter fun r => ((s.thread? r).map fun th => th.awaits page).getD false

/-- A reply acts when its request is open; the request closes (R221). -/
def State.resolve (s : State) (ctx page : Nat) (act : State → State) : State :=
  if s.pageReqs.any fun q => q.ctx = ctx && q.page = page then
    act { s with pageReqs := s.pageReqs.filter fun q => !(q.ctx = ctx && q.page = page) }
  else s

/-- A thread is released from its page: its record may replay, and it is parked no longer. -/
def Thread.unpark (th : Thread) : Thread :=
  { th with
    recCause := 0
    waitPage := none
    status := if th.status = .parked cPAGE_ABSENT then .ready else th.status }

/-- Hardware clears a PARK cause's bit once no thread of the group is parked on it (R93, R106). -/
def State.clearParked (s : State) (r : ThreadRef) : State :=
  match s.group? r.team (r.tid / 32) with
  | some g => if g.parkedOn cPAGE_ABSENT then s else s.clearCause r.team (r.tid / 32) cPAGE_ABSENT
  | none => s

/-- The thread's record, or the thread itself, waits for some page. -/
def Thread.onPage (th : Thread) : Bool :=
  (th.recCause = cPAGE_ABSENT && !th.record.isEmpty) || (th.status = .parked cPAGE_ABSENT && th.waitPage.isSome)

/-- Threads of a resident team that are parked on pages no request is open for any more are parked no longer, and replay (R93,
R98, R131). -/
def State.unparkTeam (s : State) (team : Nat) : State :=
  match s.team? team with
  | none => s
  | some t =>
    if t.state != .resident || (s.ctx? t.ctx).any fun k => k.state = .frozen then s
    else
      let rs := t.refs.filter fun r => (s.thread? r).any fun th => th.onPage && !s.heldUp t.ctx th
      let s := s.forRefs rs fun s r => s.updThread r Thread.unpark
      s.forRefs rs fun s r => s.clearParked r

/-- A copy or a job at a page is released by a reply; one that is held until the thaw is not (R221, R223). -/
def Copy.atPage (k : Copy) (page : Nat) : Bool := !k.thaw && k.held.any fun v => v / 65536 = page
def TwkJob.atPage (j : TwkJob) (page : Nat) : Bool := !j.thaw && j.paused.any fun v => v / 65536 = page

/-- Change the copies and jobs of a context, saved ones too. -/
def State.mapEngines (s : State) (ctx : Nat) (copy : Copy → Copy) (job : TwkJob → TwkJob) : State :=
  let mine (t : Nat) : Bool := (s.team? t).any fun x => x.ctx = ctx
  { s with
    cores := s.cores.map fun (c : Core) => { c with
      copies := c.copies.map fun (k : Copy) => if mine k.ref.team then copy k else k
      twq := c.twq.map fun (j : TwkJob) => if mine j.team then job j else j }
    teams := s.teams.map fun (t : Team) => if t.ctx = ctx then { t with savedJobs := t.savedJobs.map job } else t }

/-- Held copies and paused jobs of a context translate again: all of them at a thaw, or those that waited for a page's reply
(R221, R223). -/
def State.retryEngines (s : State) (ctx : Nat) (page : Option Nat) : State :=
  let copyFree (k : Copy) : Bool := page.all k.atPage
  let jobFree (j : TwkJob) : Bool := page.all j.atPage
  s.mapEngines ctx (fun k => if copyFree k then { k with held := none, thaw := false } else k)
    fun j => if jobFree j then { j with paused := none, thaw := false } else j

/-- Copies and jobs at a refused page are held until the thaw (R221). -/
def State.holdEngines (s : State) (ctx page : Nat) : State :=
  s.mapEngines ctx (fun k => if k.atPage page then { k with thaw := true } else k)
    fun j => if j.atPage page then { j with thaw := true } else j

/-- The threads whose copies and jobs wait for a page's reply. -/
def State.enginesAt (s : State) (ctx page : Nat) : List ThreadRef :=
  ((s.cores.flatMap fun c => ((c.copies.filter fun k => k.atPage page).map Copy.ref)
      ++ (c.twq.filter fun j => j.atPage page).map fun j => ⟨j.team, j.tid⟩).filter fun r => s.ctxOf? r = some ctx)
    ++ (s.teams.filter fun t => t.ctx = ctx).flatMap fun t => (t.savedJobs.filter fun j => j.atPage page).map fun j => ⟨j.team, j.tid⟩

/-- The code of a page that has come is what its frame holds now (R40; DESIGN CHOICE, log entry 86). -/
def State.fillPage (s : State) (ctx page : Nat) : State :=
  let va := page * 65536
  match (s.walkLevels va 4 0 (((s.ctx? ctx).map Ctx.ptroot).getD 0)).2 with
  | .leaf l p _ => match s.leafHome 0 ctx va .fetch l p with
    | .home h => s.fillCode ctx va h
    | _ => s
  | _ => s

/-- RESOLVED (R221).  Threads of a team that is away stay parked until it is back (R98). -/
def State.pageResolved (s : State) (ctx page : Nat) : State :=
  let s := s.fillPage ctx page
  let rs := (s.awaiting ctx page).filter fun r => (s.team? r.team).any fun t => t.state != .swapped
  let s := s.forRefs rs fun s r => s.updThread r Thread.unpark
  let s := s.forRefs rs fun s r => s.clearParked r
  s.retryEngines ctx (some page)

/-- Accesses of queues that wait on the page. -/
def State.queueWaits (s : State) (ctx page : Nat) (f : QAccess → QAccess) : State :=
  { s with queues := s.queues.map fun (q : HostQueue) =>
      { q with accs := q.accs.map fun (a : QAccess) =>
        if a.ctx = ctx && a.txid.isNone && !a.hold && a.res.isNone && a.va / 65536 = page then f a else a } }

/-- Functions whose queues wait on the page. -/
def State.queueFns (s : State) (ctx page : Nat) : List Nat :=
  ((s.queues.filter fun q => q.accs.any fun a =>
    a.ctx = ctx && a.txid.isNone && !a.hold && a.res.isNone && a.va / 65536 = page).map HostQueue.fn).eraseDups

/-- End a team by R109; a swapped one has nothing in flight and is over at once. -/
def State.killNow (s : State) (t : Nat) (c : Cause) (who : Option ThreadRef) : State :=
  let was := (s.team? t).map Team.state
  let s := s.killTeam t c who
  if was = some .swapped then s.killDrained t else s

/-- The context goes FAILED (R120): its save area cannot be written.  Its teams end without kill records, its dispatched
packets complete FAILED, and system software is told. -/
def State.failCtx (s : State) (ctx : Nat) (cause : Cause) : State :=
  let s := s.updCtx ctx fun k => { k with state := .failed, ckptPending := false, preemptPending := false }
  let s := s.abortLaunches (fun l => l.ctx = ctx) stFAILED
  let s := s.queues.foldl (fun s q =>
    (q.pkts.filter fun p => p.ctx = ctx && !p.complete && !p.held).foldl (fun s p => s.completePacket q.fn q.q p.index stFAILED 0) s) s
  (s.updCtx ctx fun k => { k with state := .failed }).tell "CONTEXT_FAILED" [ctx, cause.toNat]

/-- A save, swap or checkpoint of the context is in progress. -/
def State.savingCtx (s : State) (k : Ctx) : Bool :=
  k.state = .preempting || k.state = .checkpointing
    || (k.state = .running && s.teams.any fun t => t.ctx = k.id && t.state = .saving)

/-- Jobs of saved teams that paused on a refused page end in the error phase (R221). -/
def State.refuseSaved (s : State) (ctx page : Nat) : State :=
  s.teams.foldl (fun s t =>
    let bad (j : TwkJob) : Bool := j.atPage page
    if t.ctx != ctx || !t.savedJobs.any bad then s
    else
      let s := s.updTeam t.id fun x => { x with savedJobs := x.savedJobs.filter fun j => !bad j }
      (t.savedJobs.filter bad).foldl (fun s j =>
        s.engineArrive j.team (j.tid / 32) j.sig (some cWALKER_FAULT)) s) s

/-- REFUSE_KILL (R221, R395, R119). -/
def State.pageRefused (s : State) (ctx page : Nat) : State :=
  let rs := s.awaiting ctx page
  let teams := (rs.map ThreadRef.team).eraseDups
  let parked (r : ThreadRef) : Bool := s.status? r = some (.parked cPAGE_ABSENT)
  let who (t : Nat) : Option ThreadRef :=
    ((rs.filter fun r => r.team = t).find? parked).or (rs.find? fun r => r.team = t)
  -- copies end as refused, jobs in the error phase, before the teams end
  let s := s.cores.foldl (fun s c =>
    let s := ((List.range c.copies.length).reverse).foldl (fun s i =>
      match c.copies[i]? with
      | some k => if k.atPage page && s.ctxOf? k.ref = some ctx then
          s.finishCopy c.id i [] true else s
      | none => s) s
    ((List.range c.twq.length).reverse).foldl (fun s i =>
      match c.twq[i]? with
      | some j => if j.atPage page && s.ctxOf? ⟨j.team, j.tid⟩ = some ctx then
          s.twkFail c.id i else s
      | none => s) s) s
  let s := s.refuseSaved ctx page
  let s := teams.foldl (fun s t => s.killNow t cPAGE_ABSENT (who t)) s
  let s := s.queueWaits ctx page fun a => { a with res := some none }
  match s.ctx? ctx with
  | some k =>
    if k.savebase <= page * 65536 && page * 65536 < k.savebase + k.savesz && s.savingCtx k then s.failCtx ctx cPAGE_ABSENT
    else s
  | none => s

/-- REFUSE_FREEZE (R221, R395): what waits stays, and translates again after the thaw; the page's code is then fetched anew (R40). -/
def State.pageFrozen (s : State) (ctx page : Nat) : State :=
  let who := s.awaiting ctx page ++ s.enginesAt ctx page
  let fns := s.queueFns ctx page
  let s := s.queueWaits ctx page fun a => { a with hold := true }
  let s := fns.foldl (fun s f => s.freezeQueues f) s
  let s := (s.holdEngines ctx page).updCtx ctx fun k => { k with stale := k.stale ++ [(page, page)] }
  -- firmware is told the cause, the team and the thread (R130)
  let names := who.head?.elim [] fun r => [r.team, r.tid]
  if !who.isEmpty || fns.isEmpty then s.freezeCtx ctx ([1, page * 65536] ++ names) else s

/-! ## Range invalidation (R224) -/

/-- Drop every translation and cached line of a context in a range of addresses. -/
def State.dropRange (s : State) (ctx base len : Nat) : State :=
  let s := if len = 0 then s else s.updCtx ctx fun k => { k with
    stale := k.stale ++ [(base / 65536, (base + len - 1) / 65536)] }
  let hit (e : TlbEntry) : Bool :=
    let sz := 2 ^ levelShift e.level
    e.ctx = ctx && e.page * sz < base + len && base < (e.page + 1) * sz
  { s with
    cores := s.cores.map fun (c : Core) => { c with
      l1tlb := c.l1tlb.filter fun e => !hit e
      wtlb := c.wtlb.filter fun e => !hit e
      l1 := c.l1.filter fun ln => !(ln.ctx = ctx && ln.va < base + len && base < ln.va + 64) }
    dies := s.dies.map fun (d : Die) => { d with
      tlb := d.tlb.filter fun e => !hit e
      walkCache := d.walkCache.filter fun e => !hit e } }

/-- System software asks for a range invalidation; beyond 64 pending it waits.  A request that is not made of whole 64 KiB
pages is refused (DEDUCED, log entry 19). -/
def State.rangeRequest (s : State) (ctx base len : Nat) : State :=
  if base % 65536 != 0 || len % 65536 != 0 || 2 ^ 56 < len || (s.ctx? ctx).isNone then s.tell "RANGE_REFUSED" [ctx, base, len]
  else
    let now := (s.rangeInvs.countP RangeInv.active) < 64
    let s : State := { s with rangeInvs := s.rangeInvs ++ [⟨ctx, base, len, now⟩] }
    if now then s.dropRange ctx base len else s

/-- An access of the context, translated through a dropped entry, is not yet performed. -/
def State.rangeBusy (s : State) (q : RangeInv) : Bool :=
  let inR (va : Nat) : Bool := q.base <= va && va < q.base + q.len
  s.migrations.any (fun m => m.ctx = q.ctx && inR (m.page * 65536))
    || s.cores.any (fun c => c.storeq.any fun w => w.ctx = q.ctx && w.home.ackKind != .scr && inR w.va)
    || s.cores.any (fun c => c.loads.any fun l => l.ack.isSome && s.ctxOf? l.ref = some q.ctx && l.va.any inR)
    || s.queues.any (fun x => x.accs.any fun a => a.ctx = q.ctx && a.txid.isSome && inR a.va)
    || s.remotes.any fun x => s.ctxOf? x.ref = some q.ctx && inR x.acc.va

/-- A range invalidation completes once those accesses are performed; a waiting request takes its place. -/
def State.rangeComplete (s : State) (ix : Nat) : State :=
  match s.rangeInvs[ix]? with
  | none => s
  | some q =>
    if !q.active || s.rangeBusy q then s
    else
      let s := ({ s with rangeInvs := s.rangeInvs.eraseIdx ix } : State).tell "RANGE_DONE" [q.ctx, q.base, q.len]
      match s.rangeInvs.findIdx? fun x => !x.active with
      | none => s
      | some i =>
        let n := (s.rangeInvs[i]?).getD q
        ({ s with rangeInvs := s.rangeInvs.modify i fun x => { x with active := true } } : State).dropRange n.ctx n.base n.len

/-- A background walk ends (R218): a valid entry fills both TLBs. -/
def State.bgWalkDone (s : State) (die ix : Nat) : State :=
  match (s.die die).bgWalks[ix]? with
  | none => s
  | some (ctx, page, core) =>
    if s.vaHeld ctx (page * 65536) then s
    else
      let s := s.updDie die fun d => { d with bgWalks := d.bgWalks.eraseIdx ix }
      match s.walk die ctx (page * 65536) with
      | (s, .leaf l p pa) => s.fill core ctx (page * 65536) l p pa false false
      | (s, _) => s

/-! ## Frames and Sluice (R225 to R229) -/

/-- A frame address with a KIND DEV home. -/
def frameOk (v : Nat) : Bool := v / 2 ^ 52 = 0 && bitsOf v 15 2 = 0 && paOk (v / 65536 * 65536)

/-- Drop the replica that a frame holds; the frame is then free (R229). -/
def State.dropReplica (s : State) (frame : Nat) : State :=
  match s.dies.findSome? fun d => (d.replicas.find? fun q => q.2.2 = frame).map fun q => (d.id, q) with
  | none => s
  | some (die, q) =>
    let va := q.2.1 * 65536
    let s := s.updDie die fun d => { d with
      replicas := d.replicas.filter fun x => x.2.2 != frame
      walkCache := d.walkCache.filter fun e => !e.covers q.1 va
      tlb := d.tlb.filter fun e => !e.covers q.1 va }
    { s with
      cores := s.cores.map fun (c : Core) => if dieOf c.id = die then { c with
        l1tlb := c.l1tlb.filter fun e => !e.covers q.1 va
        wtlb := c.wtlb.filter fun e => !e.covers q.1 va
        l1 := c.l1.filter fun ln => !(ln.ctx = q.1 && ln.va / 65536 = q.2.1) } else c }

/-- Writes that waited for a page whose migration was abandoned are performed at the page's home as it then stands (R228): what
they count toward follows the home, and one to a page on another device is sent there. -/
def State.rehome (s : State) (ctx page : Nat) : State :=
  let root := ((s.ctx? ctx).map Ctx.ptroot).getD 0
  let now (va : Nat) (h : Home) : Home := match (s.walkLevels va 4 0 root).2 with
    | .leaf l p _ => match s.leafHome 0 ctx va .store l p with
      | .home h' => h'
      | _ => h
    | _ => h
  let mine (w : QStore) : Bool := w.ctx = ctx && w.va / 65536 = page && !w.done && w.home.ackKind = .pkg
  s.cores.foldl (fun s c => (c.storeq.zipIdx.filter fun q => mine q.1).foldl (fun s q =>
    let w := q.1
    let h := now w.va w.home
    let s := s.updThread w.ref fun th => if h.ackKind = .pkg then th else (th.countDown .pkg false).countUp h.ackKind
    let set (s : State) (tx : Option Nat) : State := s.updCore c.id fun k => { k with
      storeq := k.storeq.modify q.2 fun x => { x with home := h, txid := tx } }
    match h with
    | .peer dev wa =>
      let p := s.sendRemote c.id w.ref ctx dev wa (.store (BitVec.ofNat 64 w.va) w.data) 3 0 w.data
      set p.1 (some p.2)
    | _ => set s none) s) s

/-- The same for several migrations. -/
def State.rehomeAll (s : State) (ms : List Migration) : State := ms.foldl (fun s m => s.rehome m.ctx m.page) s

/-- A FRAMEOP write (R226): GRANT adds a frame, RECLAIM takes it back, dropping a replica or abandoning a migration.  Before boot no
function is shown (R17). -/
def State.frameop (s : State) (op v : Nat) : State :=
  let frame := v / 65536 * 65536
  let replica := s.dies.any fun d => d.replicas.any fun q => q.2.2 = frame
  let target := s.migrations.any fun m => m.dst = frame
  let refuse : State := { s with frameErr := true }
  if !s.booted then s
  else if 2 <= op || 2 <= v % 4 then refuse
  else if v % 4 != op then s
  else if !frameOk v then refuse
  else if op = 0 then
    (if s.frames.contains frame || replica || target then refuse else { s with frames := s.frames ++ [frame] })
  else if s.frames.contains frame then
    ({ s with frames := s.frames.filter (· != frame) } : State).holdRecord (reclaimedWords frame)
  else if replica then (s.dropReplica frame).holdRecord (reclaimedWords frame)
  else if target then
    (({ s with migrations := s.migrations.filter fun m => m.dst != frame } : State).rehomeAll
      (s.migrations.filter fun m => m.dst = frame)).holdRecord (reclaimedWords frame)
  else refuse

/-- Free frames of a channel. -/
def State.freeIn (s : State) (die ch : Nat) : List Nat := s.frames.filter fun f => paDie f = die && paChan f = ch

/-- The target channel of a die: most free frames, lowest number on a tie (R227). -/
def State.targetChannel (s : State) (die : Nat) : Nat :=
  (List.range 44).foldl (fun best c => if (s.freeIn die best).length < (s.freeIn die c).length then c else best) 0

/-- The target channel of a die holds more than WATERMARK free frames. -/
def State.frameRoom (s : State) (die : Nat) : Bool := s.sluiceWater < (s.freeIn die (s.targetChannel die)).length

/-- |dx| + |dy| between two dies (R227). -/
def hops (a b : Nat) : Nat :=
  let dif (x y : Nat) : Nat := (x - y) + (y - x)
  dif (a % 8) (b % 8) + dif (a / 8) (b / 8)

/-- Begin a copy of a page to the target channel of a die: a migration, or a replica for that die. -/
def State.beginCopy (s : State) (ctx page : Nat) (pte : DWord) (pteAt die : Nat) (replica : Bool) : State :=
  match s.freeIn die (s.targetChannel die) with
  | [] => s
  | f :: _ =>
    { s with
      frames := s.frames.filter (· != f)
      migrations := s.migrations ++ [⟨ctx, page, pteAddr pte, f, pteAt, pte, if replica then some die else none⟩] }

/-- Sluice decides for one counted page (R227): its counts by requester die, and whether a store reached it. -/
def State.sluicePage (s : State) (home : Nat) (depths : List Nat) (ctx page : Nat) (counts : List (Nat × Nat)) (stored : Bool) :
    State :=
  let frozen := ((s.ctx? ctx).map fun k => decide (k.state = .frozen)).getD true
  let root := ((s.ctx? ctx).map Ctx.ptroot).getD 0
  match (s.walkLevels (page * 65536) 4 0 root).2 with
  | .leaf 3 pte at_ =>
    let score (q : Nat × Nat) : Nat := q.2 * hops q.1 home
    let ranked := counts.mergeSort fun a b => score b < score a || (score a = score b && a.1 <= b.1)
    let busy := s.migrations.any fun m => m.ctx = ctx && m.page = page
    match ranked with
    | [] => s
    | top :: _ =>
      if frozen || pteKind pte != 0 || paDie (pteAddr pte) != home || busy || score top < s.sluiceThresh
          || s.sluiceQmax < depths.getD top.1 0 then s
      else if pteRepl pte && !stored then
        let has := (s.dies.map fun d => d.replicas.countP fun q => q.1 = ctx && q.2.1 = page).sum
        let want := (ranked.filter fun q => s.sluiceThresh <= score q
          && !(s.die q.1).replicas.any fun x => x.1 = ctx && x.2.1 = page)
        (want.foldl (fun (acc : State × Nat) q =>
          if acc.2 < s.sluiceMaxrepl && acc.1.frameRoom q.1
              && (acc.1.die q.1).replicas.length + (acc.1.migrations.countP fun m => m.replica = some q.1) < 1024 then
            (acc.1.beginCopy ctx page pte at_ q.1 true, acc.2 + 1) else acc) (s, has)).1
      else
        let own := ((counts.find? fun q => q.1 = home).map Prod.snd).getD 0
        if 2 * own <= top.2 && s.frameRoom top.1 && top.1 != home then s.beginCopy ctx page pte at_ top.1 false else s
  | _ => s

/-- The end of an epoch: every counted page is judged, and every count is reset (R225, R227). -/
def State.epochEnd (s : State) (die : Nat) (depths : List Nat) : State :=
  let cs := (s.die die).counts
  let pages := (cs.map fun q => (q.1, q.2.1)).eraseDups
  let s := pages.foldl (fun s p =>
    let mine := cs.filter fun q => q.1 = p.1 && q.2.1 = p.2
    s.sluicePage die depths p.1 p.2 (mine.map fun q => (q.2.2.1, q.2.2.2.1)) (mine.any fun q => q.2.2.2.2)) s
  s.updDie die fun d => { d with counts := [], epochAt := d.q0 / s.sluiceEpoch }

/-- The physical base that a queued write to a moved page now has. -/
def moveHome (m : Migration) (h : Home) : Home :=
  match h with
  | .dev a => if a / 65536 = m.src / 65536 then .dev (m.dst + a % 65536) else .dev a
  | x => x

/-- The copy of a page completes (R228, R229).  A page-table entry that has changed abandons it; a migration swaps the entry,
drops the page's translations, frees the old frame and posts MOVED. -/
def State.migrationDone (s : State) (ix : Nat) : State :=
  match s.migrations[ix]? with
  | none => s
  | some m =>
    let s : State := { s with migrations := s.migrations.eraseIdx ix }
    let now := s.readPte m.pteAt
    let content := s.mem.slice m.src 65536
    match m.replica with
    | some die =>
      if (now ||| 0x60) != (m.pte ||| 0x60) || s.dieFenced die then { s with frames := s.frames ++ [m.dst] }
      else
        ({ s with mem := (s.mem.clear m.dst 65536).paste m.dst content } : State).updDie die fun d => { d with
          replicas := d.replicas ++ [(m.ctx, m.page, m.dst)] }
    | none =>
      if now != m.pte || s.dieFenced (paDie m.dst) then
        ({ s with frames := s.frames ++ [m.dst] } : State).rehome m.ctx m.page
      else
        let pte := (now &&& ~~~(0x000FFFFFFFFFE000#64)) ||| BitVec.ofNat 64 m.dst
        let mem := ((s.mem.clear m.dst 65536).paste m.dst content).writeBytes m.pteAt (leBytes pte.toNat 8)
        let s : State := { s with mem := mem, frames := s.frames ++ [m.src] }
        let s := (s.dropRange m.ctx (m.page * 65536) 65536).dropReplicas m.ctx (m.page * 65536)
        let s : State := { s with cores := s.cores.map fun (c : Core) => { c with
          storeq := c.storeq.map fun (w : QStore) => if w.ctx = m.ctx && w.va / 65536 = m.page then { w with home := moveHome m w.home } else w } }
        s.holdRecord (movedWords m.ctx m.page m.dst)

/-! ## Loss of a die (R162, R163, R230) -/

/-- The entries of a table that some listed byte makes nonzero: index and entry. -/
def tableEntries (m : Memory) (table : Nat) : List (Nat × DWord) :=
  let ixs := ((m.filter fun c => table <= c.1 && c.1 < table + 8192).map fun c => (c.1 - table) / 8).eraseDups
  ixs.map fun i => (i, BitVec.ofNat 64 (leNat (m.readBytes (table + 8 * i) 8)))

/-- Valid leaves below a table: level, virtual address, entry and its place; with the tables passed. -/
def leavesUnder (m : Memory) : Nat → Nat → Nat → Nat → List (Nat × Nat × DWord × Nat)
  | 0, _, _, _ => []
  | fuel + 1, level, table, va =>
    (tableEntries m table).flatMap fun q =>
      let v := va + q.1 * 2 ^ levelShift level
      if !pteValid q.2 || pteMalformed level q.2 then []
      else if pteLeaf q.2 then [(level, v, q.2, table + 8 * q.1)]
      else leavesUnder m fuel (level + 1) (pteAddr q.2) v

/-- Valid leaves of a context. -/
def State.leaves (s : State) (k : Ctx) : List (Nat × Nat × DWord × Nat) := leavesUnder s.mem 4 0 k.ptroot 0

/-- Addresses of the tables below a table, itself among them. -/
def tablesUnder (m : Memory) : Nat → Nat → Nat → List Nat
  | 0, _, _ => []
  | fuel + 1, level, table =>
    table :: (tableEntries m table).flatMap fun q =>
      if !pteValid q.2 || pteMalformed level q.2 || pteLeaf q.2 then [] else tablesUnder m fuel (level + 1) (pteAddr q.2)

/-- A context holds pages, or page tables of any level, on a die. -/
def State.pagesOn (s : State) (k : Ctx) (die : Nat) : Bool :=
  (tablesUnder s.mem 4 0 k.ptroot).any (fun a => paDie a = die) || (s.leaves k).any fun q => paDie q.2.2.2 = die || (pteKind q.2.2.1 = 0 && paDie (pteAddr q.2.2.1) = die)

/-- A replica on a live die becomes the primary of a page whose die is lost (R230). -/
def State.promote (s : State) (k : Ctx) (die : Nat) (q : Nat × Nat × DWord × Nat) : State :=
  let page := q.2.1 / 65536
  let pte := q.2.2.1
  let rep := s.dies.findSome? fun d => if d.id = die || d.fenced then none else
    (d.replicas.find? fun x => x.1 = k.id && x.2.1 = page)
  match rep with
  | none => s
  | some x =>
    if q.1 != 3 || !pteRepl pte || pteKind pte != 0 || paDie (pteAddr pte) != die || paDie q.2.2.2 = die then s
    else
      let new := (pte &&& ~~~(0x000FFFFFFFFFE000#64)) ||| BitVec.ofNat 64 x.2.2
      let s : State := { s with
        mem := s.mem.writeBytes q.2.2.2 (leBytes new.toNat 8)
        dies := s.dies.map fun (d : Die) => { d with replicas := d.replicas.filter fun y => y != x }
        cores := s.cores.map fun (c : Core) => { c with storeq := c.storeq.map fun (w : QStore) =>
          if w.ctx = k.id && w.va / 65536 = page then
            { w with home := moveHome ⟨k.id, page, pteAddr pte, x.2.2, 0, 0, none⟩ w.home } else w } }
      (s.dropRange k.id (page * 65536) 65536).holdRecord (movedWords k.id page x.2.2)

/-- Open requests for pages that a lost die held: their replies are ignored, and what waits tries again and meets MEMORY_LOST
(R231). -/
def State.closeLost (s : State) (die : Nat) : State :=
  let gone (q : PageReq) : Bool := match (s.walkLevels (q.page * 65536) 4 0 (((s.ctx? q.ctx).map Ctx.ptroot).getD 0)).2 with
    | .lost => true
    | .leaf _ p _ => pteKind p = 0 && paDie (pteAddr p) = die
    | _ => false
  let qs := s.pageReqs.filter gone
  qs.foldl (fun s q => s.pageResolved q.ctx q.page) { s with pageReqs := s.pageReqs.filter fun q => !gone q }

/-- Pages of a lost die: replicas promoted or dropped, migrations discarded or abandoned, frames gone, LOST posted (R230). -/
def State.losePages (s : State) (die : Nat) : State :=
  let held := s.ctxs.filter fun k => s.pagesOn k die
  let s := s.ctxs.foldl (fun s k => (s.leaves k).foldl (fun s q => s.promote k die q) s) s
  let s : State := { s with
    frames := (s.frames ++ (s.migrations.filter fun m => paDie m.src = die && paDie m.dst != die).map Migration.dst).filter
      fun f => paDie f != die
    migrations := s.migrations.filter fun m => paDie m.src != die && paDie m.dst != die }
  let s := s.updDie die fun d => { d with replicas := [], tlb := [], walkCache := [], bgWalks := [], counts := [] }
  let s := s.closeLost die
  held.foldl (fun s k => s.holdRecord (lostWords k.id die)) s

/-- Launches when a die is fenced (R163): clusters are handed out again, or the launch ends DIE_LOST. -/
def State.loseLaunches (s : State) (die : Nat) : State :=
  s.launches.foldl (fun s l =>
    let there := (s.clusters.filter fun c => c.launch = l.id && dieOf c.origin = die && !c.ended).map Cluster.cix
    let unplaced := (l.todo.filter fun q => q.1 = die).map Prod.snd
    let s := s.updLaunch l.id fun k => { k with todo := k.todo.filter (fun q => q.1 != die), again := k.again ++ unplaced }
    if there.isEmpty || l.state != .running then s
    else if l.recd.reissue && !l.recd.cor then there.foldl (fun s c => s.reissueCluster l c fun k => dieOf k = die) s
    else
      let s := (s.teams.filter fun t => t.launch = l.id && t.state != .ended).foldl (fun s t =>
        if dieOf t.core = die then (s.endTeamQuietly t.id).finishTeam t true else s.killNow t.id cDIE_LOST none) s
      s.updLaunch l.id fun k => { k with dieLost := true, todo := [], again := [], next := k.ncl }) s

/-- Firmware fences a die (R18, R162, R163, R168, R179, R230). -/
def State.dieFence (s : State) (die : Nat) : State :=
  if 64 <= die || (s.die die).fenced then s
  else
    let homed := s.objs.any fun o => s.homeDie o.ctx o.name = die
    let s := s.updDie die fun d => { d with fenced := true, rebuilding := homed }
    let s : State := { s with flash := { s.flash with disabled := s.flash.disabled.filter (· != 2 ^ 16 + die) ++ [2 ^ 16 + die] } }
    let s := ((s.elect die).loseLaunches die).losePages die
    -- the application cores' operating system is told of its channels 44 to 47 (R230)
    let s := s.tell "HOST_CHANNELS_LOST" [die, 44, 45, 46, 47]
    let s : State := { s with cores := s.cores.map fun (c : Core) => if dieOf c.id = die then { c with
      held := none, storeq := [], loads := [], copies := [], twq := [], engq := [], engRun := [], ranges := [], locks := []
      l1 := [], l1tlb := [], wtlb := [] } else c }
    let s : State := { s with taskqs := s.taskqs.filter fun q =>
      !((q.level = 1 && dieOf q.ix = die) || (q.level = 2 && q.ix / 4 = die) || (q.level = 3 && q.ix = die)) }
    (s.loseObjects fun c => dieOf c = die).replan fun c => dieOf c = die

/-- PAGE_REQUEST_POST (R220).  -/
def execPageRequestPost  (st : State) : Res :=
  .next st.postRecord

/-- RESOLVE_RESOLVED (R221).  -/
def execResolveResolved (ctx : Nat) (va : BitVec 56) (st : State) : Res :=
  .next (st.resolve ctx (va.toNat / 65536) fun st => st.pageResolved ctx (va.toNat / 65536))

/-- RESOLVE_REFUSE_KILL (R221).  -/
def execResolveRefuseKill (ctx : Nat) (va : BitVec 56) (st : State) : Res :=
  .next (st.resolve ctx (va.toNat / 65536) fun st => st.pageRefused ctx (va.toNat / 65536))

/-- RESOLVE_REFUSE_FREEZE (R221).  -/
def execResolveRefuseFreeze (ctx : Nat) (va : BitVec 56) (st : State) : Res :=
  .next (st.resolve ctx (va.toNat / 65536) fun st => st.pageFrozen ctx (va.toNat / 65536))

/-- FRAMEOP_GRANT (R226).  -/
def execFrameopGrant (value : BitVec 64) (st : State) : Res :=
  .next (st.frameop 0 value.toNat)

/-- FRAMEOP_RECLAIM (R226).  -/
def execFrameopReclaim (value : BitVec 64) (st : State) : Res :=
  .next (st.frameop 1 value.toNat)

/-- RANGE_INVALIDATE_REQUEST (R224).  -/
def execRangeInvalidateRequest (ctx : Nat) (base : BitVec 64) (len : BitVec 64) (st : State) : Res :=
  .next (st.rangeRequest ctx base.toNat len.toNat)

/-- RANGE_INVALIDATE_COMPLETE (R224).  -/
def execRangeInvalidateComplete (ix : Nat) (st : State) : Res :=
  .next (st.rangeComplete ix)

/-- BACKGROUND_WALK_COMPLETE (R218).  -/
def execBackgroundWalkComplete (die : Nat) (ix : Nat) (st : State) : Res :=
  .next (st.bgWalkDone die ix)

/-- SLUICE_EPOCH_END (R227).  -/
def execSluiceEpochEnd (die : Nat) (depths : List Nat) (st : State) : Res :=
  .next (st.epochEnd die depths)

/-- MIGRATION_COMPLETE (R228).  -/
def execMigrationComplete (ix : Nat) (st : State) : Res :=
  .next (st.migrationDone ix)

/-- DIE_FENCE (R163).  -/
def execDieFence (die : Nat) (st : State) : Res :=
  .next (st.dieFence die)

end Sys2Proof.Machine
end

