-- ==== Sys2Proof/Machine/Residency.lean ====
section
/-!
DEFINITION. Where teams live: swap, save and readmission (R96 to R100, R126 to R128), and the passing of a core from one
context to another with its scrub (R121, R122, R176, R178).
-/
namespace Sys2Proof.Machine

/-! ## The swap condition (R96, R99) -/

/-- At least SWAPFRAC percent of the threads that have not exited are parked. -/
def Team.parkedEnough (t : Team) (frac : Nat) : Bool :=
  let n := t.live.length
  1 <= n && frac * n <= 100 * t.live.countP Thread.isParked

/-- The cycle at which enough of a team's threads had parked (R96). -/
def Team.parkedSince (t : Team) (frac : Nat) : Nat :=
  let ps := (t.live.filter Thread.isParked).map Thread.parkedAt
  let enough (p : Nat) : Bool := frac * t.live.length <= 100 * ps.countP fun q => q <= p
  (ps.filter enough).foldl min ((ps.foldl max 0))

/-- The core whose place a team waits for: its former one, or any of the die once its round has passed (R98). -/
def Team.waitsAt (t : Team) (core : Nat) : Bool := t.core = core || (t.anyCore && dieOf t.core = dieOf core)

/-- A launch has a cluster waiting for a place on the core (R96): one not placed that no core of the die has room for, a lent one
included, or a reservation that includes the core and that does not fit there whole. -/
def State.launchWants (s : State) (core : Nat) (corTeam : Bool) (l : Launch) : Bool :=
  let die := dieOf core
  -- a rectangle that the cluster may take contains the core
  let within (hold : Option Nat) : Bool := (findRect l.recd.shx l.recd.shy die hold fun c => s.permitted l.recd c).isSome
    && ((List.range 48).any fun n =>
      let cs := rectCores l.recd.shx l.recd.shy (coreOf die n)
      (rectOrigins l.recd.shx l.recd.shy (quarterOf n)).contains n && cs.contains core && cs.all (s.permitted l.recd)
        && hold.all cs.contains)
  let planned := planCount l.recd.shx l.recd.shy l.plan core
  s.mayPlace l && (if l.recd.cor then
      !corTeam && planned != 0
        && !s.teamsRoom l.id l.ctx core l.recd.threads l.recd.regs l.recd.scrsz [] planned
    else
      (l.todo.any (fun q => q.1 = die) || l.next < l.ncl || !l.again.isEmpty)
        && within (l.draw.bind (s.drawHolder l))
        && (match l.draw.bind (s.drawHolder l) with
          | some h => dieOf h = die && quarterOf (numOf h) = quarterOf (numOf core) && (s.rectFor l die (some h) true).isNone
          | none => s.dieEligible l die && (s.rectFor l die none true).isNone))

/-- A swapped team that may return waits for a place on the core (R96, R98). -/
def State.teamWants (s : State) (core : Nat) (corTeam : Bool) (x : Team) : Bool :=
  s.eligible x && x.waitsAt core && !(corTeam && s.teamCor x)
    && (s.teamRoom x.launch x.ctx core x.threads x.regs x.scrsz (!s.teamCor x)).isNone

/-- Another team waits for a place on the core and does not fit (R96). -/
def State.placeWanted (s : State) (core : Nat) (corTeam : Bool) : Bool :=
  s.launches.any (s.launchWants core corTeam) || s.teams.any (s.teamWants core corTeam)

/-- The context is FROZEN and has not been saved since: its cores stay its own (R130). -/
def State.frozenHold (s : State) (ctx : Nat) : Bool := (s.ctx? ctx).any fun k => k.state = .frozen && k.before != .saved

/-- Contexts other than its own for which a core without teams is wanted; Heron has it scrubbed for one of them (R121). -/
def State.passesTo (s : State) (c : Core) : List Nat :=
  match c.owner with
  | none => []
  | some o =>
    if c.scrubbing || !(s.holding c.id).isEmpty || s.frozenHold o then []
    else (((s.launches.filter (s.launchWants c.id false)).map Launch.ctx
      ++ (s.teams.filter (s.teamWants c.id false)).map Team.ctx).filter (· != o)).eraseDups

/-- A team meets the swap condition; the wait of its parked threads has been counted. -/
def State.swapMet (s : State) (t : Team) : Bool :=
  match s.ctx? t.ctx with
  | none => false
  | some k => t.state = .resident && k.state = .running && t.parkedEnough k.swapfrac && s.placeWanted t.core (s.teamCor t)

/-- The team stops issuing: its ready threads leave their runs (R97). -/
def State.beginSave (s : State) (t : Team) (forced preempted : Bool) : State :=
  let s := s.dropHeld fun r => r.team = t.id
  s.updTeam t.id fun x => { x.leaveRuns [] with state := .saving, forced := x.forced || forced, preempted := preempted }

/-- The front cycle from which a team's parked threads have been parked for SWAPCYC. -/
def State.swapFrom (s : State) (t : Team) : Nat :=
  match s.ctx? t.ctx with
  | some k => t.parkedSince k.swapfrac + k.swapcyc
  | none => 0

/-- A swap begins: the parked threads have been parked for SWAPCYC.  Swaps of a core go one at a time, the team placed
earliest first. -/
def State.teamSwap (s : State) (team : Nat) : State :=
  match s.team? team with
  | none => s
  | some t =>
    let others := s.teams.filter fun x => x.core = t.core && x.id != t.id
    let until_ := max (s.cycAt t.core s.now) (s.swapFrom t)
    if !s.swapMet t || others.any (fun x => x.state = .saving)
        || others.any (fun x => s.swapMet x && s.swapFrom x <= until_ && x.placedAt < t.placedAt) then s
    else
      (s.countTo t.core until_).beginSave t false false

/-! ## Saving (R97, R126) -/

/-- Nothing of the team is in flight but walker jobs between tiles (R97), and no write of another core to its window (R209). -/
def State.drained (s : State) (t : Team) : Bool :=
  let c := s.core t.core
  let inOp (e : EngOp) : Bool := match e with
    | .mma m => m.team = t.id
    | .bank team _ _ _ _ _ _ => team = t.id
    | .topkInit team _ _ _ => team = t.id
    | .topkRead team _ _ _ => team = t.id
  !c.storeq.any (fun q => q.ref.team = t.id) && !c.copies.any (fun q => q.ref.team = t.id)
    && !c.engq.any inOp && !c.engRun.any (fun e => inOp e.op)
    && !c.loads.any (fun l => l.ref.team = t.id) && !s.remotes.any (fun x => x.ref.team = t.id)
    && !c.twq.any (fun j => j.team = t.id && j.at_.isSome)
    && !s.cores.any fun k => k.remoteBusy t.core t.winBase t.scrsz

/-- A page of the save area in use that is absent: its address and level.  R119 does not say where in the save area firmware
puts its images: the model takes them as packed from SAVEBASE, so that the first bytes in use are looked at, and a reply
REFUSE_FREEZE freezes the context (DESIGN CHOICE, log entry 63). -/
def State.saveAbsent (s : State) (ctx : Nat) : Option (Nat × Nat) :=
  match s.ctx? ctx with
  | none => none
  | some k =>
    let n := (min k.savesz (s.saveUsed ctx) + 65535) / 65536
    (List.range n).findSome? fun i =>
      let va := k.savebase + 65536 * i
      match (s.walkLevels va 4 0 k.ptroot).2 with
      | .absent l => some (va, l)
      | _ => none

/-- At a save, sleeps end and a YIELD keeps what is left of its wait (R361, R352). -/
def Team.holdTimers (t : Team) (cyc : Nat) : Team :=
  { t with groups := t.groups.map fun (g : Group) => { g with threads := g.threads.map fun (th : Thread) =>
      match th.status with
      | .waiting (.timer true _) => { th with status := .ready, grant := some 0 }
      | .waiting (.timer false u) => { th with status := .waiting (.timer false (u - cyc)) }
      | _ => th } }

/-- At readmission, what is left of a YIELD counts on the core's clock. -/
def Team.runTimers (t : Team) (cyc : Nat) : Team :=
  { t with groups := t.groups.map fun (g : Group) => { g with threads := g.threads.map fun (th : Thread) =>
      match th.status with
      | .waiting (.timer false u) => { th with status := .waiting (.timer false (cyc + u)) }
      | .yielded => { th with status := .ready }
      | _ => th } }

/-- Move a drained team to the save area: registers and threads stay in its record; window, collectors and walker jobs, with the
page that one pauses at, go with it, and copies of its owned Sedge sets (R252); its room is free. -/
def State.storeTeam (s : State) (t : Team) (preempted : Bool) : State :=
  let c := s.core t.core
  let jobs := (c.twq.filter fun j => j.team = t.id).map fun (j : TwkJob) => { j with
    running := false, ranged := none, at_ := none, elem := 0 }
  let own := (List.range c.sedge.length).filterMap fun i => match c.sedge[i]? with
    | some e => if e.owner = some t.id then some (i, e) else none
    | none => none
  let ranges := (c.twq.filter fun j => j.team = t.id).filterMap TwkJob.ranged
  let s := s.updCore t.core fun c => { (ranges.foldl Core.retireRange c) with
    twq := c.twq.filter fun j => j.team != t.id
    collectors := c.collectors.filter fun k => k.team != t.id
    scratch := c.scratch.clear t.winBase t.scrsz }
  let s := (s.departs (dieOf t.core) t.ctx).updTeam t.id fun x => { x.holdTimers c.cyc with
    state := .swapped
    savedWin := c.scratch.slice t.winBase t.scrsz
    savedCols := c.collectors.filter fun k => k.team = t.id
    savedSedge := own
    savedJobs := jobs
    preempted := preempted
    swappedAt := s.serial
    lent := []
    roundFailed := false
    roundFrom := 0
    anyCore := false }
  let s : State := { s with serial := s.serial + 1 }
  if preempted then s else s.flushTasks t.ctx t.core

/-- A save finishes (R97, R100): a swap, or a pre-emption save of a team that has yielded or was forced. -/
def State.saveComplete (s : State) (team : Nat) : State :=
  match s.team? team with
  | none => s
  | some t =>
    match s.ctx? t.ctx with
    | none => s
    | some k =>
      let pre := k.state = .preempting || (k.state = .frozen && k.preemptPending)
      let ready := (t.state = .saving && (k.state != .frozen || pre)) || (pre && t.state = .resident && (s.teamYielded t || k.state = .frozen))
      if !ready || !s.drained t || (pre && !(s.core t.core).engineIdle) then s
      else match s.saveAbsent t.ctx with
        | some (va, l) => s.openRequest t.ctx va 2 t.core l
        | none =>
          let t := t.leaveRuns []
          let s := ((s.writeImages t.ctx).updTeam team fun _ => t).storeTeam t (pre || t.preempted)
          if pre then s.preemptDone t.ctx else s

/-! ## Readmission (R98, R99, R128) -/

/-- The team's absence blocks a sync object on which a resident team waits: it is a member of an ACTIVE cluster or grid object
with waiters (R98, R189). -/
def State.blocksSync (s : State) (t : Team) : Bool :=
  (List.range 24).any fun i => s.teams.any fun x => x.id != t.id && x.launch = t.launch && x.state = .resident
    && (16 <= i || x.cix = t.cix) && (s.syncObj x (32 + i)).state = .active && s.waits x (32 + i)

/-- Rank of a team among those that may return to a core: lower goes first (R98). -/
def State.rank (s : State) (t : Team) : Nat :=
  (if s.blocksSync t then 0 else 2 ^ 65) + (if s.teamCor t then 0 else 2 ^ 64) + t.swappedAt

/-- The team may return only to its former core (R98). -/
def State.homeOnly (s : State) (t : Team) : Bool := 1 < s.clusterSize t || !t.opens.isEmpty

/-- The only team of its context that its former core has (R128). -/
def State.soleTeam (s : State) (t : Team) : Bool :=
  !s.teams.any fun x => x.ctx = t.ctx && x.core = t.core && x.id != t.id && x.state != .ended

/-- The tile-store image of a context at a core: the saved one, or the tile store as it stands where the core is still the context's. -/
def State.imageOf (s : State) (ctx core : Nat) : Option (List Bank × List Sedge × List Collector) :=
  let c := s.core core
  ((c.images.find? (·.1 == ctx)).map Prod.snd).or (if c.owner = some ctx && !c.scrubbing then some c.tiles else none)

/-- The tile store of a core is free for the image that a sole team takes with it: no team of the context stands there, and no other
image waits there to come back (R128; DESIGN CHOICE, log entry 64). -/
def State.tilesFree (s : State) (t : Team) (core : Nat) : Bool :=
  !s.soleTeam t || (!(s.core core).images.any (·.1 == t.ctx)
    && !s.teams.any fun x => x.ctx = t.ctx && x.core = core && (x.state = .resident || x.state = .saving))

/-- A team's image, and the tile-store image of a new core, fit the save area (R119). -/
def State.returnFits (s : State) (t : Team) (core : Nat) : Bool :=
  core = t.core || (s.tilesFree t core
    && (s.updTeam t.id fun x => { x with core := core }).saveUsed t.ctx <= ((s.ctx? t.ctx).map Ctx.savesz).getD 0)

/-- Room for a team on a core, where its own place or a lent reservation is (R99): the base, and the teams that lend.  Its saved
collectors must fit beside those that are held there (DESIGN CHOICE, log entry 79). -/
def State.returnAt (s : State) (t : Team) (core : Nat) : Option (Nat × List Nat) :=
  let held := (s.core core).collectors.countP fun k => k.team != t.id
  if 4 < held + t.savedCols.length || !s.returnFits t core then none
  else s.teamRoom t.launch t.ctx core t.threads t.regs t.scrsz (!s.teamCor t)

/-- A team may use a core for its return (R98): its former core, but during the round that follows a failed attempt, or any core of
the die once that round has passed. -/
def State.mayReturnTo (s : State) (t : Team) (core : Nat) : Bool :=
  if core = t.core then !t.roundFailed || t.anyCore else t.anyCore && !s.homeOnly t && dieOf core = dieOf t.core

/-- Where a team may return now: core, base and lenders. -/
def State.returnCore (s : State) (t : Team) : Option (Nat × Nat × List Nat) :=
  ((t.core :: (((List.range 48).map fun n => coreOf (dieOf t.core) n).filter fun c => c != t.core)).filter
    (s.mayReturnTo t)).findSome? fun c => (s.returnAt t c).map fun b => (c, b)

/-- The tile-store image of a context comes back to its own core with the first team of the context that stands there (R126). -/
def State.restoreImage (s : State) (ctx core team : Nat) : State :=
  match (s.core core).images.find? (·.1 == ctx) with
  | none => s
  | some (_, bs, se, cs) => s.updCore core fun c => { c with
      banks := bs, sedge := se, collectors := cs.filter fun k => k.team != team, images := c.images.filter (·.1 != ctx) }

/-- Tile-store images come back with the first team of the context on a core (R126, R128).  A team that moves takes its image with it
when it is the sole team of its former core; another finds EMPTY banks marked LOST, unless the context has a team there already
(R239, R252). -/
def State.restoreTiles (s : State) (t : Team) (core : Nat) : State :=
  let first := !s.teams.any fun x => x.ctx = t.ctx && x.core = core && x.id != t.id && (x.state = .resident || x.state = .saving)
  if core = t.core then s.restoreImage t.ctx core t.id
  else if !first then s
  else match s.soleTeam t, s.imageOf t.ctx t.core with
    | true, some (bs, se, cs) =>
      let s := s.updCore core fun c => { c with banks := bs, sedge := se, collectors := cs.filter fun k => k.team != t.id }
      s.updCore t.core fun c => { c with images := c.images.filter (·.1 != t.ctx) }
    | _, _ => s.updCore core fun c => { c with banks := c.banks.map fun _ => { Bank.scrubbed with lost := true } }

/-- A thread of a team that comes back: one whose cause was resolved meanwhile replays its record before it issues; one that is parked
stays so until it is released (R98, R101). -/
def State.backThread (s : State) (ctx : Nat) (th : Thread) : Thread :=
  if th.isParked || s.heldUp ctx th then th else { th with recCause := 0 }

/-- The team is resident again at a core and window: state restored, yielded threads go on, PREEMPT_FORCED is posted for a
forced save (R102, R125). -/
def State.restoreTeam (s : State) (t : Team) (core base : Nat) (lent : List Nat) : State :=
  let s := (s.joinNow core).restoreTiles t core
  let s := s.updCore core fun c => { c with
    owner := some t.ctx
    scratch := (c.scratch.clear base t.scrsz).paste base t.savedWin
    collectors := c.collectors.filter (fun k => k.team != t.id) ++ t.savedCols
    sedge := t.savedSedge.foldl (fun l q => l.set q.1 q.2) c.sedge
    twq := c.twq ++ t.savedJobs }
  let back (g : Group) : Group := { g with threads := g.threads.map (s.backThread t.ctx) }
  let s := s.updTeam t.id fun x => { (x.runTimers (s.core core).cyc).startClock (s.core core).cyc with
    state := .resident, core := core, winBase := base, placedAt := s.serial, forced := false, preempted := false
    savedWin := [], savedCols := [], savedSedge := [], savedJobs := [], roundFailed := false, anyCore := false, lent := lent }
  let s := s.updTeam t.id fun x => { x with groups := x.groups.map back }
  let s : State := { s with serial := s.serial + 1 }
  let s := if t.forced then (List.range t.groups.length).foldl (fun s g => s.post t.id g cPREEMPT_FORCED) s else s
  if core = t.core then s else s.flushTasks t.ctx t.core

/-- Room for one saved team after another: each is put back in turn. -/
def State.roomForAll (s : State) : List Team → Bool
  | [] => true
  | x :: xs => match s.returnCore x with
    | some (c, b, lent) => (s.restoreTeam x c b lent).roomForAll xs
    | none => false

/-- A COR launch saved whole returns whole: there is room for all of its teams that are not resident (R127).  A team of it that
is still parked does not hold the others back (DEDUCED, log entry 65). -/
def State.corWhole (s : State) (t : Team) : Bool :=
  let mine := s.teams.filter fun x => x.launch = t.launch && x.state = .swapped
  if s.teamCor t && mine.any Team.preempted then s.roomForAll mine else true

/-- Another swapped team that may return to a core goes before this one (R98). -/
def State.aheadAt (s : State) (t : Team) (core : Nat) : Bool :=
  s.teams.any fun x => x.id != t.id && s.eligible x && s.mayReturnTo x core && s.rank x < s.rank t && (s.returnAt x core).isSome

/-- Readmit a team whose turn it is.  A COR team whose place is lent has every borrower swapped at once (R99); a first attempt
without room starts the round of R98. -/
def State.readmit (s : State) (team : Nat) : State :=
  match s.team? team with
  | none => s
  | some t =>
    if !s.eligible t then s
    else match s.teams.filter fun x => x.lent.contains t.id && x.state = .resident with
      | x :: xs => (x :: xs).foldl (fun s x => s.beginSave x false false) s
      | [] =>
        match s.returnCore t with
        | some (c, b, lent) => if s.aheadAt t c || !s.corWhole t then s else s.restoreTeam t c b lent
        | none =>
          if s.homeOnly t || t.roundFailed || s.isLent t then s
          else s.updTeam team fun x => { x with roundFailed := true, roundFrom := s.cycAt t.core s.now }

/-- The dispatch round after a failed attempt ends: any core of the die will do (R98). -/
def State.readmitRound (s : State) (team : Nat) : State :=
  match s.team? team with
  | none => s
  | some t =>
    if t.state = .swapped && t.roundFailed then (s.updTeam team fun x => { x with anyCore := true }).readmit team else s

/-! ## Reassignment and scrub (R121, R122, R176) -/

/-- A scrub counts as load of its die, and its energy falls to the departing context (R274, R275). -/
def State.chargeScrub (s : State) (core ctx : Nat) : State := s.spend (dieOf core) ctx s.meter.scrub

/-- A fall of the die's load by more than SLEW may show when its step ends: its core is held until then as for a ramp (R273, R275; DEDUCED,
log entry 89). -/
def State.rampAhead (s : State) (core : Nat) : Bool := (s.die (dieOf core)).newSlew < (s.die (dieOf core)).est

/-- The pages of package memory that a context held are cleared (R120). -/
def State.clearPages (s : State) (k : Ctx) : State :=
  { s with mem := k.toClear.foldl (fun (m : Memory) q => m.clear q.1 q.2) s.mem }

/-- A context in SCRUBBING that holds no core and no team is FREE, its pages cleared: its id is unbound (R120, R137).  Its energy count, in
millijoules, is reported to system software (R274). -/
def State.freeDone (s : State) (ctx : Nat) : State :=
  match s.ctx? ctx with
  | none => s
  | some k =>
    if k.state != .scrubbing || s.cores.any (fun c => c.owner = some ctx || c.departing = some ctx) || s.teams.any (fun t => t.ctx = ctx && t.state != .ended) then s
    else { (s.clearPages k).tell "ENERGY" [ctx, k.energy / 1000000] with
      ctxs := s.ctxs.filter fun x => x.id != ctx
      taskqs := s.taskqs.filter fun q => q.ctx != ctx
      cores := s.cores.map fun (c : Core) => { c with
        images := c.images.filter fun i => i.1 != ctx
        preqs := c.preqs.filter fun p => p.ctx != ctx } }

/-- Spill one object with k = 0 (R176): to its mirror, or to the save area when it has room. -/
def State.spillObj (s : State) (ob : Obj) : Option State :=
  let bytes := (s.core ob.holder).scratch.slice ob.base ob.size
  let free (s : State) : State :=
    (s.updCore ob.holder fun c => { c with scratch := c.scratch.clear ob.base ob.size }).updObj ob.ctx ob.name fun o => { o with
      state := .spilled, dirty := [] }
  match ob.mirror with
  | some m =>
    let q := s.firmwareWrite ob.ctx m ((List.range (ob.size / 256)).map (s.objBlock ob))
    if q.2 then some (free q.1) else none
  | none =>
    let cap := ((s.ctx? ob.ctx).map Ctx.savesz).getD 0
    if s.saveUsed ob.ctx + ob.size <= cap then some ((free s).updObj ob.ctx ob.name fun o => { o with backing := bytes })
    else none

/-- Spill every object on a core that no team has open (R121, R176); none when one finds no room. -/
def State.spillAll (s : State) (core : Nat) : Option State :=
  (s.objs.filter fun o => o.placed && o.holder = core && o.k = 0).foldl (fun (acc : Option State) o =>
    acc.bind fun s => s.spillObj o) (some s)

/-- An object is being copied from or to the core, or restored to it. -/
def State.objMoves (s : State) (core : Nat) : Bool :=
  s.objs.any fun o => (o.placed && o.holder = core && o.state != .resident) || (o.state = .moving && o.target = core)

/-- An object of the core without opens finds no room in the save area (R176). -/
def State.spillShort (s : State) (core : Nat) : Bool :=
  let obs := s.objs.filter fun o => o.placed && o.holder = core && o.k = 0 && o.mirror.isNone
  obs.any fun o => ((s.ctx? o.ctx).map Ctx.savesz).getD 0
    < s.saveUsed o.ctx + ((obs.filter fun x => x.ctx = o.ctx).map Obj.size).sum

/-- The scrub of a core begins, once its objects without opens are spilled: the core is then to belong to another context, or to
none.  It waits for copies of objects, for the page of a mirror, and for room in the save area, whose want is reported once. -/
def State.beginScrub (s : State) (core old : Nat) (to_ : Option Nat) : State :=
  if s.objMoves core then s
  else match s.spillAll core with
    | none =>
      if !s.spillShort core || (s.core core).short then s
      else (s.updCore core fun c => { c with short := true }).tell "SAVE_SHORT" [old, core]
    | some s' =>
      let kept := s.objs.any fun o => o.placed && o.holder = core && o.k = 0 && o.mirror.isNone
      ((if kept then s'.writeImages old else s').chargeScrub core old).updCore core fun c => { c with
        scrubbing := true, ramp := c.ramp || s.rampAhead core, short := false, departing := some old, owner := to_ }

/-- A core of a context that has been torn down waits for its scrub (R121, R137). -/
def State.scrubTorn (s : State) (core : Nat) : State :=
  match (s.core core).owner with
  | none => s
  | some old =>
    if (s.core core).scrubbing || !((s.ctx? old).any fun k => k.state = .scrubbing) then s
    else s.beginScrub core old (some old)

/-- A core passes to another context: its objects with k = 0 are spilled, and its scrub begins.  A core of a FROZEN context does
not pass (R130). -/
def State.coreReassign (s : State) (core ctx : Nat) : State :=
  let c := s.core core
  match c.owner with
  | none => s
  | some old =>
    if old = ctx || (s.ctx? ctx).isNone || c.scrubbing || !c.engineIdle || !(s.holding core).isEmpty || s.objMoves core
        || s.frozenHold old then s
    else
      let keeps := s.teams.any fun t => t.ctx = old && t.core = core && t.state != .ended
      let s' := if keeps && !c.images.any (·.1 == old) then (s.saveTiles old core).writeImages old else s
      s'.beginScrub core old (some ctx)

/-- A scrub finishes (R121): the core is as after reset, its lock bits free (R333), but for its place in the package and the regions of
objects that are open.  A context in SCRUBBING becomes FREE with its last core. -/
def State.scrubComplete (s : State) (core : Nat) : State :=
  let c := s.core core
  let gone : Bool := match c.owner.bind s.ctx? with
    | some k => decide (k.state = .scrubbing)
    | none => true
  if !c.scrubbing || (gone && !(s.holding core).isEmpty) then s
  else
    let keep := s.objs.filter fun o => o.placed && o.holder = core
    let scr := keep.foldl (fun (m : Memory) o => m.paste o.base (c.scratch.slice o.base o.size)) []
    let s := s.updCore core fun c => { Core.blank c.id with
      disabled := c.disabled, fenced := c.fenced, owner := if gone then none else c.owner, ramp := c.ramp, cyc := c.cyc
      ns := c.ns, counted := c.counted, scratch := scr, images := c.images }
    let s := match c.owner with
      | some k => s.freeDone k
      | none => s
    match c.departing with
    | some k => s.freeDone k
    | none => s

/-- TEAM_SWAP (R96).  -/
def execTeamSwap (team : Nat) (st : State) : Res :=
  .next (st.teamSwap team)

/-- TEAM_SAVE_COMPLETE (R100).  -/
def execTeamSaveComplete (team : Nat) (st : State) : Res :=
  .next (st.saveComplete team)

/-- TEAM_READMIT (R98).  -/
def execTeamReadmit (team : Nat) (st : State) : Res :=
  .next (st.readmit team)

/-- READMIT_ROUND_EXPIRY (R98).  -/
def execReadmitRoundExpiry (team : Nat) (st : State) : Res :=
  .next (st.readmitRound team)

/-- CORE_REASSIGN (R121).  -/
def execCoreReassign (core : Nat) (ctx : Nat) (st : State) : Res :=
  .next (st.coreReassign core ctx)

/-- SCRUB_COMPLETE (R122).  -/
def execScrubComplete (core : Nat) (st : State) : Res :=
  .next (st.scrubComplete core)

end Sys2Proof.Machine
end

