-- ==== Sys2Proof/Machine/Context.lean ====
section
/-!
DEFINITION. The life of a context (R118 to R137): its descriptor, pre-emption, thaw, checkpoints, restore, replay, assignment
to functions (R138) and teardown.
-/
namespace Sys2Proof.Machine

/-! ## The descriptor (R118, R103) -/

/-- The delivery modes that R102 lists for a cause; none listed for a reserved cause or one without modes. -/
def listedModes (c : Nat) : List Nat :=
  if c = 0x01 then [0, 2, 3]
  else if c = 0x02 then [3]
  else if c = 0x05 || c = 0x06 then [1, 2]
  else if c = 0xA9 then [2]
  else if (3 <= c && c <= 9) || (0x40 <= c && c <= 0x44) || c = 0x46 || c = 0x47 || (0x60 <= c && c <= 0x65)
      || (0x67 <= c && c <= 0x6A) || c = 0x83 || c = 0xA3 || c = 0xA5 || 0xC0 <= c then [1, 2, 3]
  else []

/-- The entry of the mode table for a cause. -/
def modeEntry (b : List Byte) (c : Nat) : Nat := bitsOf (fieldAt b (64 + c / 4) 1) (2 * (c % 4) + 1) (2 * (c % 4))

/-- MODES selects listed modes only; MODES of zero stands for the defaults (DEDUCED, log entry 21). -/
def modesOk (b : List Byte) : Bool :=
  zeroAt b 64 64 || (List.range 256).all fun c => listedModes c = [] || (listedModes c).contains (modeEntry b c)

/-- The mode table that a descriptor gives. -/
def modesOf (b : List Byte) : List Nat :=
  if zeroAt b 64 64 then (List.range 256).map defaultMode else (List.range 256).map (modeEntry b)

/-- A descriptor as a context keeps it: MODES of zero are written out as the defaults that they stand for, so that a later write
of a few of its bytes leaves the other causes as they are (R103). -/
def withModes (b : List Byte) : List Byte :=
  let byte (i : Nat) : Nat := ((List.range 4).map fun j => defaultMode (4 * i + j) * 4 ^ j).sum
  if zeroAt b 64 64 then b.take 64 ++ (List.range 64).map (fun i => BitVec.ofNat 8 (byte i)) ++ b.drop 128 else b

/-- A field with a default: 0 stands for the default. -/
def within (v lo hi : Nat) : Bool := v = 0 || (lo <= v && v <= hi)

/-- The descriptor keeps R118.  That CODEBASE and the capture log lie below 2^56, the end of the virtual addresses, is taken as part of
"out of range" (DEDUCED, log entry 80). -/
def descOk (b : List Byte) : Bool :=
  b.length = 512
    && fieldAt b 0 4 / 256 = 0 && fieldAt b 4 4 / 16 = 0
    && fieldAt b 8 8 % 8192 = 0 && paOk (fieldAt b 8 8)
    && fieldAt b 16 8 % 48 = 0 && fieldAt b 16 8 < 2 ^ 56
    && fieldAt b 24 8 % 65536 = 0 && fieldAt b 32 8 % 65536 = 0 && 65536 <= fieldAt b 32 8
    && fieldAt b 24 8 + fieldAt b 32 8 <= 2 ^ 56
    && within (fieldAt b 40 4) 16 65536 && within (fieldAt b 44 4) 4096 (2 ^ 31)
    && within (fieldAt b 48 4) 1 100 && within (fieldAt b 52 4) 1024 (2 ^ 31) && within (fieldAt b 56 4) 1024 (2 ^ 31)
    && fieldAt b 62 2 = 0 && modesOk b
    && fieldAt b 128 2 / 4096 = 0 && zeroAt b 130 6
    && fieldAt b 152 8 + fieldAt b 160 8 <= 2 ^ 56
    && zeroAt b 168 344

/-- A field, or its default where it is 0. -/
def orDefault (v d : Nat) : Nat := if v = 0 then d else v

/-- The fields of a context from its descriptor; the capture log is the one in use unless CAPTURE is written. -/
def Ctx.withDesc (k : Ctx) (b : List Byte) (capture : Bool) : Ctx :=
  { k with
    desc := withModes b
    capture := capture
    det := fieldAt b 4 4 / 2 % 2 = 1 || k.replay.isSome
    sysok := fieldAt b 4 4 / 4 % 2 = 1
    ckpt := fieldAt b 4 4 / 8 % 2 = 1
    ptroot := fieldAt b 8 8
    codebase := fieldAt b 16 8
    savebase := fieldAt b 24 8
    savesz := fieldAt b 32 8
    agemax := orDefault (fieldAt b 40 4) 256
    convlim := orDefault (fieldAt b 44 4) 1048576
    swapfrac := orDefault (fieldAt b 48 4) 50
    swapcyc := orDefault (fieldAt b 52 4) 65536
    pdefault := orDefault (fieldAt b 56 4) 131072
    ntag := BitVec.ofNat 16 (fieldAt b 60 2)
    modes := modesOf b
    buddy := BitVec.ofNat 12 (fieldAt b 128 2)
    buddyaddr := BitVec.ofNat 64 (fieldAt b 136 8)
    buddysz := BitVec.ofNat 64 (fieldAt b 144 8)
    capbase := fieldAt b 152 8
    capsz := fieldAt b 160 8 }

/-- CAPTURE of a descriptor. -/
def descCapture (b : List Byte) : Bool := fieldAt b 4 4 % 2 = 1

/-- A context as it is bound: READY, no function assigned, no generation. -/
def Ctx.blank (id : Nat) : Ctx where
  id := id
  state := .ready
  before := .ready
  capture := false
  det := false
  sysok := false
  ckpt := false
  ptroot := 0
  codebase := 0
  savebase := 0
  savesz := 0
  agemax := 0
  convlim := 0
  swapfrac := 0
  swapcyc := 0
  pdefault := 0
  ntag := 0
  desc := []
  modes := []
  buddy := 0
  buddyaddr := 0
  buddysz := 0
  capbase := 0
  capsz := 0
  code := []
  hostCode := []
  peerCode := []
  stale := []
  gen := 0
  gens := []
  ckptPending := false
  ckptBase := false
  preemptPending := false
  freezeAfter := none
  capUsed := 0
  log := []
  replay := none
  reads := []
  undef := 0
  vfs := []
  toClear := []
  energy := 0

/-- Bittern binds a context whose descriptor is valid and whose id is FREE; another descriptor is refused as a whole. -/
def State.contextCreate (s : State) (b : List Byte) : State :=
  let id := fieldAt b 0 4
  if s.booted && descOk b && (s.ctx? id).isNone then
    { s with ctxs := s.ctxs ++ [(Ctx.blank id).withDesc b (descCapture b)] }
  else s.tell "CONTEXT_REFUSED" [id]

/-- A configuration write: the limits and MODES in any live state, another field only while READY or SAVED; CTXID never.  A write
that leaves MODES all zero selects PARK for causes that do not list it (R103). -/
def State.configWrite (s : State) (ctx off : Nat) (bytes : List Byte) : State :=
  match s.ctx? ctx with
  | none => s.tell "CONFIG_REFUSED" [ctx, off]
  | some k =>
    let n := off + bytes.length
    let limits := (40 <= off && n <= 60) || (64 <= off && n <= 128)
    let quiet := k.state = .ready || k.state = .saved
    let b := k.desc.take off ++ bytes ++ k.desc.drop n
    if n <= 512 && (limits || quiet) && fieldAt b 0 4 = ctx && !zeroAt b 64 64 && descOk b then
      let flags := off < 8 && 4 < n
      let s := s.updCtx ctx fun k => (k.withDesc b (if flags then descCapture b else k.capture))
      -- DET of the context counts for the launches it has (R165)
      let det := ((s.ctx? ctx).map Ctx.det).getD false
      { s with launches := s.launches.map fun (l : Launch) => if l.ctx = ctx then { l with det := l.recd.det || det } else l }
    else s.tell "CONFIG_REFUSED" [ctx, off]

/-! ## Pre-emption (R120, R123 to R127) -/

/-- Set %PREQ on every core that holds a team of the context. -/
def State.setPreq (s : State) (ctx : Nat) (ckpt : Bool) : State :=
  let cs := ((s.teams.filter fun t => t.ctx = ctx && (t.state = .resident || t.state = .saving || t.state = .killing)).map
    Team.core).eraseDups
  cs.foldl (fun s c => s.updCore c fun k => { k with
    preqs := k.preqs.filter (fun p => p.ctx != ctx) ++ [⟨ctx, true, ckpt, k.cyc⟩] }) s

/-- Clear %PREQ of a context. -/
def State.clearPreq (s : State) (ctx : Nat) : State :=
  { s with cores := s.cores.map fun (c : Core) => { c with preqs := c.preqs.filter fun p => p.ctx != ctx } }

/-- Threads of the context that have yielded go on. -/
def State.goOn (s : State) (ctx : Nat) : State :=
  { s with teams := s.teams.map fun (t : Team) =>
      if t.ctx = ctx && t.state != .swapped then { t with groups := t.groups.map fun (g : Group) =>
        { g with threads := g.threads.map fun (th : Thread) =>
          if th.status = .yielded then { th with status := .ready } else th } } else t }

/-- The state of a context. -/
def State.isIn (s : State) (ctx : Nat) (x : CtxState) : Bool := ((s.ctx? ctx).map fun k => decide (k.state = x)).getD false

/-- A pre-emption request.  While a checkpoint is taken it waits; a frozen context is saved without yield points. -/
def State.preemptRequest (s : State) (ctx : Nat) : State :=
  match (s.ctx? ctx).map Ctx.state with
  | some .running =>
    let s : State := { s with teams := s.teams.map fun (t : Team) =>
      if t.ctx = ctx && t.state = .swapped then { t with preempted := false } else t }
    ((s.updCtx ctx fun k => { k with state := .preempting }).setPreq ctx false).preemptDone ctx
  | some .checkpointing => s.updCtx ctx fun k => { k with preemptPending := true }
  | some .frozen => (s.updCtx ctx fun k => { k with preemptPending := true }).preemptDone ctx
  | _ => s

/-- A save for the pre-emption has begun. -/
def State.saveBegun (s : State) (ctx : Nat) : Bool :=
  s.teams.any fun t => t.ctx = ctx && t.preempted && (t.state = .saving || t.state = .swapped)

/-- A checkpoint request (R120): a context that does not take checkpoints refuses it; during a pre-emption it is held; in CHECKPOINTING it
joins the generation that is being taken (DESIGN CHOICE, log entry 94). -/
def State.checkpointRequest (s : State) (ctx : Nat) (base : Bool) : State :=
  match s.ctx? ctx with
  | none => s
  | some k =>
    let want := s.updCtx ctx fun k => { k with ckptPending := true, ckptBase := k.ckptBase || base }
    if !k.ckpt then s.tell "CHECKPOINT_REFUSED" [ctx]
    else match k.state with
      | .running => ((s.updCtx ctx fun k => { k with state := .checkpointing, ckptBase := base }).setPreq ctx true)
      | .saved => want
      | .ready => want
      | .preempting => want
      | .checkpointing => s.updCtx ctx fun k => { k with ckptBase := k.ckptBase || base }
      | _ => s

/-- The request is withdrawn before any save has begun. -/
def State.preemptWithdraw (s : State) (ctx : Nat) : State :=
  if s.saveBegun ctx then s
  else match (s.ctx? ctx).map Ctx.state with
    | some .preempting =>
      let held := ((s.ctx? ctx).map Ctx.ckptPending).getD false
      let base := ((s.ctx? ctx).map Ctx.ckptBase).getD false
      let s := ((s.updCtx ctx fun k => { k with state := .running, ckptPending := false }).clearPreq ctx).goOn ctx
      if held then s.checkpointRequest ctx base else s
    | some .checkpointing => s.updCtx ctx fun k => { k with preemptPending := false }
    | some .frozen => s.updCtx ctx fun k => { k with preemptPending := false }
    | _ => s

/-- The deadline of a team passes (R125): a team that has not yielded is saved at instruction level, or stops for the
checkpoint. -/
def State.preemptDeadline (s : State) (team : Nat) : State :=
  match s.team? team with
  | none => s
  | some t =>
    match (s.core t.core).preqs.find? fun p => p.ctx = t.ctx && p.req with
    | none => s
    | some p =>
      if t.state != .resident || s.teamYielded t then s
      else
        let s := s.countTo t.core (p.since + s.deadlineOf t)
        match (s.ctx? t.ctx).map Ctx.state with
        | some .preempting => s.beginSave t true true
        | some .checkpointing =>
          (s.dropHeld fun r => r.team = team).updTeam team fun x => { x.leaveRuns [] with forced := true }
        | _ => s

/-- Resume a saved context; its teams come back by R128. -/
def State.contextResume (s : State) (ctx : Nat) : State :=
  if s.isIn ctx .saved then (s.updCtx ctx fun k => { k with state := .running }).clearPreq ctx else s

/-- Thaw (R131): back to the state before.  The teams go on at the first words of their runs, held copies and paused jobs translate
again, and a thread parked on a page whose request has been refused issues its access again. -/
def State.contextThaw (s : State) (ctx : Nat) : State :=
  match s.ctx? ctx with
  | none => s
  | some k =>
    if k.state != .frozen then s
    else
      let s := s.updCtx ctx fun k => { k with state := k.before, freezeAfter := none }
      let s : State := { s with teams := s.teams.map fun (t : Team) =>
        if t.ctx = ctx && t.state = .resident then { t with groups := t.groups.map Group.restart } else t }
      let s := (s.teams.filter fun t => t.ctx = ctx).foldl (fun s t => s.unparkTeam t.id) s
      let s := s.retryEngines ctx none
      let s := if k.before = .running then (s.clearPreq ctx).goOn ctx else s
      let s := s.preemptDone ctx
      if k.preemptPending && s.isIn ctx .running then
        (s.updCtx ctx fun k => { k with preemptPending := false }).preemptRequest ctx
      else s

/-! ## Checkpoints (R132, R133) -/

/-- Every team on a core has yielded or was forced, and its work in flight is done (R132). -/
def State.quiet (s : State) (ctx : Nat) : Bool :=
  s.teams.all fun t => t.ctx != ctx || t.state = .ended || t.state = .swapped
    || (t.state = .resident && (s.teamYielded t || t.forced) && s.drained t && (s.core t.core).engineIdle)

/-- The memory that a leaf's frame lies in, for what is copied of a context: a page on another device is not. -/
def State.frameMem (s : State) (pte : DWord) : Option Memory :=
  if pteKind pte = 0 then some s.mem else if pteKind pte = 2 then some s.hostMem else none

/-- The pages a generation holds, of package memory and of the host's: every page for a base, the DIRTY ones for a delta; DIRTY is
cleared and translations are dropped before each is copied. -/
def State.copyPages (s : State) (k : Ctx) (base : Bool) : State × List (Nat × Nat × Memory) :=
  ((s.leaves k).filter fun q => pteKind q.2.2.1 != 1 && (base || pteDirty q.2.2.1)).foldl (fun acc q =>
    let size := 2 ^ levelShift q.1
    let s := acc.1
    let s : State := { s with mem := s.mem.write q.2.2.2 (s.mem.read q.2.2.2 &&& ~~~0x20#8) }
    let s := s.dropRange k.id q.2.1 size
    (s, acc.2 ++ [(q.2.1, size, ((s.frameMem q.2.2.1).getD []).slice (pteAddr q.2.2.1) size)])) (s, [])

/-- KMAC tags of the 4 KiB blocks of a page of a generation (R133). -/
def pageTags (ctx gen : Nat) (p : Nat × Nat × Memory) : Nat × List (BitVec 256) :=
  (p.1, (List.range (p.2.1 / 4096)).map fun i =>
    Config.kmacTag (leBytes ctx 1 ++ leBytes gen 4 ++ leBytes (4096 * i) 8 ++ p.2.2.readBytes (4096 * i) 4096))

/-- KMAC tags of the 4 KiB blocks of a named object of a generation, the last one filled up with zeros (R133). -/
def objTags (ctx gen : Nat) (q : Obj × Memory) : Nat × List (BitVec 256) :=
  (q.1.name.toNat, (List.range ((q.1.size + 4095) / 4096)).map fun i =>
    Config.kmacTag (leBytes ctx 1 ++ leBytes gen 4 ++ leBytes (4096 * i) 8 ++ q.2.readBytes (4096 * i) 4096))

/-- The context's teams as they are saved at a yield point, with the tile-store image of every core of the context that has a
team, resident or swapped, to come back to it: on a copy of the machine. -/
def State.savedView (s : State) (ctx : Nat) : State :=
  let live := s.teams.filter fun t => t.ctx = ctx && t.state = .resident
  let away := s.teams.filter fun t => t.ctx = ctx && t.state = .swapped && (s.core t.core).owner = some ctx
    && !(s.core t.core).scrubbing && !(s.core t.core).images.any (·.1 == ctx)
  let s := live.foldl (fun s t => s.storeTeam (t.leaveRuns []) true) s
  (((live ++ away).map Team.core).eraseDups).foldl (fun s c => s.saveTiles ctx c) s

/-- A generation from the machine at the moment it is recorded. -/
def State.generation (s : State) (k : Ctx) (base buddy : Bool) (pages : List (Nat × Nat × Memory)) : Generation :=
  let v := s.savedView k.id
  let objs := (s.objs.filter fun o => o.ctx = k.id).map fun o =>
    (o, if o.placed then (s.core o.holder).scratch.slice o.base o.size else o.backing)
  { num := k.gen
    base := base
    buddy := buddy
    teams := (v.teams.filter fun t => t.ctx = k.id).map fun t => { t with preempted := true }
    launches := v.launches.filter fun l => l.ctx = k.id
    clusters := v.clusters.filter fun c => v.launches.any fun l => l.id = c.launch && l.ctx = k.id
    queues := (v.queues.filter fun q => q.ctxid = k.id).map fun q => (q.fn, q.q, q.qrd, q.qdone, q.pkts.filter fun p => p.ctx = k.id)
    pages := pages
    tags := pages.map (pageTags k.id k.gen) ++ objs.map (objTags k.id k.gen)
    restTags := (List.range ((v.saveUsed k.id + 4095) / 4096)).map fun i => Config.stateTag k.id k.gen (4096 * i)
    objs := objs
    tiles := v.cores.filterMap fun c => (c.images.find? fun i => i.1 = k.id).map fun i => (c.id, i.2)
    tasks := s.taskqs.filter fun q => q.ctx = k.id }

/-- A base is due: none before, or fifteen deltas since the last (R132). -/
def Ctx.baseDue (k : Ctx) : Bool :=
  !k.gens.any Generation.base || 15 <= (k.gens.reverse.takeWhile fun g => !g.base).length

/-- CHECKPOINT packets of the context that wait for a generation complete. -/
def State.packetsRecorded (s : State) (ctx status detail : Nat) : State :=
  s.queues.foldl (fun s q =>
    (q.pkts.filter fun p => p.ctx = ctx && p.type = 4 && !p.held && !p.complete).foldl (fun s p =>
      s.completePacket q.fn q.q p.index status detail) s) s

/-- The checkpoint key is released to the monitor: block 1 is what the root of trust recorded at boot (R282; log entry 92). -/
def State.keyReleased (s : State) : Bool := s.measured.headD [] = s.rootBlock

/-- The context after a generation taken in CHECKPOINTING: it runs on, or is saved for a pre-emption that waited. -/
def State.afterRecord (s : State) (k : Ctx) : State :=
  let live := s.teams.filter fun t => t.ctx = k.id && t.state = .resident
  if k.preemptPending then
    let s := s.updCtx k.id fun k => { k with state := .preempting, preemptPending := false }
    let s := live.foldl (fun s t => (s.storeTeam (t.leaveRuns []) true)) s
    (s.writeImages k.id).preemptDone k.id
  else
    let s := s.updCtx k.id fun k => { k with state := .running }
    let s := (live.filter Team.forced).foldl (fun s t =>
      ((List.range t.groups.length).foldl (fun s g => s.post t.id g cPREEMPT_FORCED) s).updTeam t.id fun x => { x with
        forced := false }) s
    ((s.clearPreq k.id).goOn k.id).idleCtx k.id

/-- A generation is recorded (R133), once the teams are quiet and the save area is there. -/
def State.checkpointRecorded (s : State) (ctx : Nat) (buddyOk : Bool) : State :=
  match s.ctx? ctx with
  | none => s
  | some k =>
    let running := k.state = .checkpointing
    let still := (k.state = .ready || k.state = .saved) && k.ckptPending
    if !((running && s.quiet ctx) || still) then s
    else match s.saveAbsent ctx with
      | some (va, l) => s.openRequest ctx va 2 0 l
      | none =>
        if !s.keyReleased then
          let s := (s.packetsRecorded ctx stFAILED 0).updCtx ctx fun k => { k with ckptPending := false, ckptBase := false }
          let s := s.tell "CHECKPOINT_NO_KEY" [ctx, k.gen]
          if running then s.afterRecord k else s
        else
        let base := k.ckptBase || k.baseDue
        let q := s.copyPages k base
        let s := q.1.packetsRecorded ctx stDONE (k.gen % 2 ^ 24)
        let g := s.generation k base buddyOk q.2
        let s := (s.updCtx ctx fun k => { k with
          gens := k.gens ++ [g], gen := (k.gen + 1) % 2 ^ 32, ckptPending := false, ckptBase := false }).writeImages ctx
        let s := if buddyOk then s else s.tell "CHECKPOINT_LOCAL_ONLY" [ctx, k.gen]
        if running then s.afterRecord k else s

/-! ## Restore and replay (R134, R136) -/

/-- Discard the teams, launches, tasks, objects and fetched packets of a context without records. -/
def State.wipeCtx (s : State) (ctx : Nat) : State :=
  let ts := s.teams.filter fun t => t.ctx = ctx
  let s := (ts.filter fun t => t.state != .ended).foldl (fun s t => (s.endTeamQuietly t.id).finishTeam t false) s
  let mine (t : Nat) : Bool := ts.any fun x => x.id = t
  let gone := s.objs.filter fun o => o.ctx = ctx && o.placed
  let s := gone.foldl (fun s o => s.updCore o.holder fun c => { c with scratch := c.scratch.clear o.base o.size }) s
  { s with
    teams := s.teams.filter fun t => t.ctx != ctx
    clusters := s.clusters.filter fun c => !s.launches.any fun l => l.id = c.launch && l.ctx = ctx
    launches := s.launches.filter fun l => l.ctx != ctx
    taskqs := s.taskqs.filter fun q => q.ctx != ctx
    objs := s.objs.filter fun o => o.ctx != ctx
    queues := s.queues.map fun (q : HostQueue) => { q with
      pkts := q.pkts.filter fun p => p.ctx != ctx
      accs := q.accs.filter fun a => a.ctx != ctx }
    cores := s.cores.map fun (c : Core) => { c.dropWork mine with
      collectors := c.collectors.filter fun k => !mine k.team
      images := c.images.filter fun i => i.1 != ctx
      preqs := c.preqs.filter fun p => p.ctx != ctx } }

/-- A restore request. -/
def State.restoreRequest (s : State) (ctx : Nat) : State :=
  match s.ctx? ctx with
  | none => s
  | some k =>
    if k.state = .ready || k.state = .saved || k.state = .frozen || k.state = .failed then
      (s.wipeCtx ctx).updCtx ctx fun k => { k with
        state := .restoring, ckptPending := false, ckptBase := false, preemptPending := false, freezeAfter := none }
    else s

/-- The generations from the last base that p admits, oldest first. -/
def chainFrom (gs : List Generation) : List Generation :=
  gs.foldl (fun acc g => if g.base then [g] else acc ++ [g]) []

/-- Every replica of a context's pages is dropped. -/
def State.dropAllReplicas (s : State) (ctx : Nat) : State :=
  (s.dies.flatMap fun d => (d.replicas.filter fun q => q.1 = ctx).map fun q => q.2.1).eraseDups.foldl (fun s p =>
    s.dropReplicas ctx (p * 65536)) s

/-- Put the pages of a generation back where the page table now maps them. -/
def State.putPages (s : State) (k : Ctx) (g : Generation) : State :=
  g.pages.foldl (fun s p =>
    match (s.walkLevels p.1 4 0 k.ptroot).2 with
    | .leaf _ pte _ =>
      let put (m : Memory) : Memory := (m.clear (pteAddr pte) p.2.1).paste (pteAddr pte) p.2.2
      if pteKind pte = 0 then { s with mem := put s.mem } else if pteKind pte = 2 then { s with hostMem := put s.hostMem } else s
    | _ => s) (s.dropAllReplicas k.id)

/-- Put the objects of a generation back: in their place where it is free.  Elsewhere one that no team has open is SPILLED, its
contents in the save area, and one that is open is LOST, since its teams hold its address (DEDUCED, log entry 22). -/
def State.putObjects (s : State) (g : Generation) : State :=
  g.objs.foldl (fun s q =>
    let o := { q.1 with forLaunch := none }
    if !o.placed then { s with objs := s.objs ++ [{ o with backing := q.2 }] }
    else if s.coreUsable o.holder && regionFree (s.occupied o.holder) o.base o.size then
      let s := s.updCore o.holder fun c => { c with scratch := (c.scratch.clear o.base o.size).paste o.base q.2 }
      { s with objs := s.objs ++ [{ o with state := .resident, target := 0, targetBase := 0 }] }
    else if o.k = 0 then { s with objs := s.objs ++ [{ o with state := .spilled, backing := q.2, target := 0, targetBase := 0, dirty := [] }] }
    else { s with objs := s.objs ++ [{ o with state := .lost, k := 0, doomed := false }] }) s

/-- Apply a chain of generations and bring back the state of the last. -/
def State.applyChain (s : State) (k : Ctx) (chain : List Generation) : State :=
  match chain.getLast? with
  | none => s
  | some g =>
    let s := chain.foldl (fun s g => s.putPages k g) s
    let s := s.dropRange k.id 0 (2 ^ 56)
    let s := s.putObjects g
    let s : State := { s with
      teams := s.teams ++ g.teams
      launches := s.launches ++ g.launches
      clusters := s.clusters ++ g.clusters
      taskqs := s.taskqs ++ g.tasks }
    let s := g.tiles.foldl (fun s t => s.updCore t.1 fun c => { c with images := (k.id, t.2) :: c.images }) s
    g.queues.foldl (fun s q => s.updQueue q.1 q.2.1 fun (x : HostQueue) =>
      if x.ctxid = k.id then { x with qrd := q.2.2.1, qdone := q.2.2.2.1, pkts := q.2.2.2.2 } else x) s

/-- A restore completes (R134): the base and each later delta until one fails in both copies; what the last failed copy showed, an
uncorrectable error or a tag mismatch, is reported. -/
def State.restoreComplete (s : State) (ctx : Nat) (localBad buddyBad : List Nat) (tagBad : Bool) : State :=
  match s.ctx? ctx with
  | none => s
  | some k =>
    if k.state != .restoring then s
    else
      let usable (g : Generation) : Bool := !localBad.contains g.num || (g.buddy && !buddyBad.contains g.num)
      let chain := chainFrom k.gens
      let good := if chain.any Generation.base then chain.takeWhile usable else []
      if good.isEmpty then (s.updCtx ctx fun k => { k with state := .failed }).tell "RESTORE_FAILED"
        (if chain.isEmpty then [ctx] else if tagBad then [ctx, 1] else [ctx, 0, cECC_UNCORR.toNat])
      else
        let drop := chain.length - good.length
        (s.applyChain k good).updCtx ctx fun k => { k with
          state := .saved, gens := k.gens.take (k.gens.length - drop) }

/-- The teams and launches of a generation under another context: their numbers are moved up, so that they are new. -/
def Generation.under (g : Generation) (ctx up : Nat) : Generation :=
  let col (k : Collector) : Collector := { k with team := k.team + up }
  let sed (e : Sedge) : Sedge := { e with owner := e.owner.map (· + up) }
  { g with
    teams := g.teams.map fun (t : Team) => { t with
      id := t.id + up
      launch := t.launch + up
      ctx := ctx
      lent := t.lent.map (· + up)
      savedCols := t.savedCols.map col
      savedSedge := t.savedSedge.map fun q => (q.1, sed q.2)
      savedJobs := t.savedJobs.map fun (j : TwkJob) => { j with team := j.team + up } }
    launches := g.launches.map fun (l : Launch) => { l with id := l.id + up, ctx := ctx, det := true }
    clusters := g.clusters.map fun (c : Cluster) => { c with launch := c.launch + up }
    queues := []
    objs := g.objs.map fun q => ({ q.1 with ctx := ctx }, q.2)
    tiles := g.tiles.map fun q => (q.1, q.2.1, q.2.2.1.map sed, q.2.2.2.map col)
    tasks := g.tasks.map fun (q : TaskQueue) => { q with ctx := ctx, recs := q.recs.map fun r => (r.1 + up, r.2) } }

/-- A replay (R136): a context is created from a descriptor, a generation of another context and a log, and runs with DET forced
on. -/
def State.contextReplay (s : State) (b : List Byte) (src gen : Nat) (log : List LogRec) : State :=
  let id := fieldAt b 0 4
  let gens := ((s.ctx? src).map Ctx.gens).getD []
  let chain := chainFrom (gens.take ((gens.findIdx fun g => g.num = gen) + 1))
  if !s.booted || !descOk b || (s.ctx? id).isSome || !(gens.any fun g => g.num = gen) || !chain.any Generation.base then
    s.tell "REPLAY_REFUSED" [id, src, gen]
  else
    let k := { (Ctx.blank id).withDesc b (descCapture b) with state := .running, det := true, replay := some log }
    let up := s.serial
    let s : State := { s with ctxs := s.ctxs ++ [k], serial := 2 * s.serial }
    s.applyChain k (chain.map fun g => g.under id up)

/-! ## Assignment (R138) and teardown (R137) -/

/-- Assign a context to a virtual function. -/
def State.vfAssign (s : State) (ctx fn : Nat) : State :=
  if 1 <= fn && fn <= 255 then s.updCtx ctx fun k => { k with vfs := k.vfs.filter (· != fn) ++ [fn] }
  else s.tell "ASSIGN_REFUSED" [ctx, fn]

/-- Withdraw it; refused while an enabled queue of the function is bound to the context. -/
def State.vfWithdraw (s : State) (ctx fn : Nat) : State :=
  if s.queues.any fun q => q.fn = fn && q.en && q.ctxid = ctx then s.tell "WITHDRAW_REFUSED" [ctx, fn]
  else s.updCtx ctx fun k => { k with vfs := k.vfs.filter (· != fn) }

/-- Packets of a context that are fetched and not complete end with a status; its queues fetch no more (DEDUCED, log entry 23). -/
def State.abortPackets (s : State) (ctx : Nat) : State :=
  let s := s.queues.foldl (fun s q =>
    (q.pkts.filter fun p => p.ctx = ctx && !p.complete).foldl (fun s p => s.completePacket q.fn q.q p.index stABORTED 0) s) s
  { s with queues := s.queues.map fun (q : HostQueue) =>
      let q := { q with accs := q.accs.filter fun a => a.ctx != ctx }
      if q.ctxid = ctx then { q with en := false, limit := none } else q }

/-- Drop what translates or moves pages of a context. -/
def State.dropPages (s : State) (ctx : Nat) : State :=
  let s := s.dropRange ctx 0 (2 ^ 56)
  let frames := (s.dies.flatMap fun d => (d.replicas.filter fun q => q.1 = ctx).map (·.2.2))
    ++ (s.migrations.filter fun m => m.ctx = ctx).map Migration.dst
  { s with
    frames := s.frames ++ frames
    migrations := s.migrations.filter fun m => m.ctx != ctx
    pageReqs := s.pageReqs.filter fun q => q.ctx != ctx
    dies := s.dies.map fun (d : Die) => { d with
      replicas := d.replicas.filter fun q => q.1 != ctx
      bgWalks := d.bgWalks.filter fun q => q.1 != ctx
      counts := d.counts.filter fun q => q.1 != ctx } }

/-- What the walkers of a context still have to move is given up: its pages are unmapped.  Copies end as refused. -/
def State.endWalks (s : State) (ctx : Nat) : State :=
  s.cores.foldl (fun s c =>
    let s := ((List.range c.copies.length).reverse).foldl (fun s i =>
      if (c.copies[i]?).any fun k => s.ctxOf? k.ref = some ctx then s.finishCopy c.id i [] true else s) s
    ((List.range c.twq.length).reverse).foldl (fun s i =>
      if (c.twq[i]?).any fun j => s.ctxOf? ⟨j.team, j.tid⟩ = some ctx then s.twkFail c.id i else s) s) s

/-- The pages of a context are unmapped: their entries are no longer valid.  Those of package memory are kept in mind to be cleared
(R120, R137). -/
def State.unmapPages (s : State) (ctx : Nat) : State :=
  match s.ctx? ctx with
  | none => s
  | some k =>
    let ls := s.leaves k
    let frames := ls.filterMap fun q => if pteKind q.2.2.1 = 0 then some (pteAddr q.2.2.1, 2 ^ levelShift q.1) else none
    ({ s with mem := ls.foldl (fun (m : Memory) q => m.clear q.2.2.2 8) s.mem } : State).updCtx ctx fun k => { k with toClear := frames }

/-- The steps of a teardown; the cores the context owns are then to be scrubbed (R121). -/
def State.tearDown (s : State) (ctx : Nat) : State :=
  let s := s.updCtx ctx fun k => { k with
    state := .teardown, ckptPending := false, ckptBase := false, preemptPending := false, capture := false }
  let s := s.abortLaunches (fun l => l.ctx = ctx) stABORTED
  let s := s.endWalks ctx
  let s := (s.teams.filter fun t => t.ctx = ctx && t.state = .killing).foldl (fun s t => s.killDrained t.id) s
  let s := s.abortPackets ctx
  let gone := s.objs.filter fun o => o.ctx = ctx && o.placed
  let s := gone.foldl (fun s o => s.updCore o.holder fun c => { c with scratch := c.scratch.clear o.base o.size }) s
  let s : State := { s with objs := s.objs.filter fun o => o.ctx != ctx, debuggers := s.debuggers.filter (· != ctx) }
  let s := (s.unmapPages ctx).dropPages ctx
  let cs := (s.cores.filter fun c => c.owner = some ctx).map Core.id
  let s := s.updCtx ctx fun k => { k with state := .scrubbing }
  (cs.foldl (fun s c => s.scrubTorn c) s).freeDone ctx

/-- A teardown, which an update holds until fetching resumes (R285). -/
def State.contextTeardown (s : State) (ctx : Nat) : State :=
  match s.ctx? ctx with
  | none => s
  | some k =>
    if k.state = .scrubbing || k.state = .teardown then s
    else if s.updating then { s with heldTeardowns := s.heldTeardowns ++ [ctx] }
    else s.tearDown ctx

/-- CONTEXT_CREATE (R118).  -/
def execContextCreate (desc : List (BitVec 8)) (st : State) : Res :=
  .next (st.contextCreate desc)

/-- CONTEXT_CONFIG_WRITE (R118).  -/
def execContextConfigWrite (ctx : Nat) (off : Nat) (bytes : List (BitVec 8)) (st : State) : Res :=
  .next (st.configWrite ctx off bytes)

/-- PREEMPT_REQUEST (R120).  -/
def execPreemptRequest (ctx : Nat) (st : State) : Res :=
  .next (st.preemptRequest ctx)

/-- PREEMPT_WITHDRAW (R120).  -/
def execPreemptWithdraw (ctx : Nat) (st : State) : Res :=
  .next (st.preemptWithdraw ctx)

/-- PREEMPT_DEADLINE (R125).  -/
def execPreemptDeadline (team : Nat) (st : State) : Res :=
  .next (st.preemptDeadline team)

/-- CONTEXT_RESUME (R128).  -/
def execContextResume (ctx : Nat) (st : State) : Res :=
  .next (st.contextResume ctx)

/-- CHECKPOINT_REQUEST (R120).  -/
def execCheckpointRequest (ctx : Nat) (base : Bool) (st : State) : Res :=
  .next (st.checkpointRequest ctx base)

/-- CHECKPOINT_RECORDED (R133).  -/
def execCheckpointRecorded (ctx : Nat) (buddyOk : Bool) (st : State) : Res :=
  .next (st.checkpointRecorded ctx buddyOk)

/-- CONTEXT_THAW (R131).  -/
def execContextThaw (ctx : Nat) (st : State) : Res :=
  .next (st.contextThaw ctx)

/-- RESTORE_REQUEST (R134).  -/
def execRestoreRequest (ctx : Nat) (st : State) : Res :=
  .next (st.restoreRequest ctx)

/-- RESTORE_COMPLETE (R134).  -/
def execRestoreComplete (ctx : Nat) (bad : List Nat × List Nat) (tagBad : Bool) (st : State) : Res :=
  .next (st.restoreComplete ctx bad.1 bad.2 tagBad)

/-- CONTEXT_REPLAY (R136).  -/
def execContextReplay (desc : List (BitVec 8)) (src : Nat × Nat) (log : List LogRec) (st : State) : Res :=
  .next (st.contextReplay desc src.1 src.2 log)

/-- CONTEXT_TEARDOWN (R137).  -/
def execContextTeardown (ctx : Nat) (st : State) : Res :=
  .next (st.contextTeardown ctx)

/-- VF_ASSIGN (R138).  -/
def execVfAssign (ctx : Nat) (fn : Nat) (st : State) : Res :=
  .next (st.vfAssign ctx fn)

/-- VF_WITHDRAW (R138).  -/
def execVfWithdraw (ctx : Nat) (fn : Nat) (st : State) : Res :=
  .next (st.vfWithdraw ctx fn)

end Sys2Proof.Machine
end

