-- ==== Sys2Proof/Machine/Queue.lean ====
section
/-!
DEFINITION. Host queues: their registers (R138 to R140), packets from fetch to completion (R141 to R144), function-level
reset (R146), thaw (R147), the tenant table (R152), and the registers without a behaviour of their own.
-/
namespace Sys2Proof.Machine

/-! ## Queue registers (R139, R140) -/

/-- A status bit at its place in a register word. -/
def bitWord (b : Bool) (n : Nat) : Word := if b then 1 <<< n else 0

/-- Act on queue q of a function, where there is one: 256 functions of 16 queues (R138). -/
def State.onQueue (s : State) (fn q : Nat) (f : State → State) : State := if s.booted && fn < 256 && q < 16 then f s else s

/-- A queue's registers allow EN to be set (R138, R139). -/
def State.enableOk (s : State) (qu : HostQueue) : Bool :=
  4 <= qu.log2n && qu.log2n <= 16 && qu.qbase.toNat % (64 * 2 ^ qu.log2n) = 0 && qu.evbase.toNat % 64 = 0
    && match s.ctx? qu.ctxid with
      | none => false
      | some k => (qu.fn = 0 || k.vfs.contains qu.fn)
          && (k.state = .ready || k.state = .running || k.state = .preempting || k.state = .checkpointing || k.state = .saved)

/-- Pass over the halting packet (R141, R144): SKIPPED and complete.  A limit that had withdrawn the packet stays behind QRD's new
value no more than it was (R140). -/
def State.skipHalted (s : State) (fn q : Nat) : State :=
  let qu := s.queue fn q
  let s := s.updQueue fn q fun k => { k with
    halted := false
    qrd := k.qrd + 1
    limit := if k.limit = some k.qrd then some (k.qrd + 1) else k.limit
    pkts := k.pkts ++ [⟨k.haltAt.1, k.qrd, k.haltAt.2, 0, [], false, false, 0⟩] }
  s.completePacket fn q qu.qrd stSKIPPED 0

/-- A queue with the fields of a QCTL write that change only while EN is 0 (R139). -/
def HostQueue.withCtl (k : HostQueue) (v : Word) : HostQueue :=
  { k with log2n := (v.extractLsb' 16 5).toNat, ctxid := (v.extractLsb' 8 8).toNat, inbound := v.getLsbD 7 }

/-- A write of QCTL.  Fields other than EN, RESUME and SKIP change only while EN is 0; a write that may not set EN is ignored but
for NOTERR (R138, R139; log entry 36). -/
def State.qctlWrite (s : State) (fn q : Nat) (v : Word) : State :=
  let old := s.queue fn q
  let skip := v.getLsbD 6
  let resume := v.getLsbD 5
  let en := v.getLsbD 4
  if (skip && resume) || (en && !old.en && !s.enableOk (old.withCtl v)) then s.updQueue fn q fun k => { k with noterr := true }
  else
    let s := if old.en then s else s.updQueue fn q fun k => k.withCtl v
    let s :=
      if en then (if old.en then s else s.updQueue fn q fun k => { k with en := true, limit := none })
      else s.updQueue fn q fun k => { k with en := false, limit := none }
    if !old.halted then s
    else if skip then s.skipHalted fn q
    else if resume then s.updQueue fn q fun k => { k with halted := false }
    else s

/-- A write of N to QNOTIFY (R140). -/
def State.notify (s : State) (fn q : Nat) (n : Word) : State :=
  s.updQueue fn q fun k =>
    if k.en && !k.inbound && (n - k.qrd).toNat <= 2 ^ k.log2n && (n - k.qdone).toNat <= 2 ^ k.log2n then
      { k with limit := some n }
    else { k with noterr := true }

/-- QSTAT as software reads it (R139). -/
def HostQueue.qstat (qu : HostQueue) : Word :=
  bitWord (qu.halted || qu.pkts.any fun p => !p.complete) 0 ||| bitWord qu.halted 1 ||| bitWord qu.frozen 2
    ||| bitWord qu.noterr 3 ||| bitWord qu.evlost 4

/-- QCTL as software reads it: its write-only fields read 0 (R139). -/
def HostQueue.qctl (qu : HostQueue) : Word :=
  bitWord qu.en 4 ||| bitWord qu.inbound 7 ||| (BitVec.ofNat 32 qu.ctxid <<< 8) ||| (BitVec.ofNat 32 qu.log2n <<< 16)

/-- What a read of a queue's register block returns: QBASE and QEVBASE are 64 bits wide; QNOTIFY and offsets not listed read 0
(R139). -/
def HostQueue.readReg (qu : HostQueue) (off : Nat) : DWord :=
  match off with
  | 0x00 => qu.qbase
  | 0x08 => qu.qctl.setWidth 64
  | 0x10 => qu.qrd.setWidth 64
  | 0x14 => qu.qdone.setWidth 64
  | 0x18 => qu.qstat.setWidth 64
  | 0x20 => qu.evbase
  | 0x28 => qu.evwr.setWidth 64
  | 0x2C => qu.evrd.setWidth 64
  | _ => 0

/-- Frames in the Sluice pool: the free ones, those that hold replicas, and the targets of copies in progress (R226). -/
def State.poolFrames (s : State) : Nat := s.frames.length + (s.dies.map fun d => d.replicas.length).sum + s.migrations.length

/-- What a read at an offset of a function's BAR0 returns: its queues, and for the physical function the page-request ring (R220)
and the Sluice pool (R226).  Write-only registers and offsets that no table lists read 0. -/
def State.barRead (s : State) (fn off : Nat) : DWord :=
  if 0x1000 <= off && off < 0x2000 then (s.queue fn ((off - 0x1000) / 256)).readReg (off % 256)
  else if fn != 0 then 0
  else match off with
    | 0x0800 => s.prqbase
    | 0x0808 => s.prqwr.setWidth 64
    | 0x080C => s.prqrd.setWidth 64
    | 0x0820 => BitVec.ofNat 64 s.poolFrames
    | 0x0824 => if s.frameErr then 1 else 0
    | _ => 0

/-! ## Packets (R141 to R144) -/

/-- The fields of a packet keep their ranges and alignments, and the address of a SIGNAL or WAITVAL is one that can translate
(R141, R142, R144). -/
def packetOk (b : List Byte) : Bool :=
  let t := fieldAt b 0 1
  fieldAt b 0 4 / 512 = 0
    && (if t = 0 then zeroAt b 8 56
      else if t = 1 then fieldAt b 8 8 % 256 = 0
      else if t = 2 then fieldAt b 8 8 % 8 = 0 && fieldAt b 8 8 < 2 ^ 56 && 3 <= fieldAt b 24 4 % 8 && fieldAt b 24 4 % 8 <= 5
        && fieldAt b 24 4 / 16 = 0 && zeroAt b 28 36
      else if t = 3 then fieldAt b 8 8 % 8 = 0 && fieldAt b 8 8 < 2 ^ 56 && fieldAt b 24 4 / 4 = 0 && zeroAt b 32 32
      else if t = 4 then fieldAt b 8 4 / 2 = 0 && zeroAt b 12 52
      else false)

/-- BARRIER of a packet. -/
def packetBarrier (b : List Byte) : Bool := fieldAt b 1 1 % 2 = 1

/-- The queues of a context fetch, and dispatch what they hold (R120, R130, R143). -/
def State.fetching (s : State) (ctx : Nat) : Bool :=
  match s.ctx? ctx with
  | none => false
  | some k => k.state = .ready || k.state = .running || k.state = .preempting || k.state = .checkpointing

/-- A packet of the queue holds later ones back: held, or a WAITVAL not complete (R142, R143). -/
def HostQueue.blocked (qu : HostQueue) : Bool := qu.pkts.any fun p => !p.complete && (p.held || p.type = 3)

/-- The queue may fetch its next packet; an update has stopped fetching (R284). -/
def State.mayFetch (s : State) (qu : HostQueue) : Bool :=
  qu.en && !qu.frozen && !qu.halted && !qu.blocked && !s.updating && s.fetching qu.ctxid
    && match qu.limit with
      | some n => n != qu.qrd
      | none => false

/-- The precise trap of R144: MALFORMED is written, the queue halts with QRD at the packet, the owner is signalled. -/
def State.malformed (s : State) (fn q : Nat) : State :=
  let qu := s.queue fn q
  let s := s.putStatus qu.ctxid (qu.slotVa qu.qrd) stMALFORMED 0
  (s.updQueue fn q fun k => { k with halted := true, haltAt := (qu.ctxid, qu.slotVa qu.qrd) }).tell "MALFORMED_PACKET" [qu.slotVa qu.qrd, fn, q]

/-- Dispatch a validated LAUNCH: its 64 bytes and its record's 256 follow each other. -/
def State.dispatchLaunch (s : State) (qu : HostQueue) (p : Packet) : State :=
  s.startLaunch qu p.index (LaunchRec.of (p.body.drop 64)) (BitVec.ofNat 64 (fieldAt p.body 16 8))
    (wordsOf ((p.body.drop 24).take 32) 8) (BitVec.ofNat 64 (fieldAt p.body 56 8))

/-- Under replay the log decides over a fetched packet (R136): it is the next of the log, the log has others first, or it does not
match. -/
inductive LogTurn where
  | go (rest : Option (List LogRec))
  | later
  | diverged
deriving DecidableEq, Repr

/-- A logged packet of a queue number. -/
def packetOf (x : LogRec) (q : Nat) : Bool := x.kind = 0 && x.nums[1]? = some q

/-- Compare a packet that a queue has read with the log of its context: packets and frames are supplied in log order, and the
contents must be those of the log (R136). -/
def State.logTurn (s : State) (qu : HostQueue) (body : List Byte) : LogTurn :=
  match (s.ctx? qu.ctxid).bind Ctx.replay with
  | none => .go none
  | some log =>
    if !log.any fun x => packetOf x qu.q then .diverged
    else match log.find? fun x => x.kind != 2 with
      | none => .diverged
      | some x =>
        if !packetOf x qu.q then .later
        else if x.bytes = body then .go (some (log.erase x))
        else .diverged

/-- Take a fetched and valid packet: QRD passes it, and it is dispatched or held. -/
def State.takePacket (s : State) (qu : HostQueue) (body : List Byte) : State :=
  let t := fieldAt body 0 1
  let hold := packetBarrier body || t = 2 || t = 4
  let p : Packet := ⟨qu.ctxid, qu.qrd, qu.slotVa qu.qrd, t, body, hold, false, s.now⟩
  let s := s.updQueue qu.fn qu.q fun k => { k with qrd := k.qrd + 1, pkts := k.pkts ++ [p] }
  if hold then s
  else if t = 0 then s.completePacket qu.fn qu.q p.index stDONE 0
  else if t = 1 then s.dispatchLaunch qu p
  else s

/-- What becomes of a packet whose 64 bytes have been read, its launch record having been read too where it names one: it is taken,
or malformed.  Either way it has been fetched, and is captured (R135) and struck from a replay's log. -/
def State.packetFetched (s : State) (qu : HostQueue) (rest : Option (List LogRec)) (b : List Byte) (recd : Option (List Byte)) : State :=
  let s := match rest with
    | some log => s.updCtx qu.ctxid fun k => { k with replay := some log }
    | none => s
  let s := s.capture qu.ctxid ⟨0, [qu.fn, qu.q, qu.qrd.toNat], b⟩
  match recd with
  | some r => s.takePacket (s.queue qu.fn qu.q) (b ++ r)
  | none => s.malformed qu.fn qu.q

/-- Fetch the next packet, when its TYPE is one that p names; another is left for its own step. -/
def State.fetch (s : State) (fn q : Nat) (p : Nat → Bool) : State :=
  let qu := s.queue fn q
  if !s.mayFetch qu then s
  else match s.queueAccess qu qu.qrd (qu.slotVa qu.qrd) (.read 64) with
    | (s', .wait) => s'
    | (s', .fail) => s'.malformed fn q
    | (s', .ok b) =>
      if !p (fieldAt b 0 1) then s
      else match s'.logTurn qu b with
        | .later => s
        | .diverged => (s'.diverge qu.ctxid [0, fn, q]).tell "DIVERGED" [qu.ctxid]
        | .go rest =>
          if !packetOk b then s'.packetFetched qu rest b none
          else if fieldAt b 0 1 != 1 then s'.packetFetched qu rest b (some [])
          else match s'.queueAccess (s'.queue fn q) qu.qrd (fieldAt b 8 8) (.read 256) with
            | (s', .wait) => s'
            | (s', .fail) => s'.packetFetched qu rest b none
            | (s', .ok r) =>
              let sysok := ((s'.ctx? qu.ctxid).map Ctx.sysok).getD false
              s'.packetFetched qu rest b (if recordOk r sysok then some r else none)

/-- Mark a packet dispatched. -/
def State.unhold (s : State) (fn q : Nat) (i : Word) : State :=
  let t := s.now
  s.updQueue fn q fun k => { k with pkts := k.pkts.map fun (x : Packet) => if x.index = i then { x with held := false, since := t } else x }

/-- The SIGNAL store, with its release (R142). -/
def State.signalStore (s : State) (qu : HostQueue) (p : Packet) : State :=
  let v := fieldAt p.body 16 8
  let op : QOp := if fieldAt p.body 24 4 / 8 % 2 = 1 then .add v else .write (leBytes v 8)
  match s.queueAccess qu p.index (fieldAt p.body 8 8) op with
  | (s, .ok _) => s.completePacket qu.fn qu.q p.index stDONE 0
  | (s, .fail) => s.completePacket qu.fn qu.q p.index stFAULTED 0
  | (s, .wait) => s

/-- A CHECKPOINT asks for a generation; a context without checkpoints completes it NOCKPT (R141). -/
def State.checkpointPacket (s : State) (qu : HostQueue) (p : Packet) : State :=
  match s.ctx? qu.ctxid with
  | none => s
  | some k =>
    let base := fieldAt p.body 8 4 % 2 = 1
    if !k.ckpt then s.completePacket qu.fn qu.q p.index stNOCKPT 0
    else if k.ckptPending || (!p.held && k.state = .checkpointing) then
      s.updCtx k.id fun k => { k with ckptBase := k.ckptBase || base }
    else s.checkpointRequest qu.ctxid base

/-- Once every earlier packet is complete, dispatch the packet that is held; a SIGNAL whose store had to wait is tried again,
and so is a CHECKPOINT whose request a freeze discarded (R142, R143, R395).  Frozen queues only stop fetching (R147); what a context
has not dispatched stays queued while it fetches nothing (R130). -/
def State.dispatchHeld (s : State) (fn q : Nat) : State :=
  let qu := s.queue fn q
  match qu.pkts.find? fun p => p.index = qu.qdone && !p.complete with
  | none => s
  | some p =>
    let mine (s : State) : HostQueue := s.queueFor fn q p.ctx
    if p.held && !s.fetching p.ctx then s
    else if p.type = 2 then (s.unhold fn q p.index).signalStore (mine (s.unhold fn q p.index)) p
    else if p.type = 4 then (s.checkpointPacket (mine s) p).unhold fn q p.index
    else if !p.held then s
    else
      let s := s.unhold fn q p.index
      if p.type = 0 then s.completePacket fn q p.index stDONE 0
      else if p.type = 1 then s.dispatchLaunch (mine s) p
      else s

/-- The WAITVAL that the queue waits at. -/
def HostQueue.waitval? (qu : HostQueue) : Option Packet := qu.pkts.find? fun p => p.type = 3 && !p.held && !p.complete

/-- COND of a WAITVAL (R142). -/
def condHolds (cond x v : Nat) : Bool :=
  if cond = 0 then x = v else if cond = 1 then x != v else if cond = 2 then v <= x else x < v

/-- A poll of the watched word. -/
def State.waitvalMet (s : State) (fn q : Nat) : State :=
  let qu := s.queue fn q
  match qu.waitval? with
  | none => s
  | some p =>
    match s.queueAccess (s.queueFor fn q p.ctx) p.index (fieldAt p.body 8 8) (.read 8) with
    | (s', .ok d) =>
      if condHolds (fieldAt p.body 24 4) (leNat d) (fieldAt p.body 16 8) then s'.completePacket fn q p.index stDONE 0 else s'
    | (s', .fail) => s'.completePacket fn q p.index stFAULTED 0
    | (s', .wait) => s'

/-- The TIMEOUT of a WAITVAL passes; 0 is none. -/
def State.waitvalTimeout (s : State) (fn q : Nat) : State :=
  match (s.queue fn q).waitval? with
  | none => s
  | some p => if fieldAt p.body 28 4 = 0 then s else s.completePacket fn q p.index stTIMEOUT 0

/-! ## Reset and thaw of a function (R146, R147) -/

/-- The reset of a function at its instant. -/
def State.resetNow (s : State) (fn : Nat) : State :=
  let s := s.abortLaunches (fun l => l.fn = fn) stABORTED
  let s := (s.queues.filter fun q => q.fn = fn).foldl (fun s q =>
    let s := (q.pkts.filter fun p => !p.complete).foldl (fun s p => s.completePacket fn q.q p.index stABORTED 0) s
    if q.halted then s.putStatus q.haltAt.1 q.haltAt.2 stABORTED 0 else s) s
  { s with
    queues := s.queues.filter fun q => q.fn != fn
    killRecs := s.killRecs.filter fun k => k.1 != fn }

/-- A function-level reset, which an update holds until fetching resumes (R285). -/
def State.functionReset (s : State) (fn : Nat) : State :=
  if !s.booted || 256 <= fn then s
  else if s.updating then { s with heldResets := s.heldResets ++ [fn] }
  else s.resetNow fn

/-- Firmware thaws a function's queues; accesses held for the thaw are made again. -/
def State.queueThaw (s : State) (fn : Nat) : State :=
  { s with queues := s.queues.map fun (q : HostQueue) =>
      if q.fn = fn then { q with frozen := false, accs := q.accs.filter fun a => !a.hold } else q }

/-! ## The tenant table (R152) -/

/-- Write an entry; entries stand in ascending index. -/
def State.tenantWrite (s : State) (t : Tenant) : State :=
  if s.booted && t.ix < 256 then
    { s with tenants := (s.tenants.filter fun x => x.ix < t.ix) ++ [t] ++ s.tenants.filter fun x => t.ix < x.ix }
  else s

/-! ## Registers (R139, R220, R221, R225, R226, R262, R283) -/

/-- A write of RESOLVE (R220, R221). -/
def State.resolveWrite (s : State) (v : Nat) : State :=
  let ctx := bitsOf v 15 8
  let page := bitsOf v 55 16
  if bitsOf v 7 2 != 0 || v / 2 ^ 56 != 0 then s
  else match v % 4 with
    | 0 => s.resolve ctx page fun s => s.pageResolved ctx page
    | 1 => s.resolve ctx page fun s => s.pageRefused ctx page
    | 2 => s.resolve ctx page fun s => s.pageFrozen ctx page
    | _ => s

/-- A write at an offset of a function's BAR0; an offset that no table lists is ignored. -/
def State.barWrite (s : State) (fn off : Nat) (v : BitVec 64) : State :=
  let w := v.extractLsb' 0 32
  if 0x1000 <= off && off < 0x2000 then
    let q := (off - 0x1000) / 256
    match off % 256 with
    | 0x00 => s.updQueue fn q fun k => if k.en then k else { k with qbase := v }
    | 0x08 => s.qctlWrite fn q w
    | 0x0C => s.notify fn q w
    | 0x18 => s.updQueue fn q fun k => { k with evlost := k.evlost && !v.getLsbD 4, noterr := k.noterr && !v.getLsbD 3 }
    | 0x20 => s.updQueue fn q fun k => if k.en then k else { k with evbase := v }
    | 0x2C => s.updQueue fn q fun k => { k with evrd := w }
    | _ => s
  else if fn != 0 then s
  else match off with
    | 0x0800 => { s with prqbase := v &&& ~~~0x1FFF#64 }
    | 0x080C => { s with prqrd := w }
    | 0x0810 => s.resolveWrite v.toNat
    | 0x0818 => s.frameop (if v.toNat % 4 = 0 then 0 else 1) v.toNat
    | 0x0824 => { s with frameErr := s.frameErr && !v.getLsbD 0 }
    | _ => s

/-- A Sluice parameter that firmware sets (R225): 0 EPOCH, 1 THRESH, 2 QMAX, 3 WATERMARK, 4 MAXREPL. -/
def State.sluiceWrite (s : State) (n v : Nat) : State :=
  match n with
  | 0 => { s with sluiceEpoch := v }
  | 1 => { s with sluiceThresh := v }
  | 2 => { s with sluiceQmax := v }
  | 3 => { s with sluiceWater := v }
  | 4 => { s with sluiceMaxrepl := v }
  | _ => s

/-- A route-table entry (R262): the port mask of a destination. -/
def State.routeWrite (s : State) (dst : Nat) (mask : BitVec 16) : State :=
  if dst < 4096 then { s with routes := (dst, mask) :: s.routes.filter fun r => r.1 != dst } else s

/-- A wake-filter entry (R283): an offset into the first 64 bytes, a mask and a value.  An entry never written matches no
frame. -/
def State.filterWrite (s : State) (ix off : Nat) (v : BitVec 64) : State :=
  if ix < 16 && off + 4 <= 64 then
    let l := s.wakeFilter ++ List.replicate (16 - s.wakeFilter.length) (0, 0, 1)
    { s with wakeFilter := l.set ix (off, v.extractLsb' 32 32, v.extractLsb' 0 32) }
  else s

/-- A 64-byte block of package DRAM is lost to an uncorrectable error, or good again once it has been cleared (R102). -/
def State.eccWrite (s : State) (block : Nat) (bad : Bool) : State :=
  { s with ecc := (if bad then [block] else []) ++ s.ecc.filter (· != block) }

/-- How much energy a word, an engine word, an access and a scrub take, in nanojoules: the manual does not give it (R274). -/
def State.meterWrite (s : State) (n v : Nat) : State :=
  match n with
  | 0 => { s with meter := { s.meter with word := v } }
  | 1 => { s with meter := { s.meter with engine := v } }
  | 2 => { s with meter := { s.meter with access := v } }
  | 3 => { s with meter := { s.meter with scrub := v } }
  | _ => s

/-- A register write: space 0 is BAR0 of a function; 1 the route table, 2 the Sluice parameters, 3 the wake filter, 4 the
gating of the control cores, which firmware writes (DESIGN CHOICE, log entry 24).  Spaces 5 and 6 are no registers: they are
how the model is told that memory has failed (log entry 81) and what work takes in energy (log entry 20). -/
def State.registerWrite (s : State) (space fn off : Nat) (v : BitVec 64) : State :=
  if !s.booted then s
  else match space with
    | 0 => if fn < 256 then s.barWrite fn off v else s
    | 1 => s.routeWrite off (v.extractLsb' 0 16)
    | 2 => s.sluiceWrite off v.toNat
    | 3 => s.filterWrite fn off v
    | 4 => { s with gated := v.getLsbD 0 }
    | 5 => s.eccWrite off (v.getLsbD 0)
    | 6 => s.meterWrite off v.toNat
    | _ => s

/-- REGISTER_WRITE (R139).  -/
def execRegisterWrite (space : Nat) (fn : Nat) (off : Nat) (value : BitVec 64) (st : State) : Res :=
  .next (st.registerWrite space fn off value)

/-- QNOTIFY (R140).  -/
def execQnotify (fn : Nat) (q : Nat) (n : BitVec 32) (st : State) : Res :=
  .next (st.onQueue fn q fun st => st.notify fn q n)

/-- QCTL_ENABLE (R139).  -/
def execQctlEnable (fn : Nat) (q : Nat) (v : BitVec 32) (st : State) : Res :=
  .next (st.onQueue fn q fun st => st.qctlWrite fn q v)

/-- QCTL_DISABLE (R143).  -/
def execQctlDisable (fn : Nat) (q : Nat) (v : BitVec 32) (st : State) : Res :=
  .next (st.onQueue fn q fun st => st.qctlWrite fn q v)

/-- QCTL_RESUME (R139).  -/
def execQctlResume (fn : Nat) (q : Nat) (v : BitVec 32) (st : State) : Res :=
  .next (st.onQueue fn q fun st => st.qctlWrite fn q v)

/-- QCTL_SKIP (R139).  -/
def execQctlSkip (fn : Nat) (q : Nat) (v : BitVec 32) (st : State) : Res :=
  .next (st.onQueue fn q fun st => st.qctlWrite fn q v)

/-- PACKET_NOP (R142).  -/
def execPacketNop (fn : Nat) (q : Nat) (st : State) : Res :=
  .next (st.onQueue fn q fun st => st.fetch fn q (· = 0))

/-- PACKET_LAUNCH (R142).  -/
def execPacketLaunch (fn : Nat) (q : Nat) (st : State) : Res :=
  .next (st.onQueue fn q fun st => st.fetch fn q (· = 1))

/-- PACKET_SIGNAL (R142).  -/
def execPacketSignal (fn : Nat) (q : Nat) (st : State) : Res :=
  .next (st.onQueue fn q fun st => st.fetch fn q (· = 2))

/-- PACKET_WAITVAL (R142).  -/
def execPacketWaitval (fn : Nat) (q : Nat) (st : State) : Res :=
  .next (st.onQueue fn q fun st => st.fetch fn q (· = 3))

/-- PACKET_CHECKPOINT (R142).  -/
def execPacketCheckpoint (fn : Nat) (q : Nat) (st : State) : Res :=
  .next (st.onQueue fn q fun st => st.fetch fn q (· = 4))

/-- RESERVED_TYPE_PACKET (R144).  -/
def execReservedTypePacket (fn : Nat) (q : Nat) (st : State) : Res :=
  .next (st.onQueue fn q fun st => st.fetch fn q (5 <= ·))

/-- HELD_PACKET_DISPATCH (R143).  -/
def execHeldPacketDispatch (fn : Nat) (q : Nat) (st : State) : Res :=
  .next (st.onQueue fn q fun st => st.dispatchHeld fn q)

/-- WAITVAL_MET (R142).  -/
def execWaitvalMet (fn : Nat) (q : Nat) (st : State) : Res :=
  .next (st.onQueue fn q fun st => st.waitvalMet fn q)

/-- WAITVAL_TIMEOUT (R142).  -/
def execWaitvalTimeout (fn : Nat) (q : Nat) (st : State) : Res :=
  .next (st.onQueue fn q fun st => st.waitvalTimeout fn q)

/-- FUNCTION_LEVEL_RESET (R146).  -/
def execFunctionLevelReset (fn : Nat) (st : State) : Res :=
  .next (st.functionReset fn)

/-- QUEUE_THAW (R147).  -/
def execQueueThaw (fn : Nat) (st : State) : Res :=
  .next (st.queueThaw fn)

/-- TENANT_TABLE_WRITE (R152).  -/
def execTenantTableWrite (ix : Nat) (valid : Bool) (frozen : Bool) (srcdev : BitVec 12) (tag : BitVec 16) (reclo : BitVec 56) (rechi : BitVec 56) (func : BitVec 8) (queue : BitVec 4) (maxgrid : BitVec 32) (st : State) : Res :=
  .next (st.tenantWrite ⟨ix, valid, frozen, srcdev, tag, reclo, rechi, func, queue, maxgrid⟩)

end Sys2Proof.Machine
end

