-- ==== Sys2Proof/Machine/Debug.lean ====
section
/-!
DEFINITION. The debugger (R115 to R117): attaching, stopping a group, writing the state of a stopped one, resuming.
-/
namespace Sys2Proof.Machine

/-! ## Stops (R115) -/

/-- A debugger is attached to the team's context. -/
def State.debugged (s : State) (t : Nat) : Bool := ((s.team? t).map fun tm => s.debuggers.contains tm.ctx).getD false

/-- The threads of a group. -/
def groupRefs (t g : Nat) : List ThreadRef := (List.range 32).map fun l => ⟨t, 32 * g + l⟩

/-- A debugger asks for a stop: the group's threads cease to issue and leave their runs. -/
def State.stopRequest (s : State) (t g : Nat) : State :=
  match s.group? t g with
  | none => s
  | some gr =>
    if !s.debugged t || gr.stopped then s
    else (s.updGroup t g fun k => { k.restart with stopReq := true }).dropHeld fun r => (groupRefs t g).contains r

/-- A queued or running TOPK.READ of a group. -/
def EngOp.readsTopk (e : EngOp) (t g : Nat) : Bool := match e with
  | .topkRead t' g' _ _ => t' = t && g' = g
  | _ => false

/-- An operation that targets a register of the group is in flight: a load, or TOPK.READ. -/
def State.groupBusy (s : State) (t g : Nat) : Bool :=
  s.cores.any fun c =>
    (c.loads.any fun l => l.ref.team = t && l.ref.tid / 32 = g && (!l.words.isEmpty || l.pk.isSome))
      || c.engq.any (fun e => e.readsTopk t g) || c.engRun.any fun e => e.op.readsTopk t g

/-- Every thread has ceased and nothing is in flight: the group is STOPPED. -/
def State.groupStop (s : State) (t g : Nat) : State :=
  match s.group? t g with
  | none => s
  | some gr =>
    if !gr.stopReq || s.groupBusy t g then s
    else
      let s := s.updGroup t g fun k =>
        { k.restart with stopReq := false, stopped := true, threads := k.restart.threads.map fun th =>
            if th.live then { th with stopped := true } else th }
      (s.dropHeld fun r => (groupRefs t g).contains r).tell "STOPPED" [t, g]

/-! ## Writes and resume (R116, R117) -/

/-- A thread that waits at a word no longer stands there when the debugger moves it. -/
def Thread.movedTo (th : Thread) (p : Pc) : Thread :=
  { th.goto p with
    grant := none
    status := match th.status with
      | .waiting _ => .ready
      | st => st }

/-- The write, by what it names: 0 a register, 1 a predicate, 2 %EPC, 3 %ECAUSE.ESLOT, 4 the program counter with its slot
in ix.  None for any other write. -/
def Thread.debugWrite (th : Thread) (nreg what ix : Nat) (v : Word) : Option Thread :=
  match what with
  | 0 => if ix < nreg then some (th.setReg ix v) else none
  | 1 => if 1 <= ix && ix <= 7 then some (th.setPred ix (v.getLsbD 0)) else none
  | 2 => some { th with epc := v }
  | 3 => if v.toNat <= 2 then some { th with ecause := (th.ecause &&& ~~~(0x600#32)) ||| v <<< 9 } else none
  | 4 => if ix <= 2 then some (th.movedTo ⟨v, ix⟩) else none
  | _ => none

/-- A debugger's write to a thread of a STOPPED group, or with 5 the clearing of a cause bit of its group; any other write is
refused with status. -/
def State.debugWrite (s : State) (t tid what ix : Nat) (v : Word) : State :=
  let no := s.tell "DEBUG_REFUSED" [t, tid, what, ix]
  match s.group? t (tid / 32) with
  | none => no
  | some g =>
    if !s.debugged t || !g.stopped then no
    else if what = 5 then (if ix < 256 then s.clearCause t (tid / 32) (BitVec.ofNat 8 ix) else no)
    else match (g.threads[tid % 32]?).bind fun th => th.debugWrite g.nreg what ix v with
      | some th => s.updThread ⟨t, tid⟩ fun _ => th
      | none => no

/-- Resume: STOPPED clears, and each thread goes on at the first word of its run. -/
def State.debugResume (s : State) (t g : Nat) : State :=
  match s.group? t g with
  | none => s
  | some gr =>
    if !s.debugged t || !gr.stopped then s
    else s.updGroup t g fun k =>
      { k with stopped := false, stopReq := false, threads := k.threads.map fun th => { th with stopped := false } }

/-- A debugger attaches to a context or leaves it. -/
def State.debuggerAttach (s : State) (ctx : Nat) (attach : Bool) : State :=
  if (s.ctx? ctx).isNone then s
  else if attach then
    { s with debuggers := s.debuggers.filter (· != ctx) ++ [ctx], attachedEver := true }
  else { s with debuggers := s.debuggers.filter (· != ctx) }

/-- DEBUG_STOP_REQUEST (R115).  -/
def execDebugStopRequest (team : Nat) (grp : Nat) (st : State) : Res :=
  .next (st.stopRequest team grp)

/-- GROUP_STOPPED (R115).  -/
def execGroupStopped (team : Nat) (grp : Nat) (st : State) : Res :=
  .next (st.groupStop team grp)

/-- DEBUG_WRITE (R116).  -/
def execDebugWrite (team : Nat) (tid : Nat) (what : Nat) (ix : Nat) (value : BitVec 32) (st : State) : Res :=
  .next (st.debugWrite team tid what ix value)

/-- DEBUG_RESUME (R117).  -/
def execDebugResume (team : Nat) (grp : Nat) (st : State) : Res :=
  .next (st.debugResume team grp)

/-- DEBUGGER_ATTACH (R115).  -/
def execDebuggerAttach (ctx : Nat) (attach : Bool) (st : State) : Res :=
  .next (st.debuggerAttach ctx attach)

end Sys2Proof.Machine
end

