-- ==== Sys2Proof/Machine/Power.lean ====
section
/-!
DEFINITION. The requests for clock settings (R269), the power cap (R270) and the slope limiter (R271 to R275).
-/
namespace Sys2Proof.Machine

/-! ## Clock settings (R12, R269) -/

/-- The clocks have relocked, and issue resumes (R269). -/
def State.relocked (s : State) (die quarter : Nat) : State :=
  if die < 64 && quarter < 4 then s.updQuarter die quarter fun k => { k with relocking := false } else s

/-- PCAP, in watts (R270). -/
def State.pcapWrite (s : State) (w : Nat) : State :=
  if 2000 <= w && w <= 8000 then { s with pcap := w } else s.tell "PCAP_REFUSED" [w]

/-! ## The slope limiter (R271 to R275) -/

/-- New values of SLEW and CLOAD; they take effect at the die's next step boundary. -/
def State.slewWrite (s : State) (die slew cload : Nat) : State :=
  if die < 64 && 4 <= slew && slew <= 64 && 1 <= cload then
    s.updDie die fun d => { d with newSlew := slew, newCload := cload }
  else s.tell "SLEW_REFUSED" [die, slew, cload]

/-- The estimate moves toward the load by at most SLEW. -/
def nextEst (est load slew : Nat) : Nat := if load <= est then max load (est - slew) else min load (est + slew)

/-- A die after one step boundary with a real load in watts. -/
def Die.stepped (d : Die) (load : Nat) : Die :=
  let est := nextEst d.est load d.newSlew
  { d with
    slew := d.newSlew
    cload := d.newCload
    est := est
    real := load
    filler := est - load
    placedThisStep := 0
    stepAt := d.stepAt + 1
    work := 0
    rampCtx := if est = load then [] else d.rampCtx }

/-- What the estimate has counted on a die since the last boundary, in watts: nanojoules over 1,024 front cycles of quarter 0. -/
def Die.counted (d : Die) (front : Nat) : Nat := d.work * front / (1024 * 1000)

/-- Idle cores of a die run fillers, and hold no launch, while the ramp lasts. -/
def State.setRamp (s : State) (die : Nat) (on : Bool) : State :=
  (List.range 48).foldl (fun s n =>
    let c := coreOf die n
    let want := on && (s.holding c).isEmpty && !(s.core c).disabled && !s.coreGone c
    if (s.core c).ramp = want then s else s.updCore c fun k => { k with ramp := want }) s

/-- Energy of one step's fillers in nanojoules: watts for 1,024 front cycles of quarter 0. -/
def fillerEnergy (filler front : Nat) : Nat := filler * 1024 * 1000 / front

/-- Energy of fillers is charged to the contexts whose departures caused the ramp, in equal parts (R274); a context that is gone has its
part reported. -/
def State.chargeFillers (s : State) (who : List Nat) (nj : Nat) : State :=
  if nj = 0 then s
  else who.foldl (fun s c =>
    if (s.ctx? c).isSome then s.updCtx c fun k => { k with energy := k.energy + nj / who.length }
    else s.tell "ENERGY" [c, nj / who.length / 1000000]) s

/-- COR starts and grid releases go one step further on a die (R160, R191), but for
a launch whose context is SAVED or FROZEN (R166). -/
def State.advanceSteps (s : State) (die : Nat) : State :=
  s.launches.foldl (fun s l =>
    let n := l.recd.shx * l.recd.shy
    if s.launchHeld l then s else
    let s := if l.recd.cor then s.startClusters l.id die ((s.die die).stepSize n) else s
    l.releasing.foldl (fun s g => s.releaseStep l.id g.1 (some die)) s) s

/-- A slope step of a die with an unchanged load would change nothing. -/
def State.stepIdle (s : State) (d : Die) : Bool :=
  d.est = d.real && d.filler = 0 && d.work = 0 && d.real = d.rest && d.placedThisStep = 0 && d.newSlew = d.slew && d.newCload = d.cload && d.rampCtx.isEmpty
    && !s.cores.any (fun c => c.ramp && dieOf c.id = d.id)
    && !s.launches.any fun l => !s.launchHeld l && (!l.releasing.isEmpty
      || (l.recd.cor && s.clusters.any fun c => c.launch = l.id && !l.started.contains c.cix))

/-- A slope step ends on a die with a real load. -/
def State.endStep (s : State) (die load : Nat) : State :=
  let who := (s.die die).rampCtx
  let s := s.updDie die fun d => d.stepped load
  let filler := (s.die die).filler
  let s := s.chargeFillers who (fillerEnergy filler (s.quarter die 0).front)
  ((s.setRamp die (0 < filler)).advanceSteps die).policyStep die

/-- SLOPE_STEP reports the load of the step that ends, whose last cycle the die reaches; what it has beyond the counted work stays
(DESIGN CHOICE, log entry 88). -/
def State.slopeStep (s : State) (die load : Nat) : State :=
  if 64 <= die || !s.booted then s else
  let front := (s.quarter die 0).front
  (s.updDie die fun d => { d with q0 := max d.q0 ((d.stepAt + 1) * 1024), rest := load - d.counted front }).endStep die load

/-- A slope step whose load is not reported: what its work has counted, beside what the last report had beyond that. -/
def State.quietStep (s : State) (die : Nat) : State :=
  if 64 <= die || !s.booted then s
  else s.endStep die ((s.die die).rest + (s.die die).counted (s.quarter die 0).front)

/-- CLOCK_SETTING_REQUEST (R269).  -/
def execClockSettingRequest (die : Nat) (quarter : Nat) (front : Nat) (ratio : Nat) (st : State) : Res :=
  .next (st.clockSet die quarter front ratio)

/-- CLOCK_RELOCK_COMPLETE (R269).  -/
def execClockRelockComplete (die : Nat) (quarter : Nat) (st : State) : Res :=
  .next (st.relocked die quarter)

/-- PCAP_WRITE (R270).  -/
def execPcapWrite (watts : Nat) (st : State) : Res :=
  .next (st.pcapWrite watts)

/-- SLEW_WRITE (R272).  -/
def execSlewWrite (die : Nat) (slew : Nat) (cload : Nat) (st : State) : Res :=
  .next (st.slewWrite die slew cload)

/-- SLOPE_STEP (R271).  -/
def execSlopeStep (die : Nat) (load : Nat) (st : State) : Res :=
  .next (st.slopeStep die load)

end Sys2Proof.Machine
end

