-- ==== Sys2Proof/Machine/Firmware.lean ====
section
/-!
DEFINITION. Firmware: boot (R278, R16, R17), images and live update (R279, R280, R284, R285), plug-ins (R277), attestation (R281,
R282), the wake filter (R283), and the loss of power (R285).
-/
namespace Sys2Proof.Machine

/-! ## Image slots (R279, R280) -/

/-- A slot. -/
def Flash.slot (f : Flash) (i : Nat) : Slot := f.slots.getD i ⟨.empty, []⟩

/-- The monitor's image of a slot. -/
def Slot.monitor (k : Slot) : Image := k.images.headD ⟨0, 0, [], []⟩

/-- The version of a slot: that of its monitor. -/
def Slot.version (k : Slot) : Nat := k.monitor.version

/-- The lowest hand-over structure version that every image of the slot accepts. -/
def Slot.statever (k : Slot) : Nat := k.images.foldl (fun n i => max n i.statever) 0

/-- DIGEST of the slot's monitor. -/
def Slot.digest (k : Slot) : List Byte := k.monitor.digest

/-- Set a slot's state. -/
def Flash.setSlot (f : Flash) (i : Nat) (x : SlotState) : Flash :=
  { f with slots := f.slots.modify i fun k => { k with state := x } }

/-- The ACTIVE slot. -/
def Flash.active (f : Flash) : Nat := if (f.slot 0).state = .active then 0 else 1

/-- Bytes of a signature with XMSS-SHAKE_10_256 of RFC 8391 (PRESUMED, log entry 90). -/
def sigBytes : Nat := 2500

/-- DIGEST is the hash of the body. -/
def Image.digestOk (i : Image) : Bool := i.digest = leBytes (Config.shake256 i.body).toNat 32

/-- The numbers of a header, and its body. -/
def imageOf (bs : List Byte) : Image :=
  ⟨fieldAt bs 4 4, fieldAt bs 12 4, (bs.drop 16).take 32, (bs.drop 64).take (fieldAt bs 8 4)⟩

/-- The image with which the bytes begin holds R279, but for the signature: MAGIC, VERSION, SIZE, zeros, the body, its DIGEST, and the
signature at SIGOFF after it. -/
def imageOk (f : Flash) (bs : List Byte) : Bool :=
  64 <= bs.length && fieldAt bs 0 4 = 0x4F514246 && f.minVersion <= fieldAt bs 4 4 && fieldAt bs 8 4 <= 8 * 2 ^ 20
    && zeroAt bs 52 12 && 64 + fieldAt bs 8 4 <= fieldAt bs 48 4 && fieldAt bs 48 4 + sigBytes <= bs.length && (imageOf bs).digestOk

/-- The images that are written into a slot, one after another: the monitor's, the scheduler's, then those of plug-ins (DESIGN CHOICE,
log entry 90).  None where one fails R279, or where the first two are not there. -/
def imagesOf (f : Flash) (bs : List Byte) : Nat → Option (List Image)
  | 0 => none
  | n + 1 =>
    if bs.isEmpty then some []
    else if imageOk f bs then (imagesOf f (bs.drop (fieldAt bs 48 4 + sigBytes)) n).map (imageOf bs :: ·)
    else none

/-- The images of a slot, as they are written: no more than the plug-ins of 256 tenants beside the first two. -/
def slotImages (f : Flash) (bs : List Byte) : Option (List Image) := (imagesOf f bs 259).filter fun l => 2 <= l.length

/-- Images are written into a slot, which becomes PENDING; one that fails R279 is rejected, and so is one for a slot that
holds an ACTIVE or PENDING image.  A record set that comes with it is what the next boot reads (R17). -/
def State.imageWrite (s : State) (slot : Nat) (h : List Byte) (sigOk : Bool) (recs : Option ConfigRecords) : State :=
  let st := (s.flash.slot slot).state
  match slotImages s.flash h with
  | some images =>
    if slot < 2 && st != .active && st != .pending && sigOk then
      { s with flash := { s.flash with
          records := recs.getD s.flash.records
          slots := s.flash.slots.set slot ⟨.pending, images⟩ } }
    else s.tell "IMAGE_REJECTED" [slot]
  | none => s.tell "IMAGE_REJECTED" [slot]

/-! ## Boot (R278) -/

/-- DIGEST and VERSION of an image. -/
def Image.block (i : Image) : List Byte := i.digest ++ leBytes i.version 4

/-- Measurement blocks 1 to 4 of a slot (R282): the monitor's DIGEST and VERSION, the scheduler's, the digests of plug-ins in tenant order,
the version of the configuration records. -/
def State.blocksOf (s : State) (slot : Nat) (plugins : List Byte) : List (List Byte) :=
  let k := s.flash.slot slot
  [k.monitor.block, ((k.images.drop 1).headD ⟨0, 0, [], []⟩).block, plugins, leBytes s.flash.recVersion 4]

/-- The digests of a slot's plug-ins. -/
def Slot.plugins (k : Slot) : List Byte := (k.images.drop 2).flatMap Image.digest

/-- A slot's images verify: their signatures do, and none is older than the minimum version (R279). -/
def Flash.verifies (f : Flash) (ok : Nat → Bool) (i : Nat) : Bool := ok i && f.minVersion <= (f.slot i).version

/-- The slot that boots: the ACTIVE one if it verifies, else the other once, unless it is EMPTY or FAILED. -/
def Flash.bootSlot (f : Flash) (ok : Nat → Bool) : Option Nat :=
  let a := f.active
  let o := 1 - a
  if f.verifies ok a then some a
  else if (f.slot o).state != .empty && (f.slot o).state != .failed && f.verifies ok o then some o
  else none

/-- A PENDING image that is tried and fails to verify is FAILED. -/
def Flash.tried (f : Flash) (ok : Nat → Bool) : Flash :=
  let o := 1 - f.active
  if !f.verifies ok f.active && (f.slot o).state = .pending && !f.verifies ok o then f.setSlot o .failed else f

/-- Units on the disabled list are fenced from boot on: a core by its %CORE value, a die d as 2^16 + d (R16, R18). -/
def State.disable (s : State) (l : List Nat) : State :=
  l.foldl (fun s u =>
    if 2 ^ 16 <= u then s.updDie (u - 2 ^ 16) fun d => { d with fenced := true }
    else s.updCore u fun c => { c with disabled := true, fenced := true }) s

/-- The configuration records are read from flash (R16, R17): accepted, with their version stored, they are in force and the units
they disable are fenced; else the compute complex stays in reset. -/
def State.readRecords (s : State) (slot : Nat) (recordsOk : Bool) (plugins : List Byte) : State :=
  let r := s.flash.records
  if recordsOk && s.flash.recVersion <= r.version then
    let s : State := { s with
      flash := { s.flash with recVersion := r.version }
      records := r
      booted := true
      failedBoot := false }
    let blocks := s.blocksOf slot plugins
    let s : State := { s with measured := blocks, running := some slot, rootBlock := blocks.headD [] }
    s.disable (r.disabled ++ s.flash.disabled)
  else { s with failedBoot := true }.tell "RECORD_REJECTED" [r.version]

/-- Power-on boot.  A step that fails stops it; okA and okB say that every image of slot 0 and of slot 1 verifies. -/
def State.boot (s : State) (okA okB recordsOk : Bool) (plugins : List (List Byte)) : State :=
  if s.booted then s else
  let ok (i : Nat) : Bool := if i = 0 then okA else okB
  let slot := s.flash.bootSlot ok
  let s : State := { s with flash := s.flash.tried ok }
  match slot with
  | some i => s.readRecords i recordsOk plugins.flatten
  | none => { s with failedBoot := true }.tell "BOOT_FAILED" []

/-! ## Live update (R284, R285) -/

/-- Fetching resumes: teardowns and function-level resets held by the update are performed. -/
def State.updateEnds (s : State) : State :=
  let ts := s.heldTeardowns
  let rs := s.heldResets
  let s : State := { s with update := .none, handover := none, heldTeardowns := [], heldResets := [] }
  let s := ts.foldl (fun s c => if (s.ctx? c).isSome then s.tearDown c else s) s
  rs.foldl (fun s f => s.resetNow f) s

/-- A checkpoint is in progress: it is being taken, or it has been asked for and will be. -/
def State.checkpointing (s : State) : Bool :=
  s.ctxs.any fun k => k.state = .checkpointing || (k.ckptPending && (k.state = .ready || k.state = .saved))

/-- The slot that holds a PENDING image while the other is ACTIVE. -/
def Flash.pendingSlot (f : Flash) : Option Nat :=
  if (f.slot 0).state = .pending && (f.slot 1).state = .active then some 0
  else if (f.slot 1).state = .pending && (f.slot 0).state = .active then some 1
  else none

/-- The structure that the old image writes (R284). -/
def State.handOver (s : State) : HandOver where
  contexts := s.ctxs.map fun k => (k.id, k.state)
  queues := s.queues.map fun q => (q.fn, q.q, [q.qrd, q.qdone, q.evwr, q.evrd])
  pageReqs := s.pageReqs
  chunks := s.launches.map fun l => (l.id, l.chunks)
  sluice := [s.sluiceEpoch, s.sluiceThresh, s.sluiceQmax, s.sluiceWater, s.sluiceMaxrepl]
  pcap := s.pcap
  slews := s.dies.map fun d => (d.id, d.newSlew, d.newCload)
  clocks := s.quarters.map fun q => (q.die, q.ix, q.front, q.ratio2)

/-- Quiesce, verify and hand over to a PENDING image. -/
def State.updateGo (s : State) (sigOk : Bool) : State :=
  match s.flash.pendingSlot with
  | none => { s with update := .none }.tell "UPDATE_REFUSED" []
  | some i =>
    let k := s.flash.slot i
    if sigOk && k.images.all Image.digestOk && k.statever <= Config.structVersion then
      { s with update := .handed i s.now, handover := some s.handOver }
    else { s with update := .none }.tell "UPDATE_VERIFY_FAILED" [i]

/-- An update is asked for; it waits for any checkpoint in progress (R285). -/
def State.liveUpdate (s : State) (sigOk : Bool) : State :=
  if !s.booted || s.update != .none then s.tell "UPDATE_REFUSED" []
  else if s.checkpointing then { s with update := .waiting sigOk }
  else s.updateGo sigOk

/-- An update that waited goes on once no checkpoint is in progress. -/
def State.updateWaited (s : State) : State := match s.update with
  | .waiting sigOk => if s.checkpointing then s else s.updateGo sigOk
  | .none | .handed _ _ => s

/-- A slot's first heartbeat: it is ACTIVE, the other STANDBY, its VERSION is the minimum, and its images are what is measured. -/
def State.accepted (s : State) (i : Nat) : State :=
  let f := (s.flash.setSlot i .active).setSlot (1 - i) .standby
  let s : State := { s with flash := { f with minVersion := (f.slot i).version }, running := some i }
  { s with measured := s.blocksOf i (s.flash.slot i).plugins }

/-- The slot that runs and is PENDING: its images booted in the ACTIVE slot's place (R278). -/
def State.runsPending (s : State) : Option Nat := s.running.filter fun i => (s.flash.slot i).state = .pending

/-- The heartbeat is missed: the slot is FAILED.  After a hand-over the old image goes on from the unchanged structure; the other slot is
ACTIVE again after a boot (R280, R284). -/
def State.heartbeatMissed (s : State) : State :=
  match s.update with
  | .handed i t => ({ s with ns := max s.ns (t + 2 ^ 28), flash := s.flash.setSlot i .failed } : State).updateEnds
  | .none | .waiting _ => match s.runsPending with
    | some i => { s with flash := (s.flash.setSlot i .failed).setSlot (1 - i) .active }
    | none => s

/-- The new image's first heartbeat, within 2^28 cycles of control core 0 (R284); of a PENDING image that booted, its first (R280). -/
def State.heartbeat (s : State) : State :=
  match s.update with
  | .handed i t => if t + 2 ^ 28 < s.now then s.heartbeatMissed else (s.accepted i).updateEnds
  | .none | .waiting _ => match s.runsPending with
    | some i => s.accepted i
    | none => s

/-- A plug-in is unloaded and the event logged (R277). -/
def State.unplug (s : State) (tenant : Nat) : State :=
  { s with unplugged := s.unplugged.filter (· != tenant) ++ [tenant] }.tell "PLUGIN_UNLOADED" [tenant]

/-! ## Attestation (R281, R282) -/

/-- Bittern answers: it runs, its cores are not gated, and it can still sign. -/
def State.attests (s : State) : Bool := s.booted && !s.gated && s.flash.keyIndex < 2 ^ 20

/-- An SPDM answer: the request's place in R282's list, what the manual states of the answer, and bytes it leaves to SPDM and
XMSS (DESIGN CHOICE, log entry 5).  When the one-time keys are spent the device attests no more, which it says (R281). -/
def State.spdmAnswer (s : State) (request : Nat) (known : List Byte) : State :=
  if s.attests then
    { s with
      answers := s.answers ++ [BitVec.ofNat 8 request :: known ++ (List.range 32).map (Config.answerByte s.fresh)]
      fresh := s.fresh + 1 }
  else if s.booted && !s.gated then s.tell "KEYSPENT" []
  else s

/-- The next signature is begun: its index is spent in flash before anything is released. -/
def State.signNext (s : State) : State :=
  match s.signing, s.signs with
  | none, n :: rest =>
    if s.flash.keyIndex < 2 ^ 20 then
      { s with signing := some n, signs := rest, flash := { s.flash with keyIndex := s.flash.keyIndex + 1 } }
    else { s with signs := rest }.tell "KEYSPENT" []
  | _, _ => s

/-- CHALLENGE: signing requests are served one at a time; at index 2^20 the answer is KEYSPENT. -/
def State.challenge (s : State) (nonce : BitVec 256) : State :=
  if !s.booted || s.gated then s
  else ({ s with signs := s.signs ++ [nonce] } : State).signNext

/-- The signature that was begun is released: it covers the nonce of its request. -/
def State.signDone (s : State) : State :=
  match s.signing with
  | none => s
  | some n =>
    ({ s with
      signing := none
      answers := s.answers ++ [6 :: leBytes n.toNat 32 ++ (List.range 32).map (Config.answerByte s.fresh)]
      fresh := s.fresh + 1 } : State).signNext

/-- Block 5: a debugger attached since boot, and CAPTURE set in any context. -/
def State.debugBlock (s : State) : List Byte :=
  [BitVec.ofNat 8 ((if s.attachedEver then 1 else 0) + (if s.ctxs.any fun k => descCapture k.desc then 2 else 0))]

/-- The measurement blocks. -/
def State.blocks (s : State) : List (List Byte) := s.measured.take 4 ++ [s.debugBlock]

/-- GET_MEASUREMENTS: 0 asks for the number of blocks, 0xFF for all of them, an index for its block. -/
def State.measurements (s : State) (ix : Nat) : State :=
  if ix = 0 then s.spdmAnswer 7 [5]
  else if ix = 0xFF then s.spdmAnswer 7 (s.blocks.flatten)
  else match s.blocks[ix - 1]? with
    | some b => s.spdmAnswer 7 b
    | none => s.tell "NO_BLOCK" [ix]

/-! ## The wake filter (R283) -/

/-- A frame matches an entry (offset, mask, value). -/
def filterMatch (frame : List Byte) (e : Nat × Word × Word) : Bool :=
  (BitVec.ofNat 32 (fieldAt frame e.1 4) &&& e.2.1) = e.2.2

/-- A management frame reaches a control core. -/
def State.deliverFrame (s : State) (frame : List Byte) : State := s.tell "MGMT_FRAME" (frame.map BitVec.toNat)

/-- A management frame arrives: while the cores are gated it is held if it matches, the fifth is dropped and counted, and one
that matches no entry is dropped. -/
def State.wakeFrame (s : State) (frame : List Byte) : State :=
  if !s.gated then s.deliverFrame frame
  else if !s.wakeFilter.any (filterMatch frame) then s
  else if s.wakeHeld.length < 4 then { s with wakeHeld := s.wakeHeld ++ [frame] }
  else { s with wakeDropped := s.wakeDropped + 1 }

/-- Control core 0 is awake and receives the held frames. -/
def State.coreWake (s : State) : State :=
  if s.gated && !s.wakeHeld.isEmpty then
    s.wakeHeld.foldl State.deliverFrame { s with gated := false, wakeHeld := [] }
  else s

/-! ## Loss of power (R285) -/

/-- Everything volatile is lost; secure flash stays, and so does what lies outside the package. -/
def State.powerLoss (s : State) : State :=
  { State.reset with
    flash := s.flash
    hostMem := s.hostMem
    inputs := s.inputs
    sched := s.sched
    fresh := s.fresh
    tick := s.tick
    meter := s.meter
    notices := s.notices
    answers := s.answers }

/-- POWER_ON_BOOT (R278): whether the monitor image of a slot verifies (step 1), and its scheduler and plug-in images (step 2). -/
def execPowerOnBoot (monitorA : Bool) (imagesA : Bool) (monitorB : Bool) (imagesB : Bool) (recordsOk : Bool)
    (plugins : List (List (BitVec 8))) (st : State) : Res :=
  .next (st.boot (monitorA && imagesA) (monitorB && imagesB) recordsOk plugins)

/-- IMAGE_WRITE (R280).  -/
def execImageWrite (slot : Nat) (image : List (BitVec 8) × Option ConfigRecords) (sigOk : Bool) (st : State) : Res :=
  .next (st.imageWrite slot image.1 sigOk image.2)

/-- LIVE_UPDATE (R284).  -/
def execLiveUpdate (sigOk : Bool) (st : State) : Res :=
  .next (st.liveUpdate sigOk)

/-- UPDATE_HEARTBEAT (R280).  -/
def execUpdateHeartbeat  (st : State) : Res :=
  .next (st.heartbeat)

/-- HEARTBEAT_TIMEOUT (R284).  -/
def execHeartbeatTimeout  (st : State) : Res :=
  .next (st.heartbeatMissed)

/-- PLUGIN_TIMEOUT (R277).  -/
def execPluginTimeout (tenant : Nat) (st : State) : Res :=
  .next (st.unplug tenant)

/-- GET_VERSION (R282).  -/
def execGetVersion  (st : State) : Res :=
  .next (st.spdmAnswer 1 [1, 3])

/-- GET_CAPABILITIES (R282).  -/
def execGetCapabilities  (st : State) : Res :=
  .next (st.spdmAnswer 2 [])

/-- NEGOTIATE_ALGORITHMS (R282).  -/
def execNegotiateAlgorithms  (st : State) : Res :=
  .next (st.spdmAnswer 3 [])

/-- GET_DIGESTS (R282).  -/
def execGetDigests  (st : State) : Res :=
  .next (st.spdmAnswer 4 [])

/-- GET_CERTIFICATE (R282).  -/
def execGetCertificate  (st : State) : Res :=
  .next (st.spdmAnswer 5 [])

/-- CHALLENGE (R282).  -/
def execChallenge (nonce : BitVec 256) (st : State) : Res :=
  .next (st.challenge nonce)

/-- GET_MEASUREMENTS (R282).  -/
def execGetMeasurements (ix : Nat) (st : State) : Res :=
  .next (st.measurements ix)

/-- WAKE_FRAME (R283).  -/
def execWakeFrame (frame : List (BitVec 8)) (st : State) : Res :=
  .next (st.wakeFrame frame)

/-- CONTROL_CORE_WAKE (R283).  -/
def execControlCoreWake  (st : State) : Res :=
  .next (st.coreWake)

/-- POWER_LOSS (R285).  -/
def execPowerLoss  (st : State) : Res :=
  .next (st.powerLoss)

end Sys2Proof.Machine
end

