-- ==== Sys2Proof/Machine/Sfu.lean ====
section
/-!
DEFINITION. The special functions (R315, R316).  The manual states the largest error of each and not the bits: the result is a
free value held to that error (DESIGN CHOICE, log entry 3).

The exact result is enclosed by a fixed-point number with 320 fraction bits; every helper below works in units of 2^-320, and its
own error is below a part in 2^100 of the bounds.
-/
namespace Sys2Proof.Machine

/-- Fraction bits of the fixed-point numbers. -/
def fixBits : Nat := 320

/-- 2π and ln 2, in units of 2^-320. -/
def fixTwoPi : Nat :=
  13420802360424337830311681948440006481608388178854297901454212848703426437343610760199000777828079
def fixLn2 : Nat :=
  1480553391661173448385607439722553250922680800745876974795605978609098082859138712941075737848984

/-- m · 2^e in units of 2^-320, rounded down. -/
def fixOf (m : Nat) (e : Int) : Nat :=
  let (a, b) := scaleFrac m 1 (e + fixBits)
  a / b

/-- The product of two fixed-point numbers. -/
def fixMul (a b : Nat) : Nat := a * b / 2 ^ fixBits

/-- e^r for r in [0, 1): the terms of the series from the kth on, the kth being t. -/
def expGo (r : Nat) : Nat → Nat → Nat → Nat
  | 0, _, _ => 0
  | fuel + 1, k, t => t + expGo r fuel (k + 1) (fixMul t r / k)

/-- e^r for r in [0, 1). -/
def fixExp (r : Nat) : Nat := expGo r 80 1 (2 ^ fixBits)

/-- v · 2^n for a fixed-point v; 0 where nothing is left. -/
def fixScale (v : Nat) (n : Int) : Nat := if 0 <= n then v * 2 ^ n.toNat else if n < -700 then 0 else v / 2 ^ (-n).toNat

/-- 2^x for |x| below 2^10 or so; a very negative x gives 0. -/
def fixEx2 (neg : Bool) (x : Nat) : Nat :=
  let n : Int := if neg then -((x / 2 ^ fixBits : Nat) : Int) - 1 else (x / 2 ^ fixBits : Nat)
  let f := if neg then 2 ^ fixBits - x % 2 ^ fixBits else x % 2 ^ fixBits
  fixScale (fixExp (fixMul f fixLn2)) n

/-- e^-x, 0 for a large x. -/
def fixExpNeg (x : Nat) : Nat :=
  let n := x / fixLn2
  if 700 < n then 0 else fixScale (fixExp (fixLn2 - x % fixLn2)) (-(n : Int) - 1)

/-- Bits of log2 v for v in [1, 2): each squaring gives one more. -/
def lg2Go : Nat → Nat → Nat → Nat
  | 0, _, acc => acc
  | k + 1, v, acc =>
    let v := fixMul v v
    if 2 * 2 ^ fixBits <= v then lg2Go k (v / 2) (2 * acc + 1) else lg2Go k v (2 * acc)

/-- log2 of n / d, whose floor is k, in units of 2^-320; its error is below 2^-199. -/
def fixLg2 (n d : Nat) (k : Int) : Int :=
  let (a, b) := scaleFrac n d (fixBits - k)
  k * 2 ^ fixBits + (lg2Go 200 (a / b) 0 * 2 ^ (fixBits - 200) : Nat)

/-- The alternating series t - t·x²/(k(k+1)) + …, where the next divisor is k(k+1). -/
def trigGo (x2 : Nat) : Nat → Nat → Nat → Int
  | 0, _, _ => 0
  | fuel + 1, k, t => t - trigGo x2 fuel (k + 2) (fixMul t x2 / (k * (k + 1)))

/-- sin x and cos x. -/
def fixSin (x : Nat) : Int := let t := x % fixTwoPi; trigGo (fixMul t t) 60 2 t
def fixCos (x : Nat) : Int := let t := x % fixTwoPi; trigGo (fixMul t t) 60 1 (2 ^ fixBits)

/-- A result that lies below 1, however little: its unit in the last place is 2^-24 at most. -/
def fixBelowOne (y : Nat) : Nat := min y (2 ^ fixBits - 1)

/-- tanh x for x > 0. -/
def fixTanh (x : Nat) : Nat :=
  let q := fixExpNeg (2 * x)
  fixBelowOne ((2 ^ fixBits - q) * 2 ^ fixBits / (2 ^ fixBits + q))

/-- tanh x for a positive x below 2^-40: x - x³/3, closer than the quotient. -/
def fixTanhSmall (x : Nat) : Nat := x - fixMul (fixMul x x) x / 3

/-- 1 / (1 + e^-x). -/
def fixSigm (neg : Bool) (x : Nat) : Nat :=
  let q := fixExpNeg x
  let v := if neg then q else 2 ^ fixBits
  fixBelowOne (v * 2 ^ fixBits / (2 ^ fixBits + q))

/-- The unit in the last place of a positive result (R315). -/
def fixUlp (y : Nat) : Nat := 2 ^ (max (Nat.log2 y - 23) (fixBits - 149))

/-- A finite FP32 code as a fixed-point number; none for an infinity or NaN. -/
def fixCode (code : Nat) : Option Int :=
  match fdec fmtF32 code with
  | .fin neg m e => some (if neg then -(fixOf m e : Int) else fixOf m e)
  | _ => none

/-- The free value where it lies within the bound of the exact result, else that rounded to nearest.  y misses the exact result by less
than a part in 2^100 of the bound, and what lies closer to the bound than that is taken to be beyond it. -/
def heldTo (free : Word) (y : Int) (bound : Nat) : Nat :=
  let near := (roundFrac fmtF32 0 (y < 0) y.natAbs (2 ^ fixBits)).1
  match fixCode free.toNat with
  | some v => if (v - y).natAbs + bound / 2 ^ 100 <= bound then free.toNat else near
  | none => near

/-- NX, and UF for an inexact result whose magnitude lies below the smallest normal (R316). -/
def approxFlags (code : Nat) : Nat :=
  if code % 2 ^ 31 < 2 ^ 23 then flNX + flUF else flNX

/-- A result that R315 does not list as exact, with its flags. -/
def approx (free : Word) (y : Int) (bound : Nat) : Nat × Nat :=
  let c := heldTo free y bound
  (c, approxFlags c)

/-- The fixed-point magnitude of an operand for the functions that level off: beyond 2^10 it no longer matters. -/
def fixLevel (m : Nat) (e : Int) : Nat := if 10 <= e then 2 ^ (fixBits + 10) else fixOf m e

/-- SFU function n of the finite nonzero operand m · 2^e (R315, R316): the exact results, the overflows, and otherwise the free
value held to the bound. -/
def sfuFinite (n mode : Nat) (x : Word) (neg : Bool) (m : Nat) (e : Int) : Nat × Nat :=
  let free := Config.sfuValue n x
  let (num, den) := scaleFrac m 1 e
  let k := log2Frac num den
  let one := 2 ^ fixBits
  let signed (y : Nat) : Int := if neg then -(y : Int) else y
  match n with
  | 0 =>
    let y := den * one / num
    if num * 2 ^ 128 <= den then (signBit fmtF32 neg + infCode fmtF32, flOF + flNX)
    else if isPow2 m && k <= 126 then roundFrac fmtF32 0 neg den num
    else approx free (signed y) (fixUlp y)
  | 1 =>
    if neg then (canonNaN fmtF32, flNV)
    else if isPow2 m && k % 2 = 0 then
      let (a, b) := scaleFrac 1 1 (-(k / 2))
      roundFrac fmtF32 0 false a b
    else
      let y := isqrtGo (den * one * one / num) (fixBits + 80) 0
      approx free y (2 * fixUlp y)
  | 2 => if neg then (canonNaN fmtF32, flNV) else fsqrtPos mode m e
  | 3 =>
    if !neg && 7 <= k then (infCode fmtF32, flOF + flNX)
    else if num % den = 0 && (!neg || num / den <= 126) then
      let i : Int := if neg then -((num / den : Nat) : Int) else (num / den : Nat)
      let (a, b) := scaleFrac 1 1 i
      roundFrac fmtF32 0 false a b
    else
      let y := fixEx2 neg (fixLevel m e)
      approx free y (2 * fixUlp y)
  | 4 =>
    if neg then (canonNaN fmtF32, flNV)
    else if isPow2 m then ofInt fmtF32 0 k
    else
      let y := fixLg2 num den k
      let within2 := k = 0 || k = -1
      approx free y (if within2 then 2 ^ (fixBits - 22) else 2 * fixUlp y.natAbs)
  | 5 => approx free (let y := fixSin (fixOf m e); if neg then -y else y) (2 ^ (fixBits - 21))
  | 6 => approx free (fixCos (fixOf m e)) (2 ^ (fixBits - 21))
  | 7 =>
    let y := if k < -40 then fixTanhSmall (fixOf m e) else fixTanh (fixLevel m e)
    approx free (signed y) (2 * fixUlp y)
  | _ =>
    let y := fixSigm neg (fixLevel m e)
    approx free y (2 * fixUlp y)

/-- SFU function n (R315, R316). -/
def sfu (n mode : Nat) (x : Word) : Nat × Nat :=
  let inf := infCode fmtF32
  let nan := canonNaN fmtF32
  let one := 0x3F800000
  match fdec fmtF32 x.toNat with
  | .nan s => (nan, if s then flNV else 0)
  | .inf false => match n with
    | 0 | 1 => (0, 0)
    | 2 | 3 | 4 => (inf, 0)
    | 5 | 6 => (nan, flNV)
    | _ => (one, 0)
  | .inf true => match n with
    | 0 => (2 ^ 31, 0)
    | 1 | 2 | 4 | 5 | 6 => (nan, flNV)
    | 3 | 8 => (0, 0)
    | _ => (2 ^ 31 + one, 0)
  | .fin neg m e =>
    if m = 0 then
      match n with
      | 0 | 1 => (signBit fmtF32 neg + inf, flDZ)
      | 2 | 5 | 7 => (signBit fmtF32 neg, 0)
      | 3 | 6 => (one, 0)
      | 4 => (2 ^ 31 + inf, flDZ)
      | _ => (0x3F000000, 0)
    else sfuFinite n mode x neg m e

end Sys2Proof.Machine
end

