-- ==== Sys2Proof/Machine/FloatOps.lean ====
section
/-!
DEFINITION. Floating-point, conversion and quantization instructions (R304 to R320).
-/
namespace Sys2Proof.Machine

/-- An FP32 or narrower result with its flags. -/
def Thread.fresult (th : Thread) (w : Bool) (d : Nat) (r : Nat × Nat) : Thread :=
  (th.orFlags r.2).result w d (BitVec.ofNat 32 r.1)

/-- An integer result with its flags (R314). -/
def Thread.iresult (th : Thread) (w : Bool) (d : Nat) (r : Int × Nat) : Thread :=
  (th.orFlags r.2).result w d (BitVec.ofInt 32 r.1)

/-- An FP64 result with its flags. -/
def Thread.dresult (th : Thread) (w : Bool) (d : Nat) (r : Nat × Nat) : Thread :=
  (th.orFlags r.2).result64 w d (BitVec.ofNat 64 r.1)

/-- A new range state in the pair at d (R317); its low word is pushed. -/
def Thread.foldResult (th : Thread) (d : Nat) (xs : List Word) : Thread :=
  let (lo, hi) := foldRange (th.reg d) (th.reg (d + 1)) xs
  th.result64 false d (hi ++ lo)

/-- Bounds of the integer conversions (R314). -/
def i32Min : Int := -2147483648
/-- Largest INT32. -/
def i32Max : Int := 2147483647
/-- Largest unsigned 32-bit value. -/
def u32Max : Int := 4294967295

/-- A two-source FP32 word rounded in the thread's direction (R306). -/
def falu2 (i : Instr) (w : Bool) (d : BitVec 6) (s t : BitVec 7) (p : BitVec 3) (f : Nat → Nat → Nat → Nat × Nat)
    (st : State) : Res :=
  aluWord i p (fun th => th.fresult w d.toNat (f th.mode (th.fsrc s).toNat (th.fsrc t).toNat)) st

/-- A packed word: two elements, flags ORed (R310). -/
def packed2 (i : Instr) (fm : Fmt) (w : Bool) (d : BitVec 6) (s t : BitVec 7) (p : BitVec 3)
    (f : Nat → Nat → Nat → Nat → Nat × Nat) (st : State) : Res :=
  aluWord i p (fun th =>
    let a := (th.hsrc fm s).toNat
    let b := (th.hsrc fm t).toNat
    let c := (th.reg d.toNat).toNat
    let lo := f th.mode (a % 2 ^ 16) (b % 2 ^ 16) (c % 2 ^ 16)
    let hi := f th.mode (a / 2 ^ 16) (b / 2 ^ 16) (c / 2 ^ 16)
    th.fresult w d.toNat (lo.1 + hi.1 * 2 ^ 16, lo.2 ||| hi.2)) st

/-- DQ's value and flags (R320). -/
def dqWord (c w : Word) : Nat × Nat :=
  let n4 := w.getLsbD 24
  let q := if n4 then c.toNat % 16 else c.toNat % 256
  if w.toNat / 2 ^ 25 != 0 then (canonNaN fmtF32, flNV + flRC)
  else dequant q (w.toNat / 2 ^ 16 % 256) (if n4 then 15 else 255) (w.toNat % 2 ^ 16)

/-- FADD (R306).  -/
def execFadd (c : Bool) (w : Bool) (d : BitVec 6) (s : BitVec 7) (t : BitVec 7) (p : BitVec 3) (st : State) : Res :=
  falu2 (.fadd c w d s t p) w d s t p (fun md a b => fadd fmtF32 md a b) st

/-- FSUB (R306).  -/
def execFsub (c : Bool) (w : Bool) (d : BitVec 6) (s : BitVec 7) (t : BitVec 7) (p : BitVec 3) (st : State) : Res :=
  falu2 (.fsub c w d s t p) w d s t p (fun md a b => fsub fmtF32 md a b) st

/-- FMUL (R306).  -/
def execFmul (c : Bool) (w : Bool) (d : BitVec 6) (s : BitVec 7) (t : BitVec 7) (p : BitVec 3) (st : State) : Res :=
  falu2 (.fmul c w d s t p) w d s t p (fun md a b => fmul fmtF32 md a b) st

/-- FFMA (R306).  -/
def execFfma (c : Bool) (d : BitVec 6) (s : BitVec 7) (t : BitVec 7) (p : BitVec 3) (st : State) : Res :=
  aluWord (.ffma c d s t p) p (fun th =>
    th.fresult false d.toNat (ffma fmtF32 th.mode (th.fsrc s).toNat (th.fsrc t).toNat (th.reg d.toNat).toNat)) st

/-- FMIN (R307).  -/
def execFmin (c : Bool) (w : Bool) (d : BitVec 6) (s : BitVec 7) (t : BitVec 7) (p : BitVec 3) (st : State) : Res :=
  aluWord (.fmin c w d s t p) p (fun th => th.fresult w d.toNat (fminmax true (th.fsrc s) (th.fsrc t))) st

/-- FMAX (R307).  -/
def execFmax (c : Bool) (w : Bool) (d : BitVec 6) (s : BitVec 7) (t : BitVec 7) (p : BitVec 3) (st : State) : Res :=
  aluWord (.fmax c w d s t p) p (fun th => th.fresult w d.toNat (fminmax false (th.fsrc s) (th.fsrc t))) st

/-- FCMP (R308).  -/
def execFcmp (c : Bool) (k : BitVec 3) (q : BitVec 3) (s : BitVec 7) (t : BitVec 7) (p : BitVec 3) (st : State) : Res :=
  aluWord (.fcmp c k q s t p) p (fun th =>
    let (b, fl) := fcond k.toNat (th.fsrc s) (th.fsrc t)
    (th.orFlags fl).resultPred q.toNat b) st

/-- FSGN (R309).  -/
def execFsgn (c : Bool) (w : Bool) (d : BitVec 6) (s : BitVec 7) (t : BitVec 7) (p : BitVec 3) (st : State) : Res :=
  aluWord (.fsgn c w d s t p) p (fun th =>
    th.result w d.toNat ((th.fsrc t).extractLsb' 31 1 ++ (th.fsrc s).extractLsb' 0 31)) st

/-- HADD2 (R310).  -/
def execHadd2 (c : Bool) (w : Bool) (d : BitVec 6) (s : BitVec 7) (t : BitVec 7) (p : BitVec 3) (st : State) : Res :=
  packed2 (.hadd2 c w d s t p) fmtF16 w d s t p (fun md a b _ => fadd fmtF16 md a b) st

/-- HMUL2 (R310).  -/
def execHmul2 (c : Bool) (w : Bool) (d : BitVec 6) (s : BitVec 7) (t : BitVec 7) (p : BitVec 3) (st : State) : Res :=
  packed2 (.hmul2 c w d s t p) fmtF16 w d s t p (fun md a b _ => fmul fmtF16 md a b) st

/-- HFMA2 (R310).  -/
def execHfma2 (c : Bool) (d : BitVec 6) (s : BitVec 7) (t : BitVec 7) (p : BitVec 3) (st : State) : Res :=
  packed2 (.hfma2 c d s t p) fmtF16 false d s t p (fun md a b c => ffma fmtF16 md a b c) st

/-- BADD2 (R310).  -/
def execBadd2 (c : Bool) (w : Bool) (d : BitVec 6) (s : BitVec 7) (t : BitVec 7) (p : BitVec 3) (st : State) : Res :=
  packed2 (.badd2 c w d s t p) fmtBF16 w d s t p (fun md a b _ => fadd fmtBF16 md a b) st

/-- BMUL2 (R310).  -/
def execBmul2 (c : Bool) (w : Bool) (d : BitVec 6) (s : BitVec 7) (t : BitVec 7) (p : BitVec 3) (st : State) : Res :=
  packed2 (.bmul2 c w d s t p) fmtBF16 w d s t p (fun md a b _ => fmul fmtBF16 md a b) st

/-- BFMA2 (R310).  -/
def execBfma2 (c : Bool) (d : BitVec 6) (s : BitVec 7) (t : BitVec 7) (p : BitVec 3) (st : State) : Res :=
  packed2 (.bfma2 c d s t p) fmtBF16 false d s t p (fun md a b c => ffma fmtBF16 md a b c) st

/-- DADD (R311).  -/
def execDadd (c : Bool) (w : Bool) (d : BitVec 6) (s : BitVec 7) (t : BitVec 7) (p : BitVec 3) (st : State) : Res :=
  aluWord (.dadd c w d s t p) p (fun th =>
    th.dresult w d.toNat (fadd fmtF64 th.mode (th.dsrc s).toNat (th.dsrc t).toNat)) st

/-- DMUL (R311).  -/
def execDmul (c : Bool) (w : Bool) (d : BitVec 6) (s : BitVec 7) (t : BitVec 7) (p : BitVec 3) (st : State) : Res :=
  aluWord (.dmul c w d s t p) p (fun th =>
    th.dresult w d.toNat (fmul fmtF64 th.mode (th.dsrc s).toNat (th.dsrc t).toNat)) st

/-- DFMA (R311).  -/
def execDfma (c : Bool) (d : BitVec 6) (s : BitVec 7) (t : BitVec 7) (p : BitVec 3) (st : State) : Res :=
  aluWord (.dfma c d s t p) p (fun th =>
    th.dresult false d.toNat (ffma fmtF64 th.mode (th.dsrc s).toNat (th.dsrc t).toNat (th.pair d.toNat).toNat)) st

/-- CVT_I32_F32 (R313).  -/
def execCvtI32F32 (c : Bool) (w : Bool) (d : BitVec 6) (s : BitVec 7) (p : BitVec 3) (st : State) : Res :=
  aluWord (.cvtI32F32 c w d s p) p (fun th => th.fresult w d.toNat (ofInt fmtF32 th.mode (th.src s).toInt)) st

/-- CVT_U32_F32 (R313).  -/
def execCvtU32F32 (c : Bool) (w : Bool) (d : BitVec 6) (s : BitVec 7) (p : BitVec 3) (st : State) : Res :=
  aluWord (.cvtU32F32 c w d s p) p (fun th => th.fresult w d.toNat (ofInt fmtF32 th.mode (th.src s).toNat)) st

/-- CVT_F32_I32 (R314).  -/
def execCvtF32I32 (c : Bool) (w : Bool) (d : BitVec 6) (s : BitVec 7) (p : BitVec 3) (st : State) : Res :=
  aluWord (.cvtF32I32 c w d s p) p (fun th => th.iresult w d.toNat (toIntV th.mode i32Min i32Max (fdec fmtF32 (th.fsrc s).toNat))) st

/-- CVT_F32_I32_RZ (R314).  -/
def execCvtF32I32Rz (c : Bool) (w : Bool) (d : BitVec 6) (s : BitVec 7) (p : BitVec 3) (st : State) : Res :=
  aluWord (.cvtF32I32Rz c w d s p) p (fun th => th.iresult w d.toNat (toIntV 1 i32Min i32Max (fdec fmtF32 (th.fsrc s).toNat))) st

/-- CVT_F32_U32 (R314).  -/
def execCvtF32U32 (c : Bool) (w : Bool) (d : BitVec 6) (s : BitVec 7) (p : BitVec 3) (st : State) : Res :=
  aluWord (.cvtF32U32 c w d s p) p (fun th => th.iresult w d.toNat (toIntV th.mode 0 u32Max (fdec fmtF32 (th.fsrc s).toNat))) st

/-- CVT_F32_U32_RZ (R314).  -/
def execCvtF32U32Rz (c : Bool) (w : Bool) (d : BitVec 6) (s : BitVec 7) (p : BitVec 3) (st : State) : Res :=
  aluWord (.cvtF32U32Rz c w d s p) p (fun th => th.iresult w d.toNat (toIntV 1 0 u32Max (fdec fmtF32 (th.fsrc s).toNat))) st

/-- CVT_F64_I32 (R314).  -/
def execCvtF64I32 (c : Bool) (w : Bool) (d : BitVec 6) (s : BitVec 7) (p : BitVec 3) (st : State) : Res :=
  aluWord (.cvtF64I32 c w d s p) p (fun th => th.iresult w d.toNat (toIntV th.mode i32Min i32Max (fdec fmtF64 (th.dsrc s).toNat))) st

/-- CVT_F64_I32_RZ (R314).  -/
def execCvtF64I32Rz (c : Bool) (w : Bool) (d : BitVec 6) (s : BitVec 7) (p : BitVec 3) (st : State) : Res :=
  aluWord (.cvtF64I32Rz c w d s p) p (fun th => th.iresult w d.toNat (toIntV 1 i32Min i32Max (fdec fmtF64 (th.dsrc s).toNat))) st

/-- CVT_F32_F16 (R313).  -/
def execCvtF32F16 (c : Bool) (d : BitVec 6) (s : BitVec 7) (p : BitVec 3) (st : State) : Res :=
  aluWord (.cvtF32F16 c d s p) p (fun th => 
    let (c, fl) := fconv fmtF32 fmtF16 th.mode (th.fsrc s).toNat
    (th.orFlags fl).result false d.toNat ((th.reg d.toNat >>> 16) ||| BitVec.ofNat 32 (c * 2 ^ 16))) st

/-- CVT_F32_BF16 (R313).  -/
def execCvtF32Bf16 (c : Bool) (d : BitVec 6) (s : BitVec 7) (p : BitVec 3) (st : State) : Res :=
  aluWord (.cvtF32Bf16 c d s p) p (fun th => 
    let (c, fl) := fconv fmtF32 fmtBF16 th.mode (th.fsrc s).toNat
    (th.orFlags fl).result false d.toNat ((th.reg d.toNat >>> 16) ||| BitVec.ofNat 32 (c * 2 ^ 16))) st

/-- CVT_F32_E4M3 (R313).  -/
def execCvtF32E4m3 (c : Bool) (d : BitVec 6) (s : BitVec 7) (p : BitVec 3) (st : State) : Res :=
  aluWord (.cvtF32E4m3 c d s p) p (fun th => 
    let (c, fl) := fconv fmtF32 fmtE4M3 th.mode (th.fsrc s).toNat
    (th.orFlags fl).result false d.toNat ((th.reg d.toNat >>> 8) ||| BitVec.ofNat 32 (c * 2 ^ 24))) st

/-- CVT_F32_E5M2 (R313).  -/
def execCvtF32E5m2 (c : Bool) (d : BitVec 6) (s : BitVec 7) (p : BitVec 3) (st : State) : Res :=
  aluWord (.cvtF32E5m2 c d s p) p (fun th => 
    let (c, fl) := fconv fmtF32 fmtE5M2 th.mode (th.fsrc s).toNat
    (th.orFlags fl).result false d.toNat ((th.reg d.toNat >>> 8) ||| BitVec.ofNat 32 (c * 2 ^ 24))) st

/-- CVT_F16_F32 (R313).  -/
def execCvtF16F32 (c : Bool) (w : Bool) (d : BitVec 6) (s : BitVec 7) (h : Bool) (p : BitVec 3) (st : State) : Res :=
  aluWord (.cvtF16F32 c w d s h p) p (fun th => th.fresult w d.toNat (fconv fmtF16 fmtF32 0 ((th.src s).toNat / 2 ^ (if h then 16 else 0) % 2 ^ 16))) st

/-- CVT_BF16_F32 (R313).  -/
def execCvtBf16F32 (c : Bool) (w : Bool) (d : BitVec 6) (s : BitVec 7) (h : Bool) (p : BitVec 3) (st : State) : Res :=
  aluWord (.cvtBf16F32 c w d s h p) p (fun th => th.fresult w d.toNat (fconv fmtBF16 fmtF32 0 ((th.src s).toNat / 2 ^ (if h then 16 else 0) % 2 ^ 16))) st

/-- CVT_E4M3_F32 (R313).  -/
def execCvtE4m3F32 (c : Bool) (w : Bool) (d : BitVec 6) (s : BitVec 7) (j : BitVec 2) (p : BitVec 3) (st : State) : Res :=
  aluWord (.cvtE4m3F32 c w d s j p) p (fun th => th.fresult w d.toNat (fconv fmtE4M3 fmtF32 0 ((th.src s).toNat / 2 ^ (8 * j.toNat) % 2 ^ 8))) st

/-- CVT_E5M2_F32 (R313).  -/
def execCvtE5m2F32 (c : Bool) (w : Bool) (d : BitVec 6) (s : BitVec 7) (j : BitVec 2) (p : BitVec 3) (st : State) : Res :=
  aluWord (.cvtE5m2F32 c w d s j p) p (fun th => th.fresult w d.toNat (fconv fmtE5M2 fmtF32 0 ((th.src s).toNat / 2 ^ (8 * j.toNat) % 2 ^ 8))) st

/-- CVT_F32_F64 (R313).  -/
def execCvtF32F64 (c : Bool) (w : Bool) (d : BitVec 6) (s : BitVec 7) (p : BitVec 3) (st : State) : Res :=
  aluWord (.cvtF32F64 c w d s p) p (fun th => th.dresult w d.toNat (fconv fmtF32 fmtF64 0 (th.fsrc s).toNat)) st

/-- CVT_F64_F32 (R313).  -/
def execCvtF64F32 (c : Bool) (w : Bool) (d : BitVec 6) (s : BitVec 7) (p : BitVec 3) (st : State) : Res :=
  aluWord (.cvtF64F32 c w d s p) p (fun th => th.fresult w d.toNat (fconv fmtF64 fmtF32 th.mode (th.dsrc s).toNat)) st

/-- CVT_I32_F64 (R313).  -/
def execCvtI32F64 (c : Bool) (w : Bool) (d : BitVec 6) (s : BitVec 7) (p : BitVec 3) (st : State) : Res :=
  aluWord (.cvtI32F64 c w d s p) p (fun th => th.dresult w d.toNat (ofInt fmtF64 0 (th.src s).toInt)) st

/-- SFU_RCP (R315).  -/
def execSfuRcp (c : Bool) (w : Bool) (d : BitVec 6) (s : BitVec 7) (p : BitVec 3) (st : State) : Res :=
  aluWord (.sfuRcp c w d s p) p (fun th => th.fresult w d.toNat (sfu 0 th.mode (th.fsrc s))) st

/-- SFU_RSQ (R315).  -/
def execSfuRsq (c : Bool) (w : Bool) (d : BitVec 6) (s : BitVec 7) (p : BitVec 3) (st : State) : Res :=
  aluWord (.sfuRsq c w d s p) p (fun th => th.fresult w d.toNat (sfu 1 th.mode (th.fsrc s))) st

/-- SFU_SQRT (R315).  -/
def execSfuSqrt (c : Bool) (w : Bool) (d : BitVec 6) (s : BitVec 7) (p : BitVec 3) (st : State) : Res :=
  aluWord (.sfuSqrt c w d s p) p (fun th => th.fresult w d.toNat (sfu 2 th.mode (th.fsrc s))) st

/-- SFU_EX2 (R315).  -/
def execSfuEx2 (c : Bool) (w : Bool) (d : BitVec 6) (s : BitVec 7) (p : BitVec 3) (st : State) : Res :=
  aluWord (.sfuEx2 c w d s p) p (fun th => th.fresult w d.toNat (sfu 3 th.mode (th.fsrc s))) st

/-- SFU_LG2 (R315).  -/
def execSfuLg2 (c : Bool) (w : Bool) (d : BitVec 6) (s : BitVec 7) (p : BitVec 3) (st : State) : Res :=
  aluWord (.sfuLg2 c w d s p) p (fun th => th.fresult w d.toNat (sfu 4 th.mode (th.fsrc s))) st

/-- SFU_SIN (R315).  -/
def execSfuSin (c : Bool) (w : Bool) (d : BitVec 6) (s : BitVec 7) (p : BitVec 3) (st : State) : Res :=
  aluWord (.sfuSin c w d s p) p (fun th => th.fresult w d.toNat (sfu 5 th.mode (th.fsrc s))) st

/-- SFU_COS (R315).  -/
def execSfuCos (c : Bool) (w : Bool) (d : BitVec 6) (s : BitVec 7) (p : BitVec 3) (st : State) : Res :=
  aluWord (.sfuCos c w d s p) p (fun th => th.fresult w d.toNat (sfu 6 th.mode (th.fsrc s))) st

/-- SFU_TANH (R315).  -/
def execSfuTanh (c : Bool) (w : Bool) (d : BitVec 6) (s : BitVec 7) (p : BitVec 3) (st : State) : Res :=
  aluWord (.sfuTanh c w d s p) p (fun th => th.fresult w d.toNat (sfu 7 th.mode (th.fsrc s))) st

/-- SFU_SIGM (R315).  -/
def execSfuSigm (c : Bool) (w : Bool) (d : BitVec 6) (s : BitVec 7) (p : BitVec 3) (st : State) : Res :=
  aluWord (.sfuSigm c w d s p) p (fun th => th.fresult w d.toNat (sfu 8 th.mode (th.fsrc s))) st

/-- QSC4_FOLD (R317).  -/
def execQsc4Fold (c : Bool) (d : BitVec 6) (s : BitVec 7) (p : BitVec 3) (st : State) : Res :=
  aluWord (.qsc4Fold c d s p) p (fun th => th.foldResult d.toNat [th.fsrc s]) st

/-- QSC4_MERGE (R317).  -/
def execQsc4Merge (c : Bool) (d : BitVec 6) (s : BitVec 7) (p : BitVec 3) (st : State) : Res :=
  aluWord (.qsc4Merge c d s p) p (fun th => th.foldResult d.toNat [th.reg s.toNat, th.reg (s.toNat + 1)]) st

/-- QSC4_SCALE (R317).  -/
def execQsc4Scale (c : Bool) (w : Bool) (d : BitVec 6) (s : BitVec 7) (p : BitVec 3) (st : State) : Res :=
  aluWord (.qsc4Scale c w d s p) p (fun th => 
    let (sc, z, fl) := quantScale 15 (th.reg s.toNat) (th.reg (s.toNat + 1))
    (th.orFlags fl).result w d.toNat (BitVec.ofNat 32 (sc + z * 2 ^ 16 + 2 ^ 24))) st

/-- QNT4 (R319).  -/
def execQnt4 (c : Bool) (d : BitVec 6) (s : BitVec 7) (t : BitVec 7) (p : BitVec 3) (st : State) : Res :=
  aluWord (.qnt4 c d s t p) p (fun th => 
    let (c, fl) := quantCode 15 (th.fsrc s) (th.src t)
    (th.orFlags fl).result false d.toNat ((th.reg d.toNat >>> 4) ||| BitVec.ofNat 32 (c * 2 ^ 28))) st

/-- QSC8_FOLD (R317).  -/
def execQsc8Fold (c : Bool) (d : BitVec 6) (s : BitVec 7) (p : BitVec 3) (st : State) : Res :=
  aluWord (.qsc8Fold c d s p) p (fun th => th.foldResult d.toNat [th.fsrc s]) st

/-- QSC8_MERGE (R317).  -/
def execQsc8Merge (c : Bool) (d : BitVec 6) (s : BitVec 7) (p : BitVec 3) (st : State) : Res :=
  aluWord (.qsc8Merge c d s p) p (fun th => th.foldResult d.toNat [th.reg s.toNat, th.reg (s.toNat + 1)]) st

/-- QSC8_SCALE (R317).  -/
def execQsc8Scale (c : Bool) (w : Bool) (d : BitVec 6) (s : BitVec 7) (p : BitVec 3) (st : State) : Res :=
  aluWord (.qsc8Scale c w d s p) p (fun th => 
    let (sc, z, fl) := quantScale 255 (th.reg s.toNat) (th.reg (s.toNat + 1))
    (th.orFlags fl).result w d.toNat (BitVec.ofNat 32 (sc + z * 2 ^ 16))) st

/-- QNT8 (R319).  -/
def execQnt8 (c : Bool) (d : BitVec 6) (s : BitVec 7) (t : BitVec 7) (p : BitVec 3) (st : State) : Res :=
  aluWord (.qnt8 c d s t p) p (fun th => 
    let (c, fl) := quantCode 255 (th.fsrc s) (th.src t)
    (th.orFlags fl).result false d.toNat ((th.reg d.toNat >>> 8) ||| BitVec.ofNat 32 (c * 2 ^ 24))) st

/-- DQ (R320).  -/
def execDq (c : Bool) (w : Bool) (d : BitVec 6) (s : BitVec 7) (t : BitVec 7) (p : BitVec 3) (st : State) : Res :=
  aluWord (.dq c w d s t p) p (fun th => 
    th.fresult w d.toNat (dqWord (th.src s) (th.src t))) st

/-- FCLASS_F32 (R312).  -/
def execFclassF32 (c : Bool) (w : Bool) (d : BitVec 6) (s : BitVec 7) (p : BitVec 3) (st : State) : Res :=
  aluWord (.fclassF32 c w d s p) p (fun th => th.result w d.toNat (BitVec.ofNat 32 (fclass fmtF32 (th.fsrc s).toNat))) st

/-- FCLASS_F16 (R312).  -/
def execFclassF16 (c : Bool) (w : Bool) (d : BitVec 6) (s : BitVec 7) (p : BitVec 3) (st : State) : Res :=
  aluWord (.fclassF16 c w d s p) p (fun th => th.result w d.toNat (BitVec.ofNat 32 (fclass fmtF16 ((th.src s).toNat % 2 ^ 16)))) st

/-- FCLASS_BF16 (R312).  -/
def execFclassBf16 (c : Bool) (w : Bool) (d : BitVec 6) (s : BitVec 7) (p : BitVec 3) (st : State) : Res :=
  aluWord (.fclassBf16 c w d s p) p (fun th => th.result w d.toNat (BitVec.ofNat 32 (fclass fmtBF16 ((th.src s).toNat % 2 ^ 16)))) st

/-- FCLASS_F64 (R312).  -/
def execFclassF64 (c : Bool) (w : Bool) (d : BitVec 6) (s : BitVec 7) (p : BitVec 3) (st : State) : Res :=
  aluWord (.fclassF64 c w d s p) p (fun th => th.result w d.toNat (BitVec.ofNat 32 (fclass fmtF64 (th.dsrc s).toNat))) st

/-- FCLASS_E4M3 (R312).  -/
def execFclassE4m3 (c : Bool) (w : Bool) (d : BitVec 6) (s : BitVec 7) (p : BitVec 3) (st : State) : Res :=
  aluWord (.fclassE4m3 c w d s p) p (fun th => th.result w d.toNat (BitVec.ofNat 32 (fclass fmtE4M3 ((th.src s).toNat % 2 ^ 8)))) st

/-- FCLASS_E5M2 (R312).  -/
def execFclassE5m2 (c : Bool) (w : Bool) (d : BitVec 6) (s : BitVec 7) (p : BitVec 3) (st : State) : Res :=
  aluWord (.fclassE5m2 c w d s p) p (fun th => th.result w d.toNat (BitVec.ofNat 32 (fclass fmtE5M2 ((th.src s).toNat % 2 ^ 8)))) st

end Sys2Proof.Machine
end

