-- ==== Sys2Proof/Machine/Integer.lean ====
section
/-!
DEFINITION. Integer, address and predicate instructions (R286 to R298).
-/
namespace Sys2Proof.Machine

/-- A two-source integer word (R288): W may suppress the write, the result is pushed. -/
def alu2 (i : Instr) (w : Bool) (d : BitVec 6) (s t : BitVec 7) (p : BitVec 3) (f : Word → Word → Word) (st : State) : Res :=
  aluWord i p (fun th => th.result w d.toNat (f (th.src s) (th.src t))) st

/-- Number of one bits (R291). -/
def popc (a : Word) : Word := BitVec.ofNat 32 ((List.range 32).countP fun k => a.getLsbD k)

/-- Zero bits above the highest one bit; 32 for zero (R291). -/
def clz (a : Word) : Word := if a = 0 then 32 else BitVec.ofNat 32 (31 - Nat.log2 a.toNat)

/-- One byte of PRMB (R292). -/
def prmbByte (a b : Word) (k : Nat) : Nat :=
  let c := b.toNat / 2 ^ (4 * k) % 16
  let x := a.toNat / 2 ^ (8 * (c % 4)) % 256
  if c / 4 % 2 = 1 then 0 else if c / 8 = 1 then (if 128 <= x then 255 else 0) else x

/-- PRMB's result (R292). -/
def prmb (a b : Word) : Word :=
  BitVec.ofNat 32 (prmbByte a b 0 + prmbByte a b 1 * 2 ^ 8 + prmbByte a b 2 * 2 ^ 16 + prmbByte a b 3 * 2 ^ 24)

/-- The sum of four signed byte products (R290). -/
def dot4 (a b : Word) : Word :=
  let term (k : Nat) : Word := (a.extractLsb' (8 * k) 8).signExtend 32 * (b.extractLsb' (8 * k) 8).signExtend 32
  term 0 + term 1 + term 2 + term 3

/-- Conditions of ICMP, ICMP64 and ICMPI (R296). -/
def icond (k : Nat) {n : Nat} (a b : BitVec n) : Bool :=
  match k with
  | 0 => a = b
  | 1 => a != b
  | 2 => a.slt b
  | 3 => a.sle b
  | 4 => b.slt a
  | 5 => b.sle a
  | 6 => a.ult b
  | _ => b.ule a

/-- PLOP's functions (R297). -/
def plopFn (k : Nat) (x y : Bool) : Bool :=
  match k with
  | 0 => x && y
  | 1 => x || y
  | 2 => x != y
  | 3 => x && !y
  | 4 => x || !y
  | 5 => !(x && y)
  | 6 => !(x || y)
  | _ => x == y

/-- IADD (R288).  -/
def execIadd (c : Bool) (w : Bool) (d : BitVec 6) (s : BitVec 7) (t : BitVec 7) (p : BitVec 3) (st : State) : Res :=
  alu2 (.iadd c w d s t p) w d s t p (fun a b => a + b) st

/-- ISUB (R288).  -/
def execIsub (c : Bool) (w : Bool) (d : BitVec 6) (s : BitVec 7) (t : BitVec 7) (p : BitVec 3) (st : State) : Res :=
  alu2 (.isub c w d s t p) w d s t p (fun a b => a - b) st

/-- IMUL (R288).  -/
def execImul (c : Bool) (w : Bool) (d : BitVec 6) (s : BitVec 7) (t : BitVec 7) (p : BitVec 3) (st : State) : Res :=
  alu2 (.imul c w d s t p) w d s t p (fun a b => a * b) st

/-- IMULH (R288).  -/
def execImulh (c : Bool) (w : Bool) (d : BitVec 6) (s : BitVec 7) (t : BitVec 7) (p : BitVec 3) (st : State) : Res :=
  alu2 (.imulh c w d s t p) w d s t p (fun a b => ((a.signExtend 64) * (b.signExtend 64)).extractLsb' 32 32) st

/-- IMULHU (R288).  -/
def execImulhu (c : Bool) (w : Bool) (d : BitVec 6) (s : BitVec 7) (t : BitVec 7) (p : BitVec 3) (st : State) : Res :=
  alu2 (.imulhu c w d s t p) w d s t p (fun a b => ((a.setWidth 64) * (b.setWidth 64)).extractLsb' 32 32) st

/-- IMIN (R288).  -/
def execImin (c : Bool) (w : Bool) (d : BitVec 6) (s : BitVec 7) (t : BitVec 7) (p : BitVec 3) (st : State) : Res :=
  alu2 (.imin c w d s t p) w d s t p (fun a b => if a.slt b then a else b) st

/-- IMAX (R288).  -/
def execImax (c : Bool) (w : Bool) (d : BitVec 6) (s : BitVec 7) (t : BitVec 7) (p : BitVec 3) (st : State) : Res :=
  alu2 (.imax c w d s t p) w d s t p (fun a b => if a.slt b then b else a) st

/-- UMIN (R288).  -/
def execUmin (c : Bool) (w : Bool) (d : BitVec 6) (s : BitVec 7) (t : BitVec 7) (p : BitVec 3) (st : State) : Res :=
  alu2 (.umin c w d s t p) w d s t p (fun a b => if a.ult b then a else b) st

/-- UMAX (R288).  -/
def execUmax (c : Bool) (w : Bool) (d : BitVec 6) (s : BitVec 7) (t : BitVec 7) (p : BitVec 3) (st : State) : Res :=
  alu2 (.umax c w d s t p) w d s t p (fun a b => if a.ult b then b else a) st

/-- AND (R288).  -/
def execAnd (c : Bool) (w : Bool) (d : BitVec 6) (s : BitVec 7) (t : BitVec 7) (p : BitVec 3) (st : State) : Res :=
  alu2 (.and c w d s t p) w d s t p (fun a b => a &&& b) st

/-- OR (R288).  -/
def execOr (c : Bool) (w : Bool) (d : BitVec 6) (s : BitVec 7) (t : BitVec 7) (p : BitVec 3) (st : State) : Res :=
  alu2 (.or c w d s t p) w d s t p (fun a b => a ||| b) st

/-- XOR (R288).  -/
def execXor (c : Bool) (w : Bool) (d : BitVec 6) (s : BitVec 7) (t : BitVec 7) (p : BitVec 3) (st : State) : Res :=
  alu2 (.xor c w d s t p) w d s t p (fun a b => a ^^^ b) st

/-- ANDN (R288).  -/
def execAndn (c : Bool) (w : Bool) (d : BitVec 6) (s : BitVec 7) (t : BitVec 7) (p : BitVec 3) (st : State) : Res :=
  alu2 (.andn c w d s t p) w d s t p (fun a b => a &&& ~~~b) st

/-- SHL (R288).  -/
def execShl (c : Bool) (w : Bool) (d : BitVec 6) (s : BitVec 7) (t : BitVec 7) (p : BitVec 3) (st : State) : Res :=
  alu2 (.shl c w d s t p) w d s t p (fun a b => a <<< (b.toNat % 32)) st

/-- SHR (R288).  -/
def execShr (c : Bool) (w : Bool) (d : BitVec 6) (s : BitVec 7) (t : BitVec 7) (p : BitVec 3) (st : State) : Res :=
  alu2 (.shr c w d s t p) w d s t p (fun a b => a >>> (b.toNat % 32)) st

/-- SAR (R288).  -/
def execSar (c : Bool) (w : Bool) (d : BitVec 6) (s : BitVec 7) (t : BitVec 7) (p : BitVec 3) (st : State) : Res :=
  alu2 (.sar c w d s t p) w d s t p (fun a b => a.sshiftRight (b.toNat % 32)) st

/-- PRMB (R292).  -/
def execPrmb (c : Bool) (w : Bool) (d : BitVec 6) (s : BitVec 7) (t : BitVec 7) (p : BitVec 3) (st : State) : Res :=
  alu2 (.prmb c w d s t p) w d s t p (fun a b => prmb a b) st

/-- POPC (R291).  -/
def execPopc (c : Bool) (w : Bool) (d : BitVec 6) (s : BitVec 7) (p : BitVec 3) (st : State) : Res :=
  aluWord (.popc c w d s p) p (fun th => let a := th.src s; th.result w d.toNat (popc a)) st

/-- CLZ (R291).  -/
def execClz (c : Bool) (w : Bool) (d : BitVec 6) (s : BitVec 7) (p : BitVec 3) (st : State) : Res :=
  aluWord (.clz c w d s p) p (fun th => let a := th.src s; th.result w d.toNat (clz a)) st

/-- BREV (R291).  -/
def execBrev (c : Bool) (w : Bool) (d : BitVec 6) (s : BitVec 7) (p : BitVec 3) (st : State) : Res :=
  aluWord (.brev c w d s p) p (fun th => let a := th.src s; th.result w d.toNat (a.reverse)) st

/-- MOV (R294).  -/
def execMov (c : Bool) (w : Bool) (d : BitVec 6) (s : BitVec 7) (p : BitVec 3) (st : State) : Res :=
  aluWord (.mov c w d s p) p (fun th => let a := th.src s; th.result w d.toNat (a)) st

/-- IADDS (R289). OF when the sum saturates. -/
def execIadds (c : Bool) (w : Bool) (d : BitVec 6) (s : BitVec 7) (t : BitVec 7) (p : BitVec 3) (st : State) : Res :=
  aluWord (.iadds c w d s t p) p (fun th =>
    let (r, sat) := satAdd (th.src s) (th.src t)
    (if sat then th.orFlags flOF else th).result w d.toNat r) st

/-- IMAD (R290).  -/
def execImad (c : Bool) (d : BitVec 6) (s : BitVec 7) (t : BitVec 7) (p : BitVec 3) (st : State) : Res :=
  aluWord (.imad c d s t p) p (fun th => th.result false d.toNat (th.reg d.toNat + th.src s * th.src t)) st

/-- IDOT4 (R290).  -/
def execIdot4 (c : Bool) (d : BitVec 6) (s : BitVec 7) (t : BitVec 7) (p : BitVec 3) (st : State) : Res :=
  aluWord (.idot4 c d s t p) p (fun th => th.result false d.toNat (th.reg d.toNat + dot4 (th.src s) (th.src t))) st

/-- IMADW (R290).  -/
def execImadw (c : Bool) (d : BitVec 6) (s : BitVec 7) (t : BitVec 7) (p : BitVec 3) (st : State) : Res :=
  aluWord (.imadw c d s t p) p (fun th => th.result64 false d.toNat
    (th.pair d.toNat + (th.src s).signExtend 64 * (th.src t).signExtend 64)) st

/-- IADD64 (R293).  -/
def execIadd64 (c : Bool) (w : Bool) (d : BitVec 6) (s : BitVec 7) (t : BitVec 7) (p : BitVec 3) (st : State) : Res :=
  aluWord (.iadd64 c w d s t p) p (fun th => th.result64 w d.toNat (th.src64 s + th.src64 t)) st

/-- ISUB64 (R293).  -/
def execIsub64 (c : Bool) (w : Bool) (d : BitVec 6) (s : BitVec 7) (t : BitVec 7) (p : BitVec 3) (st : State) : Res :=
  aluWord (.isub64 c w d s t p) p (fun th => th.result64 w d.toNat (th.src64 s - th.src64 t)) st

/-- SHL64 (R293).  -/
def execShl64 (c : Bool) (w : Bool) (d : BitVec 6) (s : BitVec 7) (t : BitVec 7) (p : BitVec 3) (st : State) : Res :=
  aluWord (.shl64 c w d s t p) p (fun th => th.result64 w d.toNat (th.src64 s <<< ((th.src t).toNat % 64))) st

/-- SHR64 (R293).  -/
def execShr64 (c : Bool) (w : Bool) (d : BitVec 6) (s : BitVec 7) (t : BitVec 7) (p : BitVec 3) (st : State) : Res :=
  aluWord (.shr64 c w d s t p) p (fun th => th.result64 w d.toNat (th.src64 s >>> ((th.src t).toNat % 64))) st

/-- ICMP (R295).  -/
def execIcmp (c : Bool) (k : BitVec 3) (q : BitVec 3) (s : BitVec 7) (t : BitVec 7) (p : BitVec 3) (st : State) : Res :=
  aluWord (.icmp c k q s t p) p (fun th => th.resultPred q.toNat (icond k.toNat (th.src s) (th.src t))) st

/-- ICMP64 (R295).  -/
def execIcmp64 (c : Bool) (k : BitVec 3) (q : BitVec 3) (s : BitVec 7) (t : BitVec 7) (p : BitVec 3) (st : State) : Res :=
  aluWord (.icmp64 c k q s t p) p (fun th => th.resultPred q.toNat (icond k.toNat (th.src64 s) (th.src64 t))) st

/-- SEL (R294). Unpredicated; k selects. -/
def execSel (c : Bool) (w : Bool) (d : BitVec 6) (s : BitVec 7) (t : BitVec 7) (k : BitVec 3) (st : State) : Res :=
  aluWord (.sel c w d s t k) 0 (fun th => th.result w d.toNat (if th.pred k.toNat then th.src s else th.src t)) st

/-- PLOP (R297).  -/
def execPlop (c : Bool) (f : BitVec 3) (q : BitVec 3) (x : BitVec 3) (y : BitVec 3) (p : BitVec 3) (st : State) : Res :=
  aluWord (.plop c f q x y p) p (fun th => th.resultPred q.toNat (plopFn f.toNat (th.pred x.toNat) (th.pred y.toNat))) st

/-- ADDI (R298).  -/
def execAddi (c : Bool) (d : BitVec 6) (s : BitVec 6) (i : BitVec 12) (st : State) : Res :=
  aluWord (.addi c d s i) 0 (fun th => let a := th.reg s.toNat; th.result false d.toNat (a + i.signExtend 32)) st

/-- MULI (R298).  -/
def execMuli (c : Bool) (d : BitVec 6) (s : BitVec 6) (i : BitVec 12) (st : State) : Res :=
  aluWord (.muli c d s i) 0 (fun th => let a := th.reg s.toNat; th.result false d.toNat (a * i.signExtend 32)) st

/-- ANDI (R298).  -/
def execAndi (c : Bool) (d : BitVec 6) (s : BitVec 6) (i : BitVec 12) (st : State) : Res :=
  aluWord (.andi c d s i) 0 (fun th => let a := th.reg s.toNat; th.result false d.toNat (a &&& i.setWidth 32)) st

/-- ORI (R298).  -/
def execOri (c : Bool) (d : BitVec 6) (s : BitVec 6) (i : BitVec 12) (st : State) : Res :=
  aluWord (.ori c d s i) 0 (fun th => let a := th.reg s.toNat; th.result false d.toNat (a ||| i.setWidth 32)) st

/-- XORI (R298).  -/
def execXori (c : Bool) (d : BitVec 6) (s : BitVec 6) (i : BitVec 12) (st : State) : Res :=
  aluWord (.xori c d s i) 0 (fun th => let a := th.reg s.toNat; th.result false d.toNat (a ^^^ i.setWidth 32)) st

/-- SHLI (R298).  -/
def execShli (c : Bool) (d : BitVec 6) (s : BitVec 6) (i : BitVec 5) (st : State) : Res :=
  aluWord (.shli c d s i) 0 (fun th => let a := th.reg s.toNat; th.result false d.toNat (a <<< i.toNat)) st

/-- SHRI (R298).  -/
def execShri (c : Bool) (d : BitVec 6) (s : BitVec 6) (i : BitVec 5) (st : State) : Res :=
  aluWord (.shri c d s i) 0 (fun th => let a := th.reg s.toNat; th.result false d.toNat (a >>> i.toNat)) st

/-- SARI (R298).  -/
def execSari (c : Bool) (d : BitVec 6) (s : BitVec 6) (i : BitVec 5) (st : State) : Res :=
  aluWord (.sari c d s i) 0 (fun th => let a := th.reg s.toNat; th.result false d.toNat (a.sshiftRight i.toNat)) st

/-- ICMPI (R298).  -/
def execIcmpi (c : Bool) (k : BitVec 3) (q : BitVec 3) (s : BitVec 6) (i : BitVec 12) (st : State) : Res :=
  aluWord (.icmpi c k q s i) 0 (fun th => th.resultPred q.toNat (icond k.toNat (th.reg s.toNat) (i.signExtend 32))) st

/-- MOVK (R48).  -/
def execMovk (c : Bool) (d : BitVec 6) (lit : BitVec 32) (st : State) : Res :=
  aluWord (.movk c d lit) 0 (fun th => th.result false d.toNat lit) st

/-- ADDI64 (R298).  -/
def execAddi64 (c : Bool) (d : BitVec 6) (s : BitVec 6) (i : BitVec 12) (st : State) : Res :=
  aluWord (.addi64 c d s i) 0 (fun th => th.result64 false d.toNat (th.pair s.toNat + i.signExtend 64)) st

end Sys2Proof.Machine
end

