-- ==== Sys2Proof/WellFormed.lean ====
section
/-!
DEFINITION. Well-formed instructions: every field rule of R42 to R55 and R78 holds for a thread with 64 registers, and
the field combinations of R77 and R367.
-/
namespace Sys2Proof

/-- fmt of an MMA form (R365, R367): 0 to 6, and 3 or 4 for BWD and GRAD. -/
def mmaFmtOk : Instr → Bool
  | .mmaFwd _ _ _ _ _ f _ _ | .mmaFwd2 _ _ _ _ _ f _ _ | .mmaFwdk _ _ _ _ _ f _ _ => f != 7
  | .mmaBwd _ _ _ _ _ f _ _ => f = 3 || f = 4
  | .mmaGrad _ _ _ f _ _ => f = 3 || f = 4
  | _ => true

/-- The instruction is one that the decoder gives and every field of which keeps its rule. -/
def wellFormed (i : Instr) : Bool := Machine.fieldCheck 64 i && mmaFmtOk i

/-- `wellFormed` as a proposition. -/
abbrev WellFormed (i : Instr) : Prop := wellFormed i = true

end Sys2Proof
end

