-- ==== Sys2Proof/Decode.lean ====
section
/-!
DEFINITION. The decoder, total on any bytes, and the encoder, both from the encoding tables (R43 to R63, R74 to R79).

The order of checks is R79's: a reserved major opcode, a reserved function or selector value, a combination that is not
an instruction, then the fields.  Checks that depend on a thread's NREG are made at issue (`fieldCheck`).
-/
namespace Sys2Proof

/-- Why a word is not an instruction (R67). -/
inductive DecodeErr where
  | illegalOpcode
  | illegalField
  | repTarget
  /-- Fewer bytes than the instruction has. -/
  | truncated
deriving DecidableEq, Repr

/-- The bits a layout fixes: a word that breaks them has a nonzero reserved bit, a W = 1 or a C = 1 its row forbids. -/
def checked (w : Word) (mask value : Word) (i : Instr) : Except DecodeErr Instr :=
  if w &&& mask = value then .ok i else .error .illegalField

/-- R76 and R77 for MMA: fmt 7, BWD or GRAD with another fmt than 3 or 4, GRAD with keep, are ILLEGAL_OPCODE. -/
def mmaChecked (w : Word) (r : Except DecodeErr Instr) : Except DecodeErr Instr :=
  let fmt := (w.extractLsb' 8 3).toNat
  let fn := (w.extractLsb' 18 3).toNat
  if fmt = 7 || (3 <= fn && !(fmt = 3 || fmt = 4)) || (fn = 4 && w.getLsbD 21) then .error .illegalOpcode else r

/-- Words of major opcode 0x31: the function or selector field decides (R76). -/
def decodeOp31 (w : Word) : Except DecodeErr Instr :=
  match (w.extractLsb' 3 7).toNat with
  | 68 => checked w 0x7F0003F8 0x31000220 (.cvtI32F32 (w.getLsbD 31) (w.getLsbD 23) (w.extractLsb' 17 6) (w.extractLsb' 10 7) (w.extractLsb' 0 3))
  | 69 => checked w 0x7F0003F8 0x31000228 (.cvtU32F32 (w.getLsbD 31) (w.getLsbD 23) (w.extractLsb' 17 6) (w.extractLsb' 10 7) (w.extractLsb' 0 3))
  | 70 => checked w 0x7F0003F8 0x31000230 (.cvtF32I32 (w.getLsbD 31) (w.getLsbD 23) (w.extractLsb' 17 6) (w.extractLsb' 10 7) (w.extractLsb' 0 3))
  | 71 => checked w 0x7F0003F8 0x31000238 (.cvtF32U32 (w.getLsbD 31) (w.getLsbD 23) (w.extractLsb' 17 6) (w.extractLsb' 10 7) (w.extractLsb' 0 3))
  | 72 => checked w 0x7F0003F8 0x31000240 (.cvtF32I32Rz (w.getLsbD 31) (w.getLsbD 23) (w.extractLsb' 17 6) (w.extractLsb' 10 7) (w.extractLsb' 0 3))
  | 73 => checked w 0x7F0003F8 0x31000248 (.cvtF32U32Rz (w.getLsbD 31) (w.getLsbD 23) (w.extractLsb' 17 6) (w.extractLsb' 10 7) (w.extractLsb' 0 3))
  | 74 => checked w 0x7F8003F8 0x31000250 (.cvtF32F16 (w.getLsbD 31) (w.extractLsb' 17 6) (w.extractLsb' 10 7) (w.extractLsb' 0 3))
  | 75 => checked w 0x7F8003F8 0x31000258 (.cvtF32Bf16 (w.getLsbD 31) (w.extractLsb' 17 6) (w.extractLsb' 10 7) (w.extractLsb' 0 3))
  | 76 => checked w 0x7F0003F0 0x31000260 (.cvtF16F32 (w.getLsbD 31) (w.getLsbD 23) (w.extractLsb' 17 6) (w.extractLsb' 10 7) (w.getLsbD 3) (w.extractLsb' 0 3))
  | 77 => checked w 0x7F0003F0 0x31000260 (.cvtF16F32 (w.getLsbD 31) (w.getLsbD 23) (w.extractLsb' 17 6) (w.extractLsb' 10 7) (w.getLsbD 3) (w.extractLsb' 0 3))
  | 78 => checked w 0x7F0003F0 0x31000270 (.cvtBf16F32 (w.getLsbD 31) (w.getLsbD 23) (w.extractLsb' 17 6) (w.extractLsb' 10 7) (w.getLsbD 3) (w.extractLsb' 0 3))
  | 79 => checked w 0x7F0003F0 0x31000270 (.cvtBf16F32 (w.getLsbD 31) (w.getLsbD 23) (w.extractLsb' 17 6) (w.extractLsb' 10 7) (w.getLsbD 3) (w.extractLsb' 0 3))
  | 80 => checked w 0x7F8003F8 0x31000280 (.cvtF32E4m3 (w.getLsbD 31) (w.extractLsb' 17 6) (w.extractLsb' 10 7) (w.extractLsb' 0 3))
  | 81 => checked w 0x7F8003F8 0x31000288 (.cvtF32E5m2 (w.getLsbD 31) (w.extractLsb' 17 6) (w.extractLsb' 10 7) (w.extractLsb' 0 3))
  | 84 => checked w 0x7F0003E0 0x310002A0 (.cvtE4m3F32 (w.getLsbD 31) (w.getLsbD 23) (w.extractLsb' 17 6) (w.extractLsb' 10 7) (w.extractLsb' 3 2) (w.extractLsb' 0 3))
  | 85 => checked w 0x7F0003E0 0x310002A0 (.cvtE4m3F32 (w.getLsbD 31) (w.getLsbD 23) (w.extractLsb' 17 6) (w.extractLsb' 10 7) (w.extractLsb' 3 2) (w.extractLsb' 0 3))
  | 86 => checked w 0x7F0003E0 0x310002A0 (.cvtE4m3F32 (w.getLsbD 31) (w.getLsbD 23) (w.extractLsb' 17 6) (w.extractLsb' 10 7) (w.extractLsb' 3 2) (w.extractLsb' 0 3))
  | 87 => checked w 0x7F0003E0 0x310002A0 (.cvtE4m3F32 (w.getLsbD 31) (w.getLsbD 23) (w.extractLsb' 17 6) (w.extractLsb' 10 7) (w.extractLsb' 3 2) (w.extractLsb' 0 3))
  | 88 => checked w 0x7F0003E0 0x310002C0 (.cvtE5m2F32 (w.getLsbD 31) (w.getLsbD 23) (w.extractLsb' 17 6) (w.extractLsb' 10 7) (w.extractLsb' 3 2) (w.extractLsb' 0 3))
  | 89 => checked w 0x7F0003E0 0x310002C0 (.cvtE5m2F32 (w.getLsbD 31) (w.getLsbD 23) (w.extractLsb' 17 6) (w.extractLsb' 10 7) (w.extractLsb' 3 2) (w.extractLsb' 0 3))
  | 90 => checked w 0x7F0003E0 0x310002C0 (.cvtE5m2F32 (w.getLsbD 31) (w.getLsbD 23) (w.extractLsb' 17 6) (w.extractLsb' 10 7) (w.extractLsb' 3 2) (w.extractLsb' 0 3))
  | 91 => checked w 0x7F0003E0 0x310002C0 (.cvtE5m2F32 (w.getLsbD 31) (w.getLsbD 23) (w.extractLsb' 17 6) (w.extractLsb' 10 7) (w.extractLsb' 3 2) (w.extractLsb' 0 3))
  | 92 => checked w 0x7F0003F8 0x310002E0 (.cvtF32F64 (w.getLsbD 31) (w.getLsbD 23) (w.extractLsb' 17 6) (w.extractLsb' 10 7) (w.extractLsb' 0 3))
  | 93 => checked w 0x7F0003F8 0x310002E8 (.cvtF64F32 (w.getLsbD 31) (w.getLsbD 23) (w.extractLsb' 17 6) (w.extractLsb' 10 7) (w.extractLsb' 0 3))
  | 94 => checked w 0x7F0003F8 0x310002F0 (.cvtI32F64 (w.getLsbD 31) (w.getLsbD 23) (w.extractLsb' 17 6) (w.extractLsb' 10 7) (w.extractLsb' 0 3))
  | 95 => checked w 0x7F0003F8 0x310002F8 (.cvtF64I32 (w.getLsbD 31) (w.getLsbD 23) (w.extractLsb' 17 6) (w.extractLsb' 10 7) (w.extractLsb' 0 3))
  | 96 => checked w 0x7F0003F8 0x31000300 (.cvtF64I32Rz (w.getLsbD 31) (w.getLsbD 23) (w.extractLsb' 17 6) (w.extractLsb' 10 7) (w.extractLsb' 0 3))
  | _ => .error .illegalOpcode

/-- Words of major opcode 0x32: the function or selector field decides (R76). -/
def decodeOp32 (w : Word) : Except DecodeErr Instr :=
  match (w.extractLsb' 3 7).toNat with
  | 68 => checked w 0x7F0003F8 0x32000220 (.sfuRcp (w.getLsbD 31) (w.getLsbD 23) (w.extractLsb' 17 6) (w.extractLsb' 10 7) (w.extractLsb' 0 3))
  | 69 => checked w 0x7F0003F8 0x32000228 (.sfuRsq (w.getLsbD 31) (w.getLsbD 23) (w.extractLsb' 17 6) (w.extractLsb' 10 7) (w.extractLsb' 0 3))
  | 70 => checked w 0x7F0003F8 0x32000230 (.sfuSqrt (w.getLsbD 31) (w.getLsbD 23) (w.extractLsb' 17 6) (w.extractLsb' 10 7) (w.extractLsb' 0 3))
  | 71 => checked w 0x7F0003F8 0x32000238 (.sfuEx2 (w.getLsbD 31) (w.getLsbD 23) (w.extractLsb' 17 6) (w.extractLsb' 10 7) (w.extractLsb' 0 3))
  | 72 => checked w 0x7F0003F8 0x32000240 (.sfuLg2 (w.getLsbD 31) (w.getLsbD 23) (w.extractLsb' 17 6) (w.extractLsb' 10 7) (w.extractLsb' 0 3))
  | 73 => checked w 0x7F0003F8 0x32000248 (.sfuSin (w.getLsbD 31) (w.getLsbD 23) (w.extractLsb' 17 6) (w.extractLsb' 10 7) (w.extractLsb' 0 3))
  | 74 => checked w 0x7F0003F8 0x32000250 (.sfuCos (w.getLsbD 31) (w.getLsbD 23) (w.extractLsb' 17 6) (w.extractLsb' 10 7) (w.extractLsb' 0 3))
  | 75 => checked w 0x7F0003F8 0x32000258 (.sfuTanh (w.getLsbD 31) (w.getLsbD 23) (w.extractLsb' 17 6) (w.extractLsb' 10 7) (w.extractLsb' 0 3))
  | 76 => checked w 0x7F0003F8 0x32000260 (.sfuSigm (w.getLsbD 31) (w.getLsbD 23) (w.extractLsb' 17 6) (w.extractLsb' 10 7) (w.extractLsb' 0 3))
  | _ => .error .illegalOpcode

/-- Words of major opcode 0x34: the function or selector field decides (R76). -/
def decodeOp34 (w : Word) : Except DecodeErr Instr :=
  match (w.extractLsb' 3 7).toNat with
  | 68 => checked w 0x7F8003F8 0x34000220 (.qsc4Fold (w.getLsbD 31) (w.extractLsb' 17 6) (w.extractLsb' 10 7) (w.extractLsb' 0 3))
  | 69 => checked w 0x7F8003F8 0x34000228 (.qsc4Merge (w.getLsbD 31) (w.extractLsb' 17 6) (w.extractLsb' 10 7) (w.extractLsb' 0 3))
  | 70 => checked w 0x7F0003F8 0x34000230 (.qsc4Scale (w.getLsbD 31) (w.getLsbD 23) (w.extractLsb' 17 6) (w.extractLsb' 10 7) (w.extractLsb' 0 3))
  | _ => .error .illegalOpcode

/-- Words of major opcode 0x35: the function or selector field decides (R76). -/
def decodeOp35 (w : Word) : Except DecodeErr Instr :=
  match (w.extractLsb' 3 7).toNat with
  | 68 => checked w 0x7F8003F8 0x35000220 (.qsc8Fold (w.getLsbD 31) (w.extractLsb' 17 6) (w.extractLsb' 10 7) (w.extractLsb' 0 3))
  | 69 => checked w 0x7F8003F8 0x35000228 (.qsc8Merge (w.getLsbD 31) (w.extractLsb' 17 6) (w.extractLsb' 10 7) (w.extractLsb' 0 3))
  | 70 => checked w 0x7F0003F8 0x35000230 (.qsc8Scale (w.getLsbD 31) (w.getLsbD 23) (w.extractLsb' 17 6) (w.extractLsb' 10 7) (w.extractLsb' 0 3))
  | _ => .error .illegalOpcode

/-- Words of major opcode 0x39: the function or selector field decides (R76). -/
def decodeOp39 (w : Word) : Except DecodeErr Instr :=
  match (w.extractLsb' 3 7).toNat with
  | 68 => checked w 0x7F0003F8 0x39000220 (.fclassF32 (w.getLsbD 31) (w.getLsbD 23) (w.extractLsb' 17 6) (w.extractLsb' 10 7) (w.extractLsb' 0 3))
  | 69 => checked w 0x7F0003F8 0x39000228 (.fclassF16 (w.getLsbD 31) (w.getLsbD 23) (w.extractLsb' 17 6) (w.extractLsb' 10 7) (w.extractLsb' 0 3))
  | 70 => checked w 0x7F0003F8 0x39000230 (.fclassBf16 (w.getLsbD 31) (w.getLsbD 23) (w.extractLsb' 17 6) (w.extractLsb' 10 7) (w.extractLsb' 0 3))
  | 71 => checked w 0x7F0003F8 0x39000238 (.fclassF64 (w.getLsbD 31) (w.getLsbD 23) (w.extractLsb' 17 6) (w.extractLsb' 10 7) (w.extractLsb' 0 3))
  | 72 => checked w 0x7F0003F8 0x39000240 (.fclassE4m3 (w.getLsbD 31) (w.getLsbD 23) (w.extractLsb' 17 6) (w.extractLsb' 10 7) (w.extractLsb' 0 3))
  | 73 => checked w 0x7F0003F8 0x39000248 (.fclassE5m2 (w.getLsbD 31) (w.getLsbD 23) (w.extractLsb' 17 6) (w.extractLsb' 10 7) (w.extractLsb' 0 3))
  | _ => .error .illegalOpcode

/-- Words of major opcode 0x60: the function or selector field decides (R76). -/
def decodeOp60 (w : Word) : Except DecodeErr Instr :=
  match (w.extractLsb' 7 5).toNat with
  | 0 => checked w 0x7F000F80 0x60000000 (.amoAdd (w.getLsbD 31) (w.extractLsb' 18 6) (w.extractLsb' 12 6) (w.extractLsb' 5 2) (w.extractLsb' 2 3) (w.extractLsb' 0 2))
  | 1 => checked w 0x7F000F80 0x60000080 (.amoAnd (w.getLsbD 31) (w.extractLsb' 18 6) (w.extractLsb' 12 6) (w.extractLsb' 5 2) (w.extractLsb' 2 3) (w.extractLsb' 0 2))
  | 2 => checked w 0x7F000F80 0x60000100 (.amoOr (w.getLsbD 31) (w.extractLsb' 18 6) (w.extractLsb' 12 6) (w.extractLsb' 5 2) (w.extractLsb' 2 3) (w.extractLsb' 0 2))
  | 3 => checked w 0x7F000F80 0x60000180 (.amoXor (w.getLsbD 31) (w.extractLsb' 18 6) (w.extractLsb' 12 6) (w.extractLsb' 5 2) (w.extractLsb' 2 3) (w.extractLsb' 0 2))
  | 4 => checked w 0x7F000F80 0x60000200 (.amoMin (w.getLsbD 31) (w.extractLsb' 18 6) (w.extractLsb' 12 6) (w.extractLsb' 5 2) (w.extractLsb' 2 3) (w.extractLsb' 0 2))
  | 5 => checked w 0x7F000F80 0x60000280 (.amoMax (w.getLsbD 31) (w.extractLsb' 18 6) (w.extractLsb' 12 6) (w.extractLsb' 5 2) (w.extractLsb' 2 3) (w.extractLsb' 0 2))
  | 6 => checked w 0x7F000F80 0x60000300 (.amoUmin (w.getLsbD 31) (w.extractLsb' 18 6) (w.extractLsb' 12 6) (w.extractLsb' 5 2) (w.extractLsb' 2 3) (w.extractLsb' 0 2))
  | 7 => checked w 0x7F000F80 0x60000380 (.amoUmax (w.getLsbD 31) (w.extractLsb' 18 6) (w.extractLsb' 12 6) (w.extractLsb' 5 2) (w.extractLsb' 2 3) (w.extractLsb' 0 2))
  | 8 => checked w 0x7F000F80 0x60000400 (.amoXchg (w.getLsbD 31) (w.extractLsb' 18 6) (w.extractLsb' 12 6) (w.extractLsb' 5 2) (w.extractLsb' 2 3) (w.extractLsb' 0 2))
  | 9 => checked w 0x7F000F80 0x60000480 (.amoCas (w.getLsbD 31) (w.extractLsb' 18 6) (w.extractLsb' 12 6) (w.extractLsb' 5 2) (w.extractLsb' 2 3) (w.extractLsb' 0 2))
  | 10 => checked w 0x7F000F80 0x60000500 (.amoFadd (w.getLsbD 31) (w.extractLsb' 18 6) (w.extractLsb' 12 6) (w.extractLsb' 5 2) (w.extractLsb' 2 3) (w.extractLsb' 0 2))
  | 11 => checked w 0x7F000F80 0x60000580 (.amoBadd2 (w.getLsbD 31) (w.extractLsb' 18 6) (w.extractLsb' 12 6) (w.extractLsb' 5 2) (w.extractLsb' 2 3) (w.extractLsb' 0 2))
  | 12 => checked w 0x7F000F80 0x60000600 (.amoAdd64 (w.getLsbD 31) (w.extractLsb' 18 6) (w.extractLsb' 12 6) (w.extractLsb' 5 2) (w.extractLsb' 2 3) (w.extractLsb' 0 2))
  | 13 => checked w 0x7F000F80 0x60000680 (.amoXchg64 (w.getLsbD 31) (w.extractLsb' 18 6) (w.extractLsb' 12 6) (w.extractLsb' 5 2) (w.extractLsb' 2 3) (w.extractLsb' 0 2))
  | 14 => checked w 0x7F000F80 0x60000700 (.amoCas64 (w.getLsbD 31) (w.extractLsb' 18 6) (w.extractLsb' 12 6) (w.extractLsb' 5 2) (w.extractLsb' 2 3) (w.extractLsb' 0 2))
  | _ => .error .illegalOpcode

/-- Words of major opcode 0x61: the function or selector field decides (R76). -/
def decodeOp61 (w : Word) : Except DecodeErr Instr :=
  match (w.extractLsb' 7 5).toNat with
  | 0 => checked w 0x7F000F80 0x61000000 (.samoAdd (w.getLsbD 31) (w.extractLsb' 18 6) (w.extractLsb' 12 6) (w.extractLsb' 5 2) (w.extractLsb' 2 3) (w.extractLsb' 0 2))
  | 1 => checked w 0x7F000F80 0x61000080 (.samoAnd (w.getLsbD 31) (w.extractLsb' 18 6) (w.extractLsb' 12 6) (w.extractLsb' 5 2) (w.extractLsb' 2 3) (w.extractLsb' 0 2))
  | 2 => checked w 0x7F000F80 0x61000100 (.samoOr (w.getLsbD 31) (w.extractLsb' 18 6) (w.extractLsb' 12 6) (w.extractLsb' 5 2) (w.extractLsb' 2 3) (w.extractLsb' 0 2))
  | 3 => checked w 0x7F000F80 0x61000180 (.samoXor (w.getLsbD 31) (w.extractLsb' 18 6) (w.extractLsb' 12 6) (w.extractLsb' 5 2) (w.extractLsb' 2 3) (w.extractLsb' 0 2))
  | 4 => checked w 0x7F000F80 0x61000200 (.samoMin (w.getLsbD 31) (w.extractLsb' 18 6) (w.extractLsb' 12 6) (w.extractLsb' 5 2) (w.extractLsb' 2 3) (w.extractLsb' 0 2))
  | 5 => checked w 0x7F000F80 0x61000280 (.samoMax (w.getLsbD 31) (w.extractLsb' 18 6) (w.extractLsb' 12 6) (w.extractLsb' 5 2) (w.extractLsb' 2 3) (w.extractLsb' 0 2))
  | 6 => checked w 0x7F000F80 0x61000300 (.samoUmin (w.getLsbD 31) (w.extractLsb' 18 6) (w.extractLsb' 12 6) (w.extractLsb' 5 2) (w.extractLsb' 2 3) (w.extractLsb' 0 2))
  | 7 => checked w 0x7F000F80 0x61000380 (.samoUmax (w.getLsbD 31) (w.extractLsb' 18 6) (w.extractLsb' 12 6) (w.extractLsb' 5 2) (w.extractLsb' 2 3) (w.extractLsb' 0 2))
  | 8 => checked w 0x7F000F80 0x61000400 (.samoXchg (w.getLsbD 31) (w.extractLsb' 18 6) (w.extractLsb' 12 6) (w.extractLsb' 5 2) (w.extractLsb' 2 3) (w.extractLsb' 0 2))
  | 9 => checked w 0x7F000F80 0x61000480 (.samoCas (w.getLsbD 31) (w.extractLsb' 18 6) (w.extractLsb' 12 6) (w.extractLsb' 5 2) (w.extractLsb' 2 3) (w.extractLsb' 0 2))
  | 10 => checked w 0x7F000F80 0x61000500 (.samoFadd (w.getLsbD 31) (w.extractLsb' 18 6) (w.extractLsb' 12 6) (w.extractLsb' 5 2) (w.extractLsb' 2 3) (w.extractLsb' 0 2))
  | 11 => checked w 0x7F000F80 0x61000580 (.samoBadd2 (w.getLsbD 31) (w.extractLsb' 18 6) (w.extractLsb' 12 6) (w.extractLsb' 5 2) (w.extractLsb' 2 3) (w.extractLsb' 0 2))
  | 12 => checked w 0x7F000F80 0x61000600 (.samoAdd64 (w.getLsbD 31) (w.extractLsb' 18 6) (w.extractLsb' 12 6) (w.extractLsb' 5 2) (w.extractLsb' 2 3) (w.extractLsb' 0 2))
  | 13 => checked w 0x7F000F80 0x61000680 (.samoXchg64 (w.getLsbD 31) (w.extractLsb' 18 6) (w.extractLsb' 12 6) (w.extractLsb' 5 2) (w.extractLsb' 2 3) (w.extractLsb' 0 2))
  | 14 => checked w 0x7F000F80 0x61000700 (.samoCas64 (w.getLsbD 31) (w.extractLsb' 18 6) (w.extractLsb' 12 6) (w.extractLsb' 5 2) (w.extractLsb' 2 3) (w.extractLsb' 0 2))
  | _ => .error .illegalOpcode

/-- Words of major opcode 0x6C: the function or selector field decides (R76). -/
def decodeOp6C (w : Word) : Except DecodeErr Instr :=
  match (w.extractLsb' 3 3).toNat with
  | 0 => checked w 0x7F00003F 0x6C000000 (.shflIdx (w.getLsbD 31) (w.extractLsb' 18 6) (w.extractLsb' 12 6) (w.extractLsb' 6 6))
  | 1 => checked w 0x7F00003F 0x6C000008 (.shflUp (w.getLsbD 31) (w.extractLsb' 18 6) (w.extractLsb' 12 6) (w.extractLsb' 6 6))
  | 2 => checked w 0x7F00003F 0x6C000010 (.shflDn (w.getLsbD 31) (w.extractLsb' 18 6) (w.extractLsb' 12 6) (w.extractLsb' 6 6))
  | 3 => checked w 0x7F00003F 0x6C000018 (.shflXor (w.getLsbD 31) (w.extractLsb' 18 6) (w.extractLsb' 12 6) (w.extractLsb' 6 6))
  | _ => .error .illegalOpcode

/-- Words of major opcode 0x6D: the function or selector field decides (R76). -/
def decodeOp6D (w : Word) : Except DecodeErr Instr :=
  match (w.extractLsb' 3 3).toNat with
  | 0 => checked w 0x7F00003F 0x6D000000 (.voteAll (w.getLsbD 31) (w.extractLsb' 18 6) (w.extractLsb' 12 6) (w.extractLsb' 6 6))
  | 1 => checked w 0x7F00003F 0x6D000008 (.voteAny (w.getLsbD 31) (w.extractLsb' 18 6) (w.extractLsb' 12 6) (w.extractLsb' 6 6))
  | 2 => checked w 0x7F00003F 0x6D000010 (.voteBallot (w.getLsbD 31) (w.extractLsb' 18 6) (w.extractLsb' 12 6) (w.extractLsb' 6 6))
  | 3 => checked w 0x7F00003F 0x6D000018 (.voteEq (w.getLsbD 31) (w.extractLsb' 18 6) (w.extractLsb' 12 6) (w.extractLsb' 6 6))
  | _ => .error .illegalOpcode

/-- Words of major opcode 0x6E: the function or selector field decides (R76). -/
def decodeOp6E (w : Word) : Except DecodeErr Instr :=
  match (w.extractLsb' 3 3).toNat with
  | 0 => checked w 0x7F00003F 0x6E000000 (.reduxAdd (w.getLsbD 31) (w.extractLsb' 18 6) (w.extractLsb' 12 6) (w.extractLsb' 6 6))
  | 1 => checked w 0x7F00003F 0x6E000008 (.reduxMin (w.getLsbD 31) (w.extractLsb' 18 6) (w.extractLsb' 12 6) (w.extractLsb' 6 6))
  | 2 => checked w 0x7F00003F 0x6E000010 (.reduxMax (w.getLsbD 31) (w.extractLsb' 18 6) (w.extractLsb' 12 6) (w.extractLsb' 6 6))
  | 3 => checked w 0x7F00003F 0x6E000018 (.reduxUmin (w.getLsbD 31) (w.extractLsb' 18 6) (w.extractLsb' 12 6) (w.extractLsb' 6 6))
  | 4 => checked w 0x7F00003F 0x6E000020 (.reduxUmax (w.getLsbD 31) (w.extractLsb' 18 6) (w.extractLsb' 12 6) (w.extractLsb' 6 6))
  | 5 => checked w 0x7F00003F 0x6E000028 (.reduxAnd (w.getLsbD 31) (w.extractLsb' 18 6) (w.extractLsb' 12 6) (w.extractLsb' 6 6))
  | 6 => checked w 0x7F00003F 0x6E000030 (.reduxOr (w.getLsbD 31) (w.extractLsb' 18 6) (w.extractLsb' 12 6) (w.extractLsb' 6 6))
  | 7 => checked w 0x7F00003F 0x6E000038 (.reduxXor (w.getLsbD 31) (w.extractLsb' 18 6) (w.extractLsb' 12 6) (w.extractLsb' 6 6))
  | _ => .error .illegalOpcode

/-- Words of major opcode 0x6F: the function or selector field decides (R76). -/
def decodeOp6F (w : Word) : Except DecodeErr Instr :=
  match (w.extractLsb' 3 3).toNat with
  | 0 => checked w 0x7F00003F 0x6F000000 (.match (w.getLsbD 31) (w.extractLsb' 18 6) (w.extractLsb' 12 6) (w.extractLsb' 6 6))
  | _ => .error .illegalOpcode

/-- Words of major opcode 0x70: the function or selector field decides (R76). -/
def decodeOp70 (w : Word) : Except DecodeErr Instr :=
  match (w.extractLsb' 18 3).toNat with
  | 0 => mmaChecked w (checked w 0x7F1C0001 0x70000000 (.mmaFwd (w.getLsbD 31) (w.extractLsb' 22 2) (w.getLsbD 21) (w.extractLsb' 12 6) (w.getLsbD 11) (w.extractLsb' 8 3) (w.extractLsb' 3 5) (w.extractLsb' 1 2)))
  | 1 => mmaChecked w (checked w 0x7F1C0001 0x70040000 (.mmaFwd2 (w.getLsbD 31) (w.extractLsb' 22 2) (w.getLsbD 21) (w.extractLsb' 12 6) (w.getLsbD 11) (w.extractLsb' 8 3) (w.extractLsb' 3 5) (w.extractLsb' 1 2)))
  | 2 => mmaChecked w (checked w 0x7F1C0001 0x70080000 (.mmaFwdk (w.getLsbD 31) (w.extractLsb' 22 2) (w.getLsbD 21) (w.extractLsb' 12 6) (w.getLsbD 11) (w.extractLsb' 8 3) (w.extractLsb' 3 5) (w.extractLsb' 1 2)))
  | 3 => mmaChecked w (checked w 0x7F1C0001 0x700C0000 (.mmaBwd (w.getLsbD 31) (w.extractLsb' 22 2) (w.getLsbD 21) (w.extractLsb' 12 6) (w.getLsbD 11) (w.extractLsb' 8 3) (w.extractLsb' 3 5) (w.extractLsb' 1 2)))
  | 4 => mmaChecked w (checked w 0x7F3C0801 0x70100000 (.mmaGrad (w.getLsbD 31) (w.extractLsb' 22 2) (w.extractLsb' 12 6) (w.extractLsb' 8 3) (w.extractLsb' 3 5) (w.extractLsb' 1 2)))
  | _ => .error .illegalOpcode

/-- Words of major opcode 0x71: the function or selector field decides (R76). -/
def decodeOp71 (w : Word) : Except DecodeErr Instr :=
  match (w.extractLsb' 21 3).toNat with
  | 0 => checked w 0x7FE00000 0x71000000 (.bankLd (w.getLsbD 31) (w.extractLsb' 19 2) (w.extractLsb' 13 6) (w.extractLsb' 5 8) (w.extractLsb' 0 5))
  | 1 => checked w 0x7FE00000 0x71200000 (.bankLdq (w.getLsbD 31) (w.extractLsb' 19 2) (w.extractLsb' 13 6) (w.extractLsb' 5 8) (w.extractLsb' 0 5))
  | 2 => checked w 0x7FE7E000 0x71400000 (.bankEvict (w.getLsbD 31) (w.extractLsb' 19 2) (w.extractLsb' 5 8) (w.extractLsb' 0 5))
  | 3 => checked w 0x7FE7E000 0x71600000 (.bankGzero (w.getLsbD 31) (w.extractLsb' 19 2) (w.extractLsb' 5 8) (w.extractLsb' 0 5))
  | 4 => checked w 0x7FE00000 0x71800000 (.bankGdrain (w.getLsbD 31) (w.extractLsb' 19 2) (w.extractLsb' 13 6) (w.extractLsb' 5 8) (w.extractLsb' 0 5))
  | 5 => checked w 0x7FE00000 0x71A00000 (.bankQuery (w.getLsbD 31) (w.extractLsb' 19 2) (w.extractLsb' 13 6) (w.extractLsb' 5 8) (w.extractLsb' 0 5))
  | _ => .error .illegalOpcode

/-- Words of major opcode 0x72: the function or selector field decides (R76). -/
def decodeOp72 (w : Word) : Except DecodeErr Instr :=
  match (w.extractLsb' 21 3).toNat with
  | 0 => checked w 0x7FE3FFFF 0x72000000 (.topkInit (w.getLsbD 31) (w.getLsbD 20) (w.extractLsb' 18 2))
  | 1 => checked w 0x7FF00FFF 0x72200000 (.topkRead (w.getLsbD 31) (w.extractLsb' 18 2) (w.extractLsb' 12 6))
  | _ => .error .illegalOpcode

/-- Words of major opcode 0x75: the function or selector field decides (R76). -/
def decodeOp75 (w : Word) : Except DecodeErr Instr :=
  match (w.extractLsb' 21 3).toNat with
  | 0 => checked w 0x7FE00001 0x75000000 (.twkLoad (w.getLsbD 31) (w.extractLsb' 15 6) (w.extractLsb' 9 6) (w.extractLsb' 4 5) (w.extractLsb' 1 3))
  | 1 => checked w 0x7FE00001 0x75200000 (.twkStore (w.getLsbD 31) (w.extractLsb' 15 6) (w.extractLsb' 9 6) (w.extractLsb' 4 5) (w.extractLsb' 1 3))
  | 2 => checked w 0x7FE00001 0x75400000 (.twkGather (w.getLsbD 31) (w.extractLsb' 15 6) (w.extractLsb' 9 6) (w.extractLsb' 4 5) (w.extractLsb' 1 3))
  | 3 => checked w 0x7FE00001 0x75600000 (.twkScatteradd (w.getLsbD 31) (w.extractLsb' 15 6) (w.extractLsb' 9 6) (w.extractLsb' 4 5) (w.extractLsb' 1 3))
  | _ => .error .illegalOpcode

/-- Words of major opcode 0x78: the function or selector field decides (R76). -/
def decodeOp78 (w : Word) : Except DecodeErr Instr :=
  match (w.extractLsb' 20 4).toNat with
  | 0 => checked w 0x7FF00003 0x78000000 (.syncInit (w.getLsbD 31) (w.extractLsb' 17 3) (w.extractLsb' 11 6) (w.extractLsb' 5 6) (w.extractLsb' 2 3))
  | 1 => checked w 0x7FF00003 0x78100000 (.syncArrive (w.getLsbD 31) (w.extractLsb' 17 3) (w.extractLsb' 11 6) (w.extractLsb' 5 6) (w.extractLsb' 2 3))
  | 2 => checked w 0x7FF00003 0x78200000 (.syncWait (w.getLsbD 31) (w.extractLsb' 17 3) (w.extractLsb' 11 6) (w.extractLsb' 5 6) (w.extractLsb' 2 3))
  | 3 => checked w 0x7FF00003 0x78300000 (.syncArrw (w.getLsbD 31) (w.extractLsb' 17 3) (w.extractLsb' 11 6) (w.extractLsb' 5 6) (w.extractLsb' 2 3))
  | 4 => checked w 0x7FF00003 0x78400000 (.syncTest (w.getLsbD 31) (w.extractLsb' 17 3) (w.extractLsb' 11 6) (w.extractLsb' 5 6) (w.extractLsb' 2 3))
  | 5 => checked w 0x7FF007E3 0x78500000 (.syncRel (w.getLsbD 31) (w.extractLsb' 17 3) (w.extractLsb' 11 6) (w.extractLsb' 2 3))
  | 6 => checked w 0x7FF00003 0x78600000 (.syncAcq (w.getLsbD 31) (w.extractLsb' 17 3) (w.extractLsb' 11 6) (w.extractLsb' 5 6) (w.extractLsb' 2 3))
  | 7 => checked w 0x7FF00003 0x78700000 (.syncBind (w.getLsbD 31) (w.extractLsb' 17 3) (w.extractLsb' 11 6) (w.extractLsb' 5 6) (w.extractLsb' 2 3))
  | 8 => checked w 0x7FF00003 0x78800000 (.syncUnbind (w.getLsbD 31) (w.extractLsb' 17 3) (w.extractLsb' 11 6) (w.extractLsb' 5 6) (w.extractLsb' 2 3))
  | 9 => checked w 0x7FF00003 0x78900000 (.syncExpect (w.getLsbD 31) (w.extractLsb' 17 3) (w.extractLsb' 11 6) (w.extractLsb' 5 6) (w.extractLsb' 2 3))
  | 10 => checked w 0x7FF00003 0x78A00000 (.syncErr (w.getLsbD 31) (w.extractLsb' 17 3) (w.extractLsb' 11 6) (w.extractLsb' 5 6) (w.extractLsb' 2 3))
  | _ => .error .illegalOpcode

/-- Words of major opcode 0x79: the function or selector field decides (R76). -/
def decodeOp79 (w : Word) : Except DecodeErr Instr :=
  match (w.extractLsb' 20 4).toNat with
  | 0 => checked w 0x7FF1FFE3 0x79000000 (.fenceRel (w.getLsbD 31) (w.extractLsb' 17 3) (w.extractLsb' 2 3))
  | 1 => checked w 0x7FF1FFE3 0x79100000 (.fenceAcq (w.getLsbD 31) (w.extractLsb' 17 3) (w.extractLsb' 2 3))
  | 2 => checked w 0x7FF1FFE3 0x79200000 (.fenceFull (w.getLsbD 31) (w.extractLsb' 17 3) (w.extractLsb' 2 3))
  | 3 => checked w 0x7FFFFFE3 0x79300000 (.fenceOprdy (w.getLsbD 31) (w.extractLsb' 2 3))
  | 4 => checked w 0x7FFFFFE3 0x79400000 (.fenceTfence (w.getLsbD 31) (w.extractLsb' 2 3))
  | _ => .error .illegalOpcode

/-- Words of major opcode 0x7A: the function or selector field decides (R76). -/
def decodeOp7A (w : Word) : Except DecodeErr Instr :=
  match (w.extractLsb' 20 4).toNat with
  | 0 => checked w 0x7FFFF803 0x7A000000 (.nobjCreate (w.getLsbD 31) (w.extractLsb' 5 6) (w.extractLsb' 2 3))
  | 1 => checked w 0x7FFFF803 0x7A100000 (.nobjOpen (w.getLsbD 31) (w.extractLsb' 5 6) (w.extractLsb' 2 3))
  | 2 => checked w 0x7FFFF803 0x7A200000 (.nobjClose (w.getLsbD 31) (w.extractLsb' 5 6) (w.extractLsb' 2 3))
  | 3 => checked w 0x7FFFF803 0x7A300000 (.nobjHand (w.getLsbD 31) (w.extractLsb' 5 6) (w.extractLsb' 2 3))
  | 4 => checked w 0x7FFFF803 0x7A400000 (.nobjDrop (w.getLsbD 31) (w.extractLsb' 5 6) (w.extractLsb' 2 3))
  | 5 => checked w 0x7FFFF803 0x7A500000 (.nobjQuery (w.getLsbD 31) (w.extractLsb' 5 6) (w.extractLsb' 2 3))
  | 6 => checked w 0x7FFFF803 0x7A600000 (.nobjMirror (w.getLsbD 31) (w.extractLsb' 5 6) (w.extractLsb' 2 3))
  | _ => .error .illegalOpcode

/-- Words of major opcode 0x7B: the function or selector field decides (R76). -/
def decodeOp7B (w : Word) : Except DecodeErr Instr :=
  match (w.extractLsb' 20 4).toNat with
  | 0 => checked w 0x7FF1F803 0x7B000000 (.taskPush (w.getLsbD 31) (w.extractLsb' 17 3) (w.extractLsb' 5 6) (w.extractLsb' 2 3))
  | 1 => checked w 0x7FF1F803 0x7B100000 (.taskPop (w.getLsbD 31) (w.extractLsb' 17 3) (w.extractLsb' 5 6) (w.extractLsb' 2 3))
  | 2 => checked w 0x7FF1F803 0x7B200000 (.taskTrypop (w.getLsbD 31) (w.extractLsb' 17 3) (w.extractLsb' 5 6) (w.extractLsb' 2 3))
  | 3 => checked w 0x7FF1FFE3 0x7B300000 (.taskEos (w.getLsbD 31) (w.extractLsb' 17 3) (w.extractLsb' 2 3))
  | 4 => checked w 0x7FF1F803 0x7B400000 (.taskDone (w.getLsbD 31) (w.extractLsb' 17 3) (w.extractLsb' 5 6) (w.extractLsb' 2 3))
  | _ => .error .illegalOpcode

/-- Words of major opcode 0x7C: the function or selector field decides (R76). -/
def decodeOp7C (w : Word) : Except DecodeErr Instr :=
  match (w.extractLsb' 20 4).toNat with
  | 0 => checked w 0x7FFE07E3 0x7C000000 (.sysTrap (w.getLsbD 31) (w.extractLsb' 11 6) (w.extractLsb' 2 3))
  | 1 => checked w 0x7FFFFFE3 0x7C100000 (.sysEret (w.getLsbD 31) (w.extractLsb' 2 3))
  | 2 => checked w 0x7FFFFFE3 0x7C200000 (.sysBkpt (w.getLsbD 31) (w.extractLsb' 2 3))
  | 3 => checked w 0x7FFFFFE3 0x7C300000 (.sysExit (w.getLsbD 31) (w.extractLsb' 2 3))
  | 4 => checked w 0x7FFFFFE3 0x7C400000 (.sysPyld (w.getLsbD 31) (w.extractLsb' 2 3))
  | 5 => checked w 0x7FFFF803 0x7C500000 (.sysCclr (w.getLsbD 31) (w.extractLsb' 5 6) (w.extractLsb' 2 3))
  | 6 => checked w 0x7FFFF803 0x7C600000 (.sysSleep (w.getLsbD 31) (w.extractLsb' 5 6) (w.extractLsb' 2 3))
  | 7 => checked w 0x7FFFF803 0x7C700000 (.sysHaltctx (w.getLsbD 31) (w.extractLsb' 5 6) (w.extractLsb' 2 3))
  | _ => .error .illegalOpcode

/-- Words of major opcode 0x7D: the function or selector field decides (R76). -/
def decodeOp7D (w : Word) : Except DecodeErr Instr :=
  match (w.extractLsb' 20 4).toNat with
  | 0 => checked w 0x7FFFF803 0x7D000000 (.sendEmark (w.getLsbD 31) (w.extractLsb' 5 6) (w.extractLsb' 2 3))
  | _ => .error .illegalOpcode

/-- One word, with the word after it in its packet, which only MOVK reads (R48). -/
def decodeWord (w lit : Word) : Except DecodeErr Instr :=
  match (w.extractLsb' 24 7).toNat with
  | 0x00 => checked w 0x7FFFFFFF 0x00000000 (.nop (w.getLsbD 31))
  | 0x01 => checked w 0x7F000000 0x01000000 (.iadd (w.getLsbD 31) (w.getLsbD 23) (w.extractLsb' 17 6) (w.extractLsb' 10 7) (w.extractLsb' 3 7) (w.extractLsb' 0 3))
  | 0x02 => checked w 0x7F000000 0x02000000 (.isub (w.getLsbD 31) (w.getLsbD 23) (w.extractLsb' 17 6) (w.extractLsb' 10 7) (w.extractLsb' 3 7) (w.extractLsb' 0 3))
  | 0x03 => checked w 0x7F000000 0x03000000 (.imul (w.getLsbD 31) (w.getLsbD 23) (w.extractLsb' 17 6) (w.extractLsb' 10 7) (w.extractLsb' 3 7) (w.extractLsb' 0 3))
  | 0x04 => checked w 0x7F000000 0x04000000 (.imulh (w.getLsbD 31) (w.getLsbD 23) (w.extractLsb' 17 6) (w.extractLsb' 10 7) (w.extractLsb' 3 7) (w.extractLsb' 0 3))
  | 0x05 => checked w 0x7F000000 0x05000000 (.imulhu (w.getLsbD 31) (w.getLsbD 23) (w.extractLsb' 17 6) (w.extractLsb' 10 7) (w.extractLsb' 3 7) (w.extractLsb' 0 3))
  | 0x06 => checked w 0x7F800000 0x06000000 (.imad (w.getLsbD 31) (w.extractLsb' 17 6) (w.extractLsb' 10 7) (w.extractLsb' 3 7) (w.extractLsb' 0 3))
  | 0x07 => checked w 0x7F000000 0x07000000 (.imin (w.getLsbD 31) (w.getLsbD 23) (w.extractLsb' 17 6) (w.extractLsb' 10 7) (w.extractLsb' 3 7) (w.extractLsb' 0 3))
  | 0x08 => checked w 0x7F000000 0x08000000 (.imax (w.getLsbD 31) (w.getLsbD 23) (w.extractLsb' 17 6) (w.extractLsb' 10 7) (w.extractLsb' 3 7) (w.extractLsb' 0 3))
  | 0x09 => checked w 0x7F000000 0x09000000 (.umin (w.getLsbD 31) (w.getLsbD 23) (w.extractLsb' 17 6) (w.extractLsb' 10 7) (w.extractLsb' 3 7) (w.extractLsb' 0 3))
  | 0x0A => checked w 0x7F000000 0x0A000000 (.umax (w.getLsbD 31) (w.getLsbD 23) (w.extractLsb' 17 6) (w.extractLsb' 10 7) (w.extractLsb' 3 7) (w.extractLsb' 0 3))
  | 0x0B => checked w 0x7F000000 0x0B000000 (.and (w.getLsbD 31) (w.getLsbD 23) (w.extractLsb' 17 6) (w.extractLsb' 10 7) (w.extractLsb' 3 7) (w.extractLsb' 0 3))
  | 0x0C => checked w 0x7F000000 0x0C000000 (.or (w.getLsbD 31) (w.getLsbD 23) (w.extractLsb' 17 6) (w.extractLsb' 10 7) (w.extractLsb' 3 7) (w.extractLsb' 0 3))
  | 0x0D => checked w 0x7F000000 0x0D000000 (.xor (w.getLsbD 31) (w.getLsbD 23) (w.extractLsb' 17 6) (w.extractLsb' 10 7) (w.extractLsb' 3 7) (w.extractLsb' 0 3))
  | 0x0E => checked w 0x7F000000 0x0E000000 (.andn (w.getLsbD 31) (w.getLsbD 23) (w.extractLsb' 17 6) (w.extractLsb' 10 7) (w.extractLsb' 3 7) (w.extractLsb' 0 3))
  | 0x0F => checked w 0x7F000000 0x0F000000 (.shl (w.getLsbD 31) (w.getLsbD 23) (w.extractLsb' 17 6) (w.extractLsb' 10 7) (w.extractLsb' 3 7) (w.extractLsb' 0 3))
  | 0x10 => checked w 0x7F000000 0x10000000 (.shr (w.getLsbD 31) (w.getLsbD 23) (w.extractLsb' 17 6) (w.extractLsb' 10 7) (w.extractLsb' 3 7) (w.extractLsb' 0 3))
  | 0x11 => checked w 0x7F000000 0x11000000 (.sar (w.getLsbD 31) (w.getLsbD 23) (w.extractLsb' 17 6) (w.extractLsb' 10 7) (w.extractLsb' 3 7) (w.extractLsb' 0 3))
  | 0x12 => checked w 0x7F0003F8 0x12000000 (.popc (w.getLsbD 31) (w.getLsbD 23) (w.extractLsb' 17 6) (w.extractLsb' 10 7) (w.extractLsb' 0 3))
  | 0x13 => checked w 0x7F0003F8 0x13000000 (.clz (w.getLsbD 31) (w.getLsbD 23) (w.extractLsb' 17 6) (w.extractLsb' 10 7) (w.extractLsb' 0 3))
  | 0x14 => checked w 0x7F0003F8 0x14000000 (.brev (w.getLsbD 31) (w.getLsbD 23) (w.extractLsb' 17 6) (w.extractLsb' 10 7) (w.extractLsb' 0 3))
  | 0x15 => checked w 0x7F000000 0x15000000 (.prmb (w.getLsbD 31) (w.getLsbD 23) (w.extractLsb' 17 6) (w.extractLsb' 10 7) (w.extractLsb' 3 7) (w.extractLsb' 0 3))
  | 0x16 => checked w 0x7F000000 0x16000000 (.iadds (w.getLsbD 31) (w.getLsbD 23) (w.extractLsb' 17 6) (w.extractLsb' 10 7) (w.extractLsb' 3 7) (w.extractLsb' 0 3))
  | 0x17 => checked w 0x7F800000 0x17000000 (.idot4 (w.getLsbD 31) (w.extractLsb' 17 6) (w.extractLsb' 10 7) (w.extractLsb' 3 7) (w.extractLsb' 0 3))
  | 0x18 => checked w 0x7F000000 0x18000000 (.iadd64 (w.getLsbD 31) (w.getLsbD 23) (w.extractLsb' 17 6) (w.extractLsb' 10 7) (w.extractLsb' 3 7) (w.extractLsb' 0 3))
  | 0x19 => checked w 0x7F000000 0x19000000 (.isub64 (w.getLsbD 31) (w.getLsbD 23) (w.extractLsb' 17 6) (w.extractLsb' 10 7) (w.extractLsb' 3 7) (w.extractLsb' 0 3))
  | 0x1A => checked w 0x7F800000 0x1A000000 (.imadw (w.getLsbD 31) (w.extractLsb' 17 6) (w.extractLsb' 10 7) (w.extractLsb' 3 7) (w.extractLsb' 0 3))
  | 0x1B => checked w 0x7F000000 0x1B000000 (.shl64 (w.getLsbD 31) (w.getLsbD 23) (w.extractLsb' 17 6) (w.extractLsb' 10 7) (w.extractLsb' 3 7) (w.extractLsb' 0 3))
  | 0x1C => checked w 0x7F800000 0x1C000000 (.icmp (w.getLsbD 31) (w.extractLsb' 20 3) (w.extractLsb' 17 3) (w.extractLsb' 10 7) (w.extractLsb' 3 7) (w.extractLsb' 0 3))
  | 0x1D => checked w 0x7F800000 0x1D000000 (.icmp64 (w.getLsbD 31) (w.extractLsb' 20 3) (w.extractLsb' 17 3) (w.extractLsb' 10 7) (w.extractLsb' 3 7) (w.extractLsb' 0 3))
  | 0x1E => checked w 0x7F000000 0x1E000000 (.sel (w.getLsbD 31) (w.getLsbD 23) (w.extractLsb' 17 6) (w.extractLsb' 10 7) (w.extractLsb' 3 7) (w.extractLsb' 0 3))
  | 0x1F => checked w 0x7F0003F8 0x1F000000 (.mov (w.getLsbD 31) (w.getLsbD 23) (w.extractLsb' 17 6) (w.extractLsb' 10 7) (w.extractLsb' 0 3))
  | 0x20 => checked w 0x7F000000 0x20000000 (.fadd (w.getLsbD 31) (w.getLsbD 23) (w.extractLsb' 17 6) (w.extractLsb' 10 7) (w.extractLsb' 3 7) (w.extractLsb' 0 3))
  | 0x21 => checked w 0x7F000000 0x21000000 (.fsub (w.getLsbD 31) (w.getLsbD 23) (w.extractLsb' 17 6) (w.extractLsb' 10 7) (w.extractLsb' 3 7) (w.extractLsb' 0 3))
  | 0x22 => checked w 0x7F000000 0x22000000 (.fmul (w.getLsbD 31) (w.getLsbD 23) (w.extractLsb' 17 6) (w.extractLsb' 10 7) (w.extractLsb' 3 7) (w.extractLsb' 0 3))
  | 0x23 => checked w 0x7F800000 0x23000000 (.ffma (w.getLsbD 31) (w.extractLsb' 17 6) (w.extractLsb' 10 7) (w.extractLsb' 3 7) (w.extractLsb' 0 3))
  | 0x24 => checked w 0x7F000000 0x24000000 (.fmin (w.getLsbD 31) (w.getLsbD 23) (w.extractLsb' 17 6) (w.extractLsb' 10 7) (w.extractLsb' 3 7) (w.extractLsb' 0 3))
  | 0x25 => checked w 0x7F000000 0x25000000 (.fmax (w.getLsbD 31) (w.getLsbD 23) (w.extractLsb' 17 6) (w.extractLsb' 10 7) (w.extractLsb' 3 7) (w.extractLsb' 0 3))
  | 0x26 => checked w 0x7F800000 0x26000000 (.fcmp (w.getLsbD 31) (w.extractLsb' 20 3) (w.extractLsb' 17 3) (w.extractLsb' 10 7) (w.extractLsb' 3 7) (w.extractLsb' 0 3))
  | 0x27 => checked w 0x7F000000 0x27000000 (.fsgn (w.getLsbD 31) (w.getLsbD 23) (w.extractLsb' 17 6) (w.extractLsb' 10 7) (w.extractLsb' 3 7) (w.extractLsb' 0 3))
  | 0x28 => checked w 0x7F000000 0x28000000 (.hadd2 (w.getLsbD 31) (w.getLsbD 23) (w.extractLsb' 17 6) (w.extractLsb' 10 7) (w.extractLsb' 3 7) (w.extractLsb' 0 3))
  | 0x29 => checked w 0x7F000000 0x29000000 (.hmul2 (w.getLsbD 31) (w.getLsbD 23) (w.extractLsb' 17 6) (w.extractLsb' 10 7) (w.extractLsb' 3 7) (w.extractLsb' 0 3))
  | 0x2A => checked w 0x7F800000 0x2A000000 (.hfma2 (w.getLsbD 31) (w.extractLsb' 17 6) (w.extractLsb' 10 7) (w.extractLsb' 3 7) (w.extractLsb' 0 3))
  | 0x2B => checked w 0x7F000000 0x2B000000 (.badd2 (w.getLsbD 31) (w.getLsbD 23) (w.extractLsb' 17 6) (w.extractLsb' 10 7) (w.extractLsb' 3 7) (w.extractLsb' 0 3))
  | 0x2C => checked w 0x7F000000 0x2C000000 (.bmul2 (w.getLsbD 31) (w.getLsbD 23) (w.extractLsb' 17 6) (w.extractLsb' 10 7) (w.extractLsb' 3 7) (w.extractLsb' 0 3))
  | 0x2D => checked w 0x7F800000 0x2D000000 (.bfma2 (w.getLsbD 31) (w.extractLsb' 17 6) (w.extractLsb' 10 7) (w.extractLsb' 3 7) (w.extractLsb' 0 3))
  | 0x2E => checked w 0x7F000000 0x2E000000 (.dadd (w.getLsbD 31) (w.getLsbD 23) (w.extractLsb' 17 6) (w.extractLsb' 10 7) (w.extractLsb' 3 7) (w.extractLsb' 0 3))
  | 0x2F => checked w 0x7F000000 0x2F000000 (.dmul (w.getLsbD 31) (w.getLsbD 23) (w.extractLsb' 17 6) (w.extractLsb' 10 7) (w.extractLsb' 3 7) (w.extractLsb' 0 3))
  | 0x30 => checked w 0x7F800000 0x30000000 (.dfma (w.getLsbD 31) (w.extractLsb' 17 6) (w.extractLsb' 10 7) (w.extractLsb' 3 7) (w.extractLsb' 0 3))
  | 0x31 => decodeOp31 w
  | 0x32 => decodeOp32 w
  | 0x33 => checked w 0x7F81E3C0 0x33000000 (.plop (w.getLsbD 31) (w.extractLsb' 20 3) (w.extractLsb' 17 3) (w.extractLsb' 10 3) (w.extractLsb' 3 3) (w.extractLsb' 0 3))
  | 0x34 => decodeOp34 w
  | 0x35 => decodeOp35 w
  | 0x36 => checked w 0x7F800000 0x36000000 (.qnt4 (w.getLsbD 31) (w.extractLsb' 17 6) (w.extractLsb' 10 7) (w.extractLsb' 3 7) (w.extractLsb' 0 3))
  | 0x37 => checked w 0x7F800000 0x37000000 (.qnt8 (w.getLsbD 31) (w.extractLsb' 17 6) (w.extractLsb' 10 7) (w.extractLsb' 3 7) (w.extractLsb' 0 3))
  | 0x38 => checked w 0x7F000000 0x38000000 (.dq (w.getLsbD 31) (w.getLsbD 23) (w.extractLsb' 17 6) (w.extractLsb' 10 7) (w.extractLsb' 3 7) (w.extractLsb' 0 3))
  | 0x39 => decodeOp39 w
  | 0x3A => checked w 0x7F000000 0x3A000000 (.shr64 (w.getLsbD 31) (w.getLsbD 23) (w.extractLsb' 17 6) (w.extractLsb' 10 7) (w.extractLsb' 3 7) (w.extractLsb' 0 3))
  | 0x40 => checked w 0x7F000000 0x40000000 (.addi (w.getLsbD 31) (w.extractLsb' 18 6) (w.extractLsb' 12 6) (w.extractLsb' 0 12))
  | 0x41 => checked w 0x7F000000 0x41000000 (.muli (w.getLsbD 31) (w.extractLsb' 18 6) (w.extractLsb' 12 6) (w.extractLsb' 0 12))
  | 0x42 => checked w 0x7F000000 0x42000000 (.andi (w.getLsbD 31) (w.extractLsb' 18 6) (w.extractLsb' 12 6) (w.extractLsb' 0 12))
  | 0x43 => checked w 0x7F000000 0x43000000 (.ori (w.getLsbD 31) (w.extractLsb' 18 6) (w.extractLsb' 12 6) (w.extractLsb' 0 12))
  | 0x44 => checked w 0x7F000000 0x44000000 (.xori (w.getLsbD 31) (w.extractLsb' 18 6) (w.extractLsb' 12 6) (w.extractLsb' 0 12))
  | 0x45 => checked w 0x7F000FE0 0x45000000 (.shli (w.getLsbD 31) (w.extractLsb' 18 6) (w.extractLsb' 12 6) (w.extractLsb' 0 5))
  | 0x46 => checked w 0x7F000FE0 0x46000000 (.shri (w.getLsbD 31) (w.extractLsb' 18 6) (w.extractLsb' 12 6) (w.extractLsb' 0 5))
  | 0x47 => checked w 0x7F000FE0 0x47000000 (.sari (w.getLsbD 31) (w.extractLsb' 18 6) (w.extractLsb' 12 6) (w.extractLsb' 0 5))
  | 0x48 => checked w 0x7F000000 0x48000000 (.icmpi (w.getLsbD 31) (w.extractLsb' 21 3) (w.extractLsb' 18 3) (w.extractLsb' 12 6) (w.extractLsb' 0 12))
  | 0x49 => checked w 0x7F03FFFF 0x49000000 (.movk (w.getLsbD 31) (w.extractLsb' 18 6) lit)
  | 0x4A => checked w 0x7F000000 0x4A000000 (.addi64 (w.getLsbD 31) (w.extractLsb' 18 6) (w.extractLsb' 12 6) (w.extractLsb' 0 12))
  | 0x4B => checked w 0x7F03F000 0x4B000000 (.srd (w.getLsbD 31) (w.extractLsb' 18 6) (w.extractLsb' 0 12))
  | 0x4C => checked w 0x7FFC0000 0x4C000000 (.swr (w.getLsbD 31) (w.extractLsb' 12 6) (w.extractLsb' 0 12))
  | 0x50 => checked w 0x7F000000 0x50000000 (.ldb (w.getLsbD 31) (w.extractLsb' 18 6) (w.extractLsb' 12 6) (w.extractLsb' 9 3) (w.extractLsb' 0 9))
  | 0x51 => checked w 0x7F000000 0x51000000 (.ldh (w.getLsbD 31) (w.extractLsb' 18 6) (w.extractLsb' 12 6) (w.extractLsb' 9 3) (w.extractLsb' 0 9))
  | 0x52 => checked w 0x7F000000 0x52000000 (.ldw (w.getLsbD 31) (w.extractLsb' 18 6) (w.extractLsb' 12 6) (w.extractLsb' 9 3) (w.extractLsb' 0 9))
  | 0x53 => checked w 0x7F000000 0x53000000 (.ldd (w.getLsbD 31) (w.extractLsb' 18 6) (w.extractLsb' 12 6) (w.extractLsb' 9 3) (w.extractLsb' 0 9))
  | 0x54 => checked w 0x7F000000 0x54000000 (.ldq (w.getLsbD 31) (w.extractLsb' 18 6) (w.extractLsb' 12 6) (w.extractLsb' 9 3) (w.extractLsb' 0 9))
  | 0x55 => checked w 0x7F000000 0x55000000 (.stb (w.getLsbD 31) (w.extractLsb' 18 6) (w.extractLsb' 12 6) (w.extractLsb' 9 3) (w.extractLsb' 0 9))
  | 0x56 => checked w 0x7F000000 0x56000000 (.sth (w.getLsbD 31) (w.extractLsb' 18 6) (w.extractLsb' 12 6) (w.extractLsb' 9 3) (w.extractLsb' 0 9))
  | 0x57 => checked w 0x7F000000 0x57000000 (.stw (w.getLsbD 31) (w.extractLsb' 18 6) (w.extractLsb' 12 6) (w.extractLsb' 9 3) (w.extractLsb' 0 9))
  | 0x58 => checked w 0x7F000000 0x58000000 (.std (w.getLsbD 31) (w.extractLsb' 18 6) (w.extractLsb' 12 6) (w.extractLsb' 9 3) (w.extractLsb' 0 9))
  | 0x59 => checked w 0x7F000000 0x59000000 (.stq (w.getLsbD 31) (w.extractLsb' 18 6) (w.extractLsb' 12 6) (w.extractLsb' 9 3) (w.extractLsb' 0 9))
  | 0x5A => checked w 0x7F000000 0x5A000000 (.ldwn (w.getLsbD 31) (w.extractLsb' 18 6) (w.extractLsb' 12 6) (w.extractLsb' 9 3) (w.extractLsb' 0 9))
  | 0x5B => checked w 0x7F000000 0x5B000000 (.ldqn (w.getLsbD 31) (w.extractLsb' 18 6) (w.extractLsb' 12 6) (w.extractLsb' 9 3) (w.extractLsb' 0 9))
  | 0x5C => checked w 0x7F000000 0x5C000000 (.lsw (w.getLsbD 31) (w.extractLsb' 18 6) (w.extractLsb' 12 6) (w.extractLsb' 9 3) (w.extractLsb' 0 9))
  | 0x5D => checked w 0x7F000000 0x5D000000 (.lsq (w.getLsbD 31) (w.extractLsb' 18 6) (w.extractLsb' 12 6) (w.extractLsb' 9 3) (w.extractLsb' 0 9))
  | 0x5E => checked w 0x7F000000 0x5E000000 (.ssw (w.getLsbD 31) (w.extractLsb' 18 6) (w.extractLsb' 12 6) (w.extractLsb' 9 3) (w.extractLsb' 0 9))
  | 0x5F => checked w 0x7F000000 0x5F000000 (.ssq (w.getLsbD 31) (w.extractLsb' 18 6) (w.extractLsb' 12 6) (w.extractLsb' 9 3) (w.extractLsb' 0 9))
  | 0x60 => decodeOp60 w
  | 0x61 => decodeOp61 w
  | 0x62 => checked w 0x7F000F80 0x62000000 (.ldlk (w.getLsbD 31) (w.extractLsb' 18 6) (w.extractLsb' 12 6) (w.extractLsb' 5 2) (w.extractLsb' 2 3) (w.extractLsb' 0 2))
  | 0x63 => checked w 0x7F000F80 0x63000000 (.stul (w.getLsbD 31) (w.extractLsb' 18 6) (w.extractLsb' 12 6) (w.extractLsb' 5 2) (w.extractLsb' 2 3) (w.extractLsb' 0 2))
  | 0x64 => checked w 0xFF000000 0x64000000 (.bra (w.extractLsb' 21 3) (w.extractLsb' 0 21))
  | 0x65 => checked w 0xFF000000 0x65000000 (.call (w.extractLsb' 21 3) (w.extractLsb' 0 21))
  | 0x66 => checked w 0xFF1FFFFF 0x66000000 (.ret (w.extractLsb' 21 3))
  | 0x67 => checked w 0xFF007FFF 0x67000000 (.jmpr (w.extractLsb' 21 3) (w.extractLsb' 15 6))
  | 0x68 => checked w 0x7F03FFFF 0x68000000 (.enrol (w.getLsbD 31) (w.extractLsb' 21 3) (w.extractLsb' 18 3))
  | 0x69 => checked w 0x7F03FFFF 0x69000000 (.rejoin (w.getLsbD 31) (w.extractLsb' 21 3) (w.extractLsb' 18 3))
  | 0x6A => checked w 0x7F03FFFF 0x6A000000 (.strike (w.getLsbD 31) (w.extractLsb' 21 3) (w.extractLsb' 18 3))
  | 0x6B => checked w 0x7FE3FFFF 0x6B000000 (.yield (w.getLsbD 31) (w.extractLsb' 18 3))
  | 0x6C => decodeOp6C w
  | 0x6D => decodeOp6D w
  | 0x6E => decodeOp6E w
  | 0x6F => decodeOp6F w
  | 0x70 => decodeOp70 w
  | 0x71 => decodeOp71 w
  | 0x72 => decodeOp72 w
  | 0x73 => checked w 0x7F000001 0x73000000 (.cpy (w.getLsbD 31) (w.extractLsb' 18 6) (w.extractLsb' 12 6) (w.extractLsb' 6 6) (w.extractLsb' 4 2) (w.extractLsb' 1 3))
  | 0x74 => checked w 0x7F00FFFF 0x74000000 (.cpw (w.getLsbD 31) (w.extractLsb' 22 2) (w.extractLsb' 16 6))
  | 0x75 => decodeOp75 w
  | 0x78 => decodeOp78 w
  | 0x79 => decodeOp79 w
  | 0x7A => decodeOp7A w
  | 0x7B => decodeOp7B w
  | 0x7C => decodeOp7C w
  | 0x7D => decodeOp7D w
  | 0x7E => if w.getLsbD 31 then checked w 0xFF001FFF 0xFE000000 (.rep (w.extractLsb' 18 6) (w.getLsbD 17) (w.getLsbD 16) (w.getLsbD 15) (w.extractLsb' 13 2)) else .error .repTarget
  | _ => .error .illegalOpcode

/-- A little-endian word from four bytes (R39). -/
def wordOfBytes (b0 b1 b2 b3 : Byte) : Word := b3 ++ b2 ++ b1 ++ b0

/-- The decoder on bytes: the first instruction and the bytes after it. -/
def decode : List Byte → Except DecodeErr (Instr × List Byte)
  | b0 :: b1 :: b2 :: b3 :: rest =>
    let w := wordOfBytes b0 b1 b2 b3
    if (w.extractLsb' 24 7).toNat = 0x49 then
      match rest with
      | c0 :: c1 :: c2 :: c3 :: rest' =>
        match decodeWord w (wordOfBytes c0 c1 c2 c3) with
        | .ok i => .ok (i, rest')
        | .error e => .error e
      | _ => .error .truncated
    else
      match decodeWord w 0 with
      | .ok i => .ok (i, rest)
      | .error e => .error e
  | _ => .error .truncated

/-- The four bytes of a word, lowest address first. -/
def bytesOfWord (w : Word) : List Byte :=
  [w.extractLsb' 0 8, w.extractLsb' 8 8, w.extractLsb' 16 8, w.extractLsb' 24 8]

/-- The host's word: bit 0 is the least significant bit of the first word; bits above nbits are zero. -/
def decodeTableWord (nbits w : Nat) : Option Instr :=
  let v := w % 2 ^ nbits
  match decode (bytesOfWord (BitVec.ofNat 32 v) ++ bytesOfWord (BitVec.ofNat 32 (v / 2 ^ 32))) with
  | .ok (i, _) => some i
  | .error _ => none

/-- A concatenation whose width adds up to 32. -/
abbrev asWord (w : BitVec 32) : Word := w

/-- The words of an instruction, written from the same layouts; a device event has none. -/
def encode : Instr → List Word
  | .nop c => [asWord (BitVec.ofBool c ++ 0#31)]
  | .iadd c w d s t p => [asWord (BitVec.ofBool c ++ 1#7 ++ BitVec.ofBool w ++ d ++ s ++ t ++ p)]
  | .isub c w d s t p => [asWord (BitVec.ofBool c ++ 2#7 ++ BitVec.ofBool w ++ d ++ s ++ t ++ p)]
  | .imul c w d s t p => [asWord (BitVec.ofBool c ++ 3#7 ++ BitVec.ofBool w ++ d ++ s ++ t ++ p)]
  | .imulh c w d s t p => [asWord (BitVec.ofBool c ++ 4#7 ++ BitVec.ofBool w ++ d ++ s ++ t ++ p)]
  | .imulhu c w d s t p => [asWord (BitVec.ofBool c ++ 5#7 ++ BitVec.ofBool w ++ d ++ s ++ t ++ p)]
  | .imad c d s t p => [asWord (BitVec.ofBool c ++ 12#8 ++ d ++ s ++ t ++ p)]
  | .imin c w d s t p => [asWord (BitVec.ofBool c ++ 7#7 ++ BitVec.ofBool w ++ d ++ s ++ t ++ p)]
  | .imax c w d s t p => [asWord (BitVec.ofBool c ++ 8#7 ++ BitVec.ofBool w ++ d ++ s ++ t ++ p)]
  | .umin c w d s t p => [asWord (BitVec.ofBool c ++ 9#7 ++ BitVec.ofBool w ++ d ++ s ++ t ++ p)]
  | .umax c w d s t p => [asWord (BitVec.ofBool c ++ 10#7 ++ BitVec.ofBool w ++ d ++ s ++ t ++ p)]
  | .and c w d s t p => [asWord (BitVec.ofBool c ++ 11#7 ++ BitVec.ofBool w ++ d ++ s ++ t ++ p)]
  | .or c w d s t p => [asWord (BitVec.ofBool c ++ 12#7 ++ BitVec.ofBool w ++ d ++ s ++ t ++ p)]
  | .xor c w d s t p => [asWord (BitVec.ofBool c ++ 13#7 ++ BitVec.ofBool w ++ d ++ s ++ t ++ p)]
  | .andn c w d s t p => [asWord (BitVec.ofBool c ++ 14#7 ++ BitVec.ofBool w ++ d ++ s ++ t ++ p)]
  | .shl c w d s t p => [asWord (BitVec.ofBool c ++ 15#7 ++ BitVec.ofBool w ++ d ++ s ++ t ++ p)]
  | .shr c w d s t p => [asWord (BitVec.ofBool c ++ 16#7 ++ BitVec.ofBool w ++ d ++ s ++ t ++ p)]
  | .sar c w d s t p => [asWord (BitVec.ofBool c ++ 17#7 ++ BitVec.ofBool w ++ d ++ s ++ t ++ p)]
  | .popc c w d s p => [asWord (BitVec.ofBool c ++ 18#7 ++ BitVec.ofBool w ++ d ++ s ++ 0#7 ++ p)]
  | .clz c w d s p => [asWord (BitVec.ofBool c ++ 19#7 ++ BitVec.ofBool w ++ d ++ s ++ 0#7 ++ p)]
  | .brev c w d s p => [asWord (BitVec.ofBool c ++ 20#7 ++ BitVec.ofBool w ++ d ++ s ++ 0#7 ++ p)]
  | .prmb c w d s t p => [asWord (BitVec.ofBool c ++ 21#7 ++ BitVec.ofBool w ++ d ++ s ++ t ++ p)]
  | .iadds c w d s t p => [asWord (BitVec.ofBool c ++ 22#7 ++ BitVec.ofBool w ++ d ++ s ++ t ++ p)]
  | .idot4 c d s t p => [asWord (BitVec.ofBool c ++ 46#8 ++ d ++ s ++ t ++ p)]
  | .iadd64 c w d s t p => [asWord (BitVec.ofBool c ++ 24#7 ++ BitVec.ofBool w ++ d ++ s ++ t ++ p)]
  | .isub64 c w d s t p => [asWord (BitVec.ofBool c ++ 25#7 ++ BitVec.ofBool w ++ d ++ s ++ t ++ p)]
  | .imadw c d s t p => [asWord (BitVec.ofBool c ++ 52#8 ++ d ++ s ++ t ++ p)]
  | .shl64 c w d s t p => [asWord (BitVec.ofBool c ++ 27#7 ++ BitVec.ofBool w ++ d ++ s ++ t ++ p)]
  | .icmp c k q s t p => [asWord (BitVec.ofBool c ++ 56#8 ++ k ++ q ++ s ++ t ++ p)]
  | .icmp64 c k q s t p => [asWord (BitVec.ofBool c ++ 58#8 ++ k ++ q ++ s ++ t ++ p)]
  | .sel c w d s t k => [asWord (BitVec.ofBool c ++ 30#7 ++ BitVec.ofBool w ++ d ++ s ++ t ++ k)]
  | .mov c w d s p => [asWord (BitVec.ofBool c ++ 31#7 ++ BitVec.ofBool w ++ d ++ s ++ 0#7 ++ p)]
  | .fadd c w d s t p => [asWord (BitVec.ofBool c ++ 32#7 ++ BitVec.ofBool w ++ d ++ s ++ t ++ p)]
  | .fsub c w d s t p => [asWord (BitVec.ofBool c ++ 33#7 ++ BitVec.ofBool w ++ d ++ s ++ t ++ p)]
  | .fmul c w d s t p => [asWord (BitVec.ofBool c ++ 34#7 ++ BitVec.ofBool w ++ d ++ s ++ t ++ p)]
  | .ffma c d s t p => [asWord (BitVec.ofBool c ++ 70#8 ++ d ++ s ++ t ++ p)]
  | .fmin c w d s t p => [asWord (BitVec.ofBool c ++ 36#7 ++ BitVec.ofBool w ++ d ++ s ++ t ++ p)]
  | .fmax c w d s t p => [asWord (BitVec.ofBool c ++ 37#7 ++ BitVec.ofBool w ++ d ++ s ++ t ++ p)]
  | .fcmp c k q s t p => [asWord (BitVec.ofBool c ++ 76#8 ++ k ++ q ++ s ++ t ++ p)]
  | .fsgn c w d s t p => [asWord (BitVec.ofBool c ++ 39#7 ++ BitVec.ofBool w ++ d ++ s ++ t ++ p)]
  | .hadd2 c w d s t p => [asWord (BitVec.ofBool c ++ 40#7 ++ BitVec.ofBool w ++ d ++ s ++ t ++ p)]
  | .hmul2 c w d s t p => [asWord (BitVec.ofBool c ++ 41#7 ++ BitVec.ofBool w ++ d ++ s ++ t ++ p)]
  | .hfma2 c d s t p => [asWord (BitVec.ofBool c ++ 84#8 ++ d ++ s ++ t ++ p)]
  | .badd2 c w d s t p => [asWord (BitVec.ofBool c ++ 43#7 ++ BitVec.ofBool w ++ d ++ s ++ t ++ p)]
  | .bmul2 c w d s t p => [asWord (BitVec.ofBool c ++ 44#7 ++ BitVec.ofBool w ++ d ++ s ++ t ++ p)]
  | .bfma2 c d s t p => [asWord (BitVec.ofBool c ++ 90#8 ++ d ++ s ++ t ++ p)]
  | .dadd c w d s t p => [asWord (BitVec.ofBool c ++ 46#7 ++ BitVec.ofBool w ++ d ++ s ++ t ++ p)]
  | .dmul c w d s t p => [asWord (BitVec.ofBool c ++ 47#7 ++ BitVec.ofBool w ++ d ++ s ++ t ++ p)]
  | .dfma c d s t p => [asWord (BitVec.ofBool c ++ 96#8 ++ d ++ s ++ t ++ p)]
  | .cvtI32F32 c w d s p => [asWord (BitVec.ofBool c ++ 49#7 ++ BitVec.ofBool w ++ d ++ s ++ 68#7 ++ p)]
  | .cvtU32F32 c w d s p => [asWord (BitVec.ofBool c ++ 49#7 ++ BitVec.ofBool w ++ d ++ s ++ 69#7 ++ p)]
  | .cvtF32I32 c w d s p => [asWord (BitVec.ofBool c ++ 49#7 ++ BitVec.ofBool w ++ d ++ s ++ 70#7 ++ p)]
  | .cvtF32U32 c w d s p => [asWord (BitVec.ofBool c ++ 49#7 ++ BitVec.ofBool w ++ d ++ s ++ 71#7 ++ p)]
  | .cvtF32I32Rz c w d s p => [asWord (BitVec.ofBool c ++ 49#7 ++ BitVec.ofBool w ++ d ++ s ++ 72#7 ++ p)]
  | .cvtF32U32Rz c w d s p => [asWord (BitVec.ofBool c ++ 49#7 ++ BitVec.ofBool w ++ d ++ s ++ 73#7 ++ p)]
  | .cvtF32F16 c d s p => [asWord (BitVec.ofBool c ++ 98#8 ++ d ++ s ++ 74#7 ++ p)]
  | .cvtF32Bf16 c d s p => [asWord (BitVec.ofBool c ++ 98#8 ++ d ++ s ++ 75#7 ++ p)]
  | .cvtF16F32 c w d s h p => [asWord (BitVec.ofBool c ++ 49#7 ++ BitVec.ofBool w ++ d ++ s ++ 38#6 ++ BitVec.ofBool h ++ p)]
  | .cvtBf16F32 c w d s h p => [asWord (BitVec.ofBool c ++ 49#7 ++ BitVec.ofBool w ++ d ++ s ++ 39#6 ++ BitVec.ofBool h ++ p)]
  | .cvtF32E4m3 c d s p => [asWord (BitVec.ofBool c ++ 98#8 ++ d ++ s ++ 80#7 ++ p)]
  | .cvtF32E5m2 c d s p => [asWord (BitVec.ofBool c ++ 98#8 ++ d ++ s ++ 81#7 ++ p)]
  | .cvtE4m3F32 c w d s j p => [asWord (BitVec.ofBool c ++ 49#7 ++ BitVec.ofBool w ++ d ++ s ++ 21#5 ++ j ++ p)]
  | .cvtE5m2F32 c w d s j p => [asWord (BitVec.ofBool c ++ 49#7 ++ BitVec.ofBool w ++ d ++ s ++ 22#5 ++ j ++ p)]
  | .cvtF32F64 c w d s p => [asWord (BitVec.ofBool c ++ 49#7 ++ BitVec.ofBool w ++ d ++ s ++ 92#7 ++ p)]
  | .cvtF64F32 c w d s p => [asWord (BitVec.ofBool c ++ 49#7 ++ BitVec.ofBool w ++ d ++ s ++ 93#7 ++ p)]
  | .cvtI32F64 c w d s p => [asWord (BitVec.ofBool c ++ 49#7 ++ BitVec.ofBool w ++ d ++ s ++ 94#7 ++ p)]
  | .cvtF64I32 c w d s p => [asWord (BitVec.ofBool c ++ 49#7 ++ BitVec.ofBool w ++ d ++ s ++ 95#7 ++ p)]
  | .cvtF64I32Rz c w d s p => [asWord (BitVec.ofBool c ++ 49#7 ++ BitVec.ofBool w ++ d ++ s ++ 96#7 ++ p)]
  | .sfuRcp c w d s p => [asWord (BitVec.ofBool c ++ 50#7 ++ BitVec.ofBool w ++ d ++ s ++ 68#7 ++ p)]
  | .sfuRsq c w d s p => [asWord (BitVec.ofBool c ++ 50#7 ++ BitVec.ofBool w ++ d ++ s ++ 69#7 ++ p)]
  | .sfuSqrt c w d s p => [asWord (BitVec.ofBool c ++ 50#7 ++ BitVec.ofBool w ++ d ++ s ++ 70#7 ++ p)]
  | .sfuEx2 c w d s p => [asWord (BitVec.ofBool c ++ 50#7 ++ BitVec.ofBool w ++ d ++ s ++ 71#7 ++ p)]
  | .sfuLg2 c w d s p => [asWord (BitVec.ofBool c ++ 50#7 ++ BitVec.ofBool w ++ d ++ s ++ 72#7 ++ p)]
  | .sfuSin c w d s p => [asWord (BitVec.ofBool c ++ 50#7 ++ BitVec.ofBool w ++ d ++ s ++ 73#7 ++ p)]
  | .sfuCos c w d s p => [asWord (BitVec.ofBool c ++ 50#7 ++ BitVec.ofBool w ++ d ++ s ++ 74#7 ++ p)]
  | .sfuTanh c w d s p => [asWord (BitVec.ofBool c ++ 50#7 ++ BitVec.ofBool w ++ d ++ s ++ 75#7 ++ p)]
  | .sfuSigm c w d s p => [asWord (BitVec.ofBool c ++ 50#7 ++ BitVec.ofBool w ++ d ++ s ++ 76#7 ++ p)]
  | .plop c f q x y p => [asWord (BitVec.ofBool c ++ 102#8 ++ f ++ q ++ 0#4 ++ x ++ 0#4 ++ y ++ p)]
  | .qsc4Fold c d s p => [asWord (BitVec.ofBool c ++ 104#8 ++ d ++ s ++ 68#7 ++ p)]
  | .qsc4Merge c d s p => [asWord (BitVec.ofBool c ++ 104#8 ++ d ++ s ++ 69#7 ++ p)]
  | .qsc4Scale c w d s p => [asWord (BitVec.ofBool c ++ 52#7 ++ BitVec.ofBool w ++ d ++ s ++ 70#7 ++ p)]
  | .qsc8Fold c d s p => [asWord (BitVec.ofBool c ++ 106#8 ++ d ++ s ++ 68#7 ++ p)]
  | .qsc8Merge c d s p => [asWord (BitVec.ofBool c ++ 106#8 ++ d ++ s ++ 69#7 ++ p)]
  | .qsc8Scale c w d s p => [asWord (BitVec.ofBool c ++ 53#7 ++ BitVec.ofBool w ++ d ++ s ++ 70#7 ++ p)]
  | .qnt4 c d s t p => [asWord (BitVec.ofBool c ++ 108#8 ++ d ++ s ++ t ++ p)]
  | .qnt8 c d s t p => [asWord (BitVec.ofBool c ++ 110#8 ++ d ++ s ++ t ++ p)]
  | .dq c w d s t p => [asWord (BitVec.ofBool c ++ 56#7 ++ BitVec.ofBool w ++ d ++ s ++ t ++ p)]
  | .fclassF32 c w d s p => [asWord (BitVec.ofBool c ++ 57#7 ++ BitVec.ofBool w ++ d ++ s ++ 68#7 ++ p)]
  | .fclassF16 c w d s p => [asWord (BitVec.ofBool c ++ 57#7 ++ BitVec.ofBool w ++ d ++ s ++ 69#7 ++ p)]
  | .fclassBf16 c w d s p => [asWord (BitVec.ofBool c ++ 57#7 ++ BitVec.ofBool w ++ d ++ s ++ 70#7 ++ p)]
  | .fclassF64 c w d s p => [asWord (BitVec.ofBool c ++ 57#7 ++ BitVec.ofBool w ++ d ++ s ++ 71#7 ++ p)]
  | .fclassE4m3 c w d s p => [asWord (BitVec.ofBool c ++ 57#7 ++ BitVec.ofBool w ++ d ++ s ++ 72#7 ++ p)]
  | .fclassE5m2 c w d s p => [asWord (BitVec.ofBool c ++ 57#7 ++ BitVec.ofBool w ++ d ++ s ++ 73#7 ++ p)]
  | .shr64 c w d s t p => [asWord (BitVec.ofBool c ++ 58#7 ++ BitVec.ofBool w ++ d ++ s ++ t ++ p)]
  | .addi c d s i => [asWord (BitVec.ofBool c ++ 64#7 ++ d ++ s ++ i)]
  | .muli c d s i => [asWord (BitVec.ofBool c ++ 65#7 ++ d ++ s ++ i)]
  | .andi c d s i => [asWord (BitVec.ofBool c ++ 66#7 ++ d ++ s ++ i)]
  | .ori c d s i => [asWord (BitVec.ofBool c ++ 67#7 ++ d ++ s ++ i)]
  | .xori c d s i => [asWord (BitVec.ofBool c ++ 68#7 ++ d ++ s ++ i)]
  | .shli c d s i => [asWord (BitVec.ofBool c ++ 69#7 ++ d ++ s ++ 0#7 ++ i)]
  | .shri c d s i => [asWord (BitVec.ofBool c ++ 70#7 ++ d ++ s ++ 0#7 ++ i)]
  | .sari c d s i => [asWord (BitVec.ofBool c ++ 71#7 ++ d ++ s ++ 0#7 ++ i)]
  | .icmpi c k q s i => [asWord (BitVec.ofBool c ++ 72#7 ++ k ++ q ++ s ++ i)]
  | .movk c d lit => [asWord (BitVec.ofBool c ++ 73#7 ++ d ++ 0#18), lit]
  | .addi64 c d s i => [asWord (BitVec.ofBool c ++ 74#7 ++ d ++ s ++ i)]
  | .srd c d i => [asWord (BitVec.ofBool c ++ 75#7 ++ d ++ 0#6 ++ i)]
  | .swr c s i => [asWord (BitVec.ofBool c ++ 4864#13 ++ s ++ i)]
  | .ldb c d a p i => [asWord (BitVec.ofBool c ++ 80#7 ++ d ++ a ++ p ++ i)]
  | .ldh c d a p i => [asWord (BitVec.ofBool c ++ 81#7 ++ d ++ a ++ p ++ i)]
  | .ldw c d a p i => [asWord (BitVec.ofBool c ++ 82#7 ++ d ++ a ++ p ++ i)]
  | .ldd c d a p i => [asWord (BitVec.ofBool c ++ 83#7 ++ d ++ a ++ p ++ i)]
  | .ldq c d a p i => [asWord (BitVec.ofBool c ++ 84#7 ++ d ++ a ++ p ++ i)]
  | .stb c d a p i => [asWord (BitVec.ofBool c ++ 85#7 ++ d ++ a ++ p ++ i)]
  | .sth c d a p i => [asWord (BitVec.ofBool c ++ 86#7 ++ d ++ a ++ p ++ i)]
  | .stw c d a p i => [asWord (BitVec.ofBool c ++ 87#7 ++ d ++ a ++ p ++ i)]
  | .std c d a p i => [asWord (BitVec.ofBool c ++ 88#7 ++ d ++ a ++ p ++ i)]
  | .stq c d a p i => [asWord (BitVec.ofBool c ++ 89#7 ++ d ++ a ++ p ++ i)]
  | .ldwn c d a q i => [asWord (BitVec.ofBool c ++ 90#7 ++ d ++ a ++ q ++ i)]
  | .ldqn c d a q i => [asWord (BitVec.ofBool c ++ 91#7 ++ d ++ a ++ q ++ i)]
  | .lsw c d a p i => [asWord (BitVec.ofBool c ++ 92#7 ++ d ++ a ++ p ++ i)]
  | .lsq c d a p i => [asWord (BitVec.ofBool c ++ 93#7 ++ d ++ a ++ p ++ i)]
  | .ssw c d a p i => [asWord (BitVec.ofBool c ++ 94#7 ++ d ++ a ++ p ++ i)]
  | .ssq c d a p i => [asWord (BitVec.ofBool c ++ 95#7 ++ d ++ a ++ p ++ i)]
  | .amoAdd c d a o s p => [asWord (BitVec.ofBool c ++ 96#7 ++ d ++ a ++ 0#5 ++ o ++ s ++ p)]
  | .amoAnd c d a o s p => [asWord (BitVec.ofBool c ++ 96#7 ++ d ++ a ++ 1#5 ++ o ++ s ++ p)]
  | .amoOr c d a o s p => [asWord (BitVec.ofBool c ++ 96#7 ++ d ++ a ++ 2#5 ++ o ++ s ++ p)]
  | .amoXor c d a o s p => [asWord (BitVec.ofBool c ++ 96#7 ++ d ++ a ++ 3#5 ++ o ++ s ++ p)]
  | .amoMin c d a o s p => [asWord (BitVec.ofBool c ++ 96#7 ++ d ++ a ++ 4#5 ++ o ++ s ++ p)]
  | .amoMax c d a o s p => [asWord (BitVec.ofBool c ++ 96#7 ++ d ++ a ++ 5#5 ++ o ++ s ++ p)]
  | .amoUmin c d a o s p => [asWord (BitVec.ofBool c ++ 96#7 ++ d ++ a ++ 6#5 ++ o ++ s ++ p)]
  | .amoUmax c d a o s p => [asWord (BitVec.ofBool c ++ 96#7 ++ d ++ a ++ 7#5 ++ o ++ s ++ p)]
  | .amoXchg c d a o s p => [asWord (BitVec.ofBool c ++ 96#7 ++ d ++ a ++ 8#5 ++ o ++ s ++ p)]
  | .amoCas c d a o s p => [asWord (BitVec.ofBool c ++ 96#7 ++ d ++ a ++ 9#5 ++ o ++ s ++ p)]
  | .amoFadd c d a o s p => [asWord (BitVec.ofBool c ++ 96#7 ++ d ++ a ++ 10#5 ++ o ++ s ++ p)]
  | .amoBadd2 c d a o s p => [asWord (BitVec.ofBool c ++ 96#7 ++ d ++ a ++ 11#5 ++ o ++ s ++ p)]
  | .amoAdd64 c d a o s p => [asWord (BitVec.ofBool c ++ 96#7 ++ d ++ a ++ 12#5 ++ o ++ s ++ p)]
  | .amoXchg64 c d a o s p => [asWord (BitVec.ofBool c ++ 96#7 ++ d ++ a ++ 13#5 ++ o ++ s ++ p)]
  | .amoCas64 c d a o s p => [asWord (BitVec.ofBool c ++ 96#7 ++ d ++ a ++ 14#5 ++ o ++ s ++ p)]
  | .samoAdd c d a o s p => [asWord (BitVec.ofBool c ++ 97#7 ++ d ++ a ++ 0#5 ++ o ++ s ++ p)]
  | .samoAnd c d a o s p => [asWord (BitVec.ofBool c ++ 97#7 ++ d ++ a ++ 1#5 ++ o ++ s ++ p)]
  | .samoOr c d a o s p => [asWord (BitVec.ofBool c ++ 97#7 ++ d ++ a ++ 2#5 ++ o ++ s ++ p)]
  | .samoXor c d a o s p => [asWord (BitVec.ofBool c ++ 97#7 ++ d ++ a ++ 3#5 ++ o ++ s ++ p)]
  | .samoMin c d a o s p => [asWord (BitVec.ofBool c ++ 97#7 ++ d ++ a ++ 4#5 ++ o ++ s ++ p)]
  | .samoMax c d a o s p => [asWord (BitVec.ofBool c ++ 97#7 ++ d ++ a ++ 5#5 ++ o ++ s ++ p)]
  | .samoUmin c d a o s p => [asWord (BitVec.ofBool c ++ 97#7 ++ d ++ a ++ 6#5 ++ o ++ s ++ p)]
  | .samoUmax c d a o s p => [asWord (BitVec.ofBool c ++ 97#7 ++ d ++ a ++ 7#5 ++ o ++ s ++ p)]
  | .samoXchg c d a o s p => [asWord (BitVec.ofBool c ++ 97#7 ++ d ++ a ++ 8#5 ++ o ++ s ++ p)]
  | .samoCas c d a o s p => [asWord (BitVec.ofBool c ++ 97#7 ++ d ++ a ++ 9#5 ++ o ++ s ++ p)]
  | .samoFadd c d a o s p => [asWord (BitVec.ofBool c ++ 97#7 ++ d ++ a ++ 10#5 ++ o ++ s ++ p)]
  | .samoBadd2 c d a o s p => [asWord (BitVec.ofBool c ++ 97#7 ++ d ++ a ++ 11#5 ++ o ++ s ++ p)]
  | .samoAdd64 c d a o s p => [asWord (BitVec.ofBool c ++ 97#7 ++ d ++ a ++ 12#5 ++ o ++ s ++ p)]
  | .samoXchg64 c d a o s p => [asWord (BitVec.ofBool c ++ 97#7 ++ d ++ a ++ 13#5 ++ o ++ s ++ p)]
  | .samoCas64 c d a o s p => [asWord (BitVec.ofBool c ++ 97#7 ++ d ++ a ++ 14#5 ++ o ++ s ++ p)]
  | .ldlk c d a o s p => [asWord (BitVec.ofBool c ++ 98#7 ++ d ++ a ++ 0#5 ++ o ++ s ++ p)]
  | .stul c d a o s p => [asWord (BitVec.ofBool c ++ 99#7 ++ d ++ a ++ 0#5 ++ o ++ s ++ p)]
  | .bra p i => [asWord (100#8 ++ p ++ i)]
  | .call p i => [asWord (101#8 ++ p ++ i)]
  | .ret p => [asWord (102#8 ++ p ++ 0#21)]
  | .jmpr p r => [asWord (103#8 ++ p ++ r ++ 0#15)]
  | .enrol c j p => [asWord (BitVec.ofBool c ++ 104#7 ++ j ++ p ++ 0#18)]
  | .rejoin c j p => [asWord (BitVec.ofBool c ++ 105#7 ++ j ++ p ++ 0#18)]
  | .strike c j p => [asWord (BitVec.ofBool c ++ 106#7 ++ j ++ p ++ 0#18)]
  | .yield c p => [asWord (BitVec.ofBool c ++ 856#10 ++ p ++ 0#18)]
  | .shflIdx c d s m => [asWord (BitVec.ofBool c ++ 108#7 ++ d ++ s ++ m ++ 0#6)]
  | .shflUp c d s m => [asWord (BitVec.ofBool c ++ 108#7 ++ d ++ s ++ m ++ 8#6)]
  | .shflDn c d s m => [asWord (BitVec.ofBool c ++ 108#7 ++ d ++ s ++ m ++ 16#6)]
  | .shflXor c d s m => [asWord (BitVec.ofBool c ++ 108#7 ++ d ++ s ++ m ++ 24#6)]
  | .voteAll c d s m => [asWord (BitVec.ofBool c ++ 109#7 ++ d ++ s ++ m ++ 0#6)]
  | .voteAny c d s m => [asWord (BitVec.ofBool c ++ 109#7 ++ d ++ s ++ m ++ 8#6)]
  | .voteBallot c d s m => [asWord (BitVec.ofBool c ++ 109#7 ++ d ++ s ++ m ++ 16#6)]
  | .voteEq c d s m => [asWord (BitVec.ofBool c ++ 109#7 ++ d ++ s ++ m ++ 24#6)]
  | .reduxAdd c d s m => [asWord (BitVec.ofBool c ++ 110#7 ++ d ++ s ++ m ++ 0#6)]
  | .reduxMin c d s m => [asWord (BitVec.ofBool c ++ 110#7 ++ d ++ s ++ m ++ 8#6)]
  | .reduxMax c d s m => [asWord (BitVec.ofBool c ++ 110#7 ++ d ++ s ++ m ++ 16#6)]
  | .reduxUmin c d s m => [asWord (BitVec.ofBool c ++ 110#7 ++ d ++ s ++ m ++ 24#6)]
  | .reduxUmax c d s m => [asWord (BitVec.ofBool c ++ 110#7 ++ d ++ s ++ m ++ 32#6)]
  | .reduxAnd c d s m => [asWord (BitVec.ofBool c ++ 110#7 ++ d ++ s ++ m ++ 40#6)]
  | .reduxOr c d s m => [asWord (BitVec.ofBool c ++ 110#7 ++ d ++ s ++ m ++ 48#6)]
  | .reduxXor c d s m => [asWord (BitVec.ofBool c ++ 110#7 ++ d ++ s ++ m ++ 56#6)]
  | .match c d s m => [asWord (BitVec.ofBool c ++ 111#7 ++ d ++ s ++ m ++ 0#6)]
  | .mmaFwd c a k o x f g m => [asWord (BitVec.ofBool c ++ 112#7 ++ a ++ BitVec.ofBool k ++ 0#3 ++ o ++ BitVec.ofBool x ++ f ++ g ++ m ++ 0#1)]
  | .mmaFwd2 c a k o x f g m => [asWord (BitVec.ofBool c ++ 112#7 ++ a ++ BitVec.ofBool k ++ 1#3 ++ o ++ BitVec.ofBool x ++ f ++ g ++ m ++ 0#1)]
  | .mmaFwdk c a k o x f g m => [asWord (BitVec.ofBool c ++ 112#7 ++ a ++ BitVec.ofBool k ++ 2#3 ++ o ++ BitVec.ofBool x ++ f ++ g ++ m ++ 0#1)]
  | .mmaBwd c a k o x f g m => [asWord (BitVec.ofBool c ++ 112#7 ++ a ++ BitVec.ofBool k ++ 3#3 ++ o ++ BitVec.ofBool x ++ f ++ g ++ m ++ 0#1)]
  | .mmaGrad c a o f g m => [asWord (BitVec.ofBool c ++ 112#7 ++ a ++ 4#4 ++ o ++ 0#1 ++ f ++ g ++ m ++ 0#1)]
  | .bankLd c b s i g => [asWord (BitVec.ofBool c ++ 904#10 ++ b ++ s ++ i ++ g)]
  | .bankLdq c b s i g => [asWord (BitVec.ofBool c ++ 905#10 ++ b ++ s ++ i ++ g)]
  | .bankEvict c b i g => [asWord (BitVec.ofBool c ++ 906#10 ++ b ++ 0#6 ++ i ++ g)]
  | .bankGzero c b i g => [asWord (BitVec.ofBool c ++ 907#10 ++ b ++ 0#6 ++ i ++ g)]
  | .bankGdrain c b s i g => [asWord (BitVec.ofBool c ++ 908#10 ++ b ++ s ++ i ++ g)]
  | .bankQuery c b s i g => [asWord (BitVec.ofBool c ++ 909#10 ++ b ++ s ++ i ++ g)]
  | .topkInit c k s => [asWord (BitVec.ofBool c ++ 912#10 ++ BitVec.ofBool k ++ s ++ 0#18)]
  | .topkRead c s d => [asWord (BitVec.ofBool c ++ 1826#11 ++ s ++ d ++ 0#12)]
  | .cpy c a s n t p => [asWord (BitVec.ofBool c ++ 115#7 ++ a ++ s ++ n ++ t ++ p ++ 0#1)]
  | .cpw c t n => [asWord (BitVec.ofBool c ++ 116#7 ++ t ++ n ++ 0#16)]
  | .twkLoad c r cc g p => [asWord (BitVec.ofBool c ++ 936#10 ++ r ++ cc ++ g ++ p ++ 0#1)]
  | .twkStore c r cc g p => [asWord (BitVec.ofBool c ++ 937#10 ++ r ++ cc ++ g ++ p ++ 0#1)]
  | .twkGather c r cc g p => [asWord (BitVec.ofBool c ++ 938#10 ++ r ++ cc ++ g ++ p ++ 0#1)]
  | .twkScatteradd c r cc g p => [asWord (BitVec.ofBool c ++ 939#10 ++ r ++ cc ++ g ++ p ++ 0#1)]
  | .syncInit c s o v p => [asWord (BitVec.ofBool c ++ 1920#11 ++ s ++ o ++ v ++ p ++ 0#2)]
  | .syncArrive c s o v p => [asWord (BitVec.ofBool c ++ 1921#11 ++ s ++ o ++ v ++ p ++ 0#2)]
  | .syncWait c s o v p => [asWord (BitVec.ofBool c ++ 1922#11 ++ s ++ o ++ v ++ p ++ 0#2)]
  | .syncArrw c s o v p => [asWord (BitVec.ofBool c ++ 1923#11 ++ s ++ o ++ v ++ p ++ 0#2)]
  | .syncTest c s o v p => [asWord (BitVec.ofBool c ++ 1924#11 ++ s ++ o ++ v ++ p ++ 0#2)]
  | .syncRel c s o p => [asWord (BitVec.ofBool c ++ 1925#11 ++ s ++ o ++ 0#6 ++ p ++ 0#2)]
  | .syncAcq c s o v p => [asWord (BitVec.ofBool c ++ 1926#11 ++ s ++ o ++ v ++ p ++ 0#2)]
  | .syncBind c s o v p => [asWord (BitVec.ofBool c ++ 1927#11 ++ s ++ o ++ v ++ p ++ 0#2)]
  | .syncUnbind c s o v p => [asWord (BitVec.ofBool c ++ 1928#11 ++ s ++ o ++ v ++ p ++ 0#2)]
  | .syncExpect c s o v p => [asWord (BitVec.ofBool c ++ 1929#11 ++ s ++ o ++ v ++ p ++ 0#2)]
  | .syncErr c s o v p => [asWord (BitVec.ofBool c ++ 1930#11 ++ s ++ o ++ v ++ p ++ 0#2)]
  | .fenceRel c s p => [asWord (BitVec.ofBool c ++ 1936#11 ++ s ++ 0#12 ++ p ++ 0#2)]
  | .fenceAcq c s p => [asWord (BitVec.ofBool c ++ 1937#11 ++ s ++ 0#12 ++ p ++ 0#2)]
  | .fenceFull c s p => [asWord (BitVec.ofBool c ++ 1938#11 ++ s ++ 0#12 ++ p ++ 0#2)]
  | .fenceOprdy c p => [asWord (BitVec.ofBool c ++ 63537152#26 ++ p ++ 0#2)]
  | .fenceTfence c p => [asWord (BitVec.ofBool c ++ 63569920#26 ++ p ++ 0#2)]
  | .nobjCreate c v p => [asWord (BitVec.ofBool c ++ 999424#20 ++ v ++ p ++ 0#2)]
  | .nobjOpen c v p => [asWord (BitVec.ofBool c ++ 999936#20 ++ v ++ p ++ 0#2)]
  | .nobjClose c v p => [asWord (BitVec.ofBool c ++ 1000448#20 ++ v ++ p ++ 0#2)]
  | .nobjHand c v p => [asWord (BitVec.ofBool c ++ 1000960#20 ++ v ++ p ++ 0#2)]
  | .nobjDrop c v p => [asWord (BitVec.ofBool c ++ 1001472#20 ++ v ++ p ++ 0#2)]
  | .nobjQuery c v p => [asWord (BitVec.ofBool c ++ 1001984#20 ++ v ++ p ++ 0#2)]
  | .nobjMirror c v p => [asWord (BitVec.ofBool c ++ 1002496#20 ++ v ++ p ++ 0#2)]
  | .taskPush c s v p => [asWord (BitVec.ofBool c ++ 1968#11 ++ s ++ 0#6 ++ v ++ p ++ 0#2)]
  | .taskPop c s v p => [asWord (BitVec.ofBool c ++ 1969#11 ++ s ++ 0#6 ++ v ++ p ++ 0#2)]
  | .taskTrypop c s v p => [asWord (BitVec.ofBool c ++ 1970#11 ++ s ++ 0#6 ++ v ++ p ++ 0#2)]
  | .taskEos c s p => [asWord (BitVec.ofBool c ++ 1971#11 ++ s ++ 0#12 ++ p ++ 0#2)]
  | .taskDone c s v p => [asWord (BitVec.ofBool c ++ 1972#11 ++ s ++ 0#6 ++ v ++ p ++ 0#2)]
  | .sysTrap c n p => [asWord (BitVec.ofBool c ++ 15872#14 ++ n ++ 0#6 ++ p ++ 0#2)]
  | .sysEret c p => [asWord (BitVec.ofBool c ++ 65044480#26 ++ p ++ 0#2)]
  | .sysBkpt c p => [asWord (BitVec.ofBool c ++ 65077248#26 ++ p ++ 0#2)]
  | .sysExit c p => [asWord (BitVec.ofBool c ++ 65110016#26 ++ p ++ 0#2)]
  | .sysPyld c p => [asWord (BitVec.ofBool c ++ 65142784#26 ++ p ++ 0#2)]
  | .sysCclr c v p => [asWord (BitVec.ofBool c ++ 1018368#20 ++ v ++ p ++ 0#2)]
  | .sysSleep c v p => [asWord (BitVec.ofBool c ++ 1018880#20 ++ v ++ p ++ 0#2)]
  | .sysHaltctx c v p => [asWord (BitVec.ofBool c ++ 1019392#20 ++ v ++ p ++ 0#2)]
  | .sendEmark c v p => [asWord (BitVec.ofBool c ++ 1024000#20 ++ v ++ p ++ 0#2)]
  | .rep n d s t l => [asWord (254#8 ++ n ++ BitVec.ofBool d ++ BitVec.ofBool s ++ BitVec.ofBool t ++ l ++ 0#13)]
  | .registerWrite _ _ _ _ => []
  | .qnotify _ _ _ => []
  | .qctlEnable _ _ _ => []
  | .qctlDisable _ _ _ => []
  | .qctlResume _ _ _ => []
  | .qctlSkip _ _ _ => []
  | .packetNop _ _ => []
  | .packetLaunch _ _ => []
  | .packetSignal _ _ => []
  | .packetWaitval _ _ => []
  | .packetCheckpoint _ _ => []
  | .heldPacketDispatch _ _ => []
  | .waitvalMet _ _ => []
  | .waitvalTimeout _ _ => []
  | .functionLevelReset _ => []
  | .queueThaw _ => []
  | .vfAssign _ _ => []
  | .vfWithdraw _ _ => []
  | .tenantTableWrite _ _ _ _ _ _ _ _ _ _ => []
  | .chunkRequest _ _ => []
  | .clusterPlace _ _ => []
  | .corReservationComplete _ => []
  | .dispatchRoundExpiry _ => []
  | .objectCopyComplete _ _ => []
  | .objectRestoreComplete _ _ => []
  | .dieFence _ => []
  | .directoryRebuildComplete _ => []
  | .coreLost _ => []
  | .launchComplete _ => []
  | .contextCreate _ => []
  | .contextConfigWrite _ _ _ => []
  | .preemptRequest _ => []
  | .preemptWithdraw _ => []
  | .preemptDeadline _ => []
  | .contextResume _ => []
  | .checkpointRequest _ _ => []
  | .checkpointRecorded _ _ => []
  | .contextThaw _ => []
  | .restoreRequest _ => []
  | .contextTeardown _ => []
  | .coreReassign _ _ => []
  | .scrubComplete _ => []
  | .agemaxExceeded _ => []
  | .teamSwap _ => []
  | .teamSaveComplete _ => []
  | .teamReadmit _ => []
  | .readmitRoundExpiry _ => []
  | .convergenceTimeout _ _ _ _ => []
  | .loadLand _ _ => []
  | .teamKillDrained _ => []
  | .debugStopRequest _ _ => []
  | .groupStopped _ _ => []
  | .debugWrite _ _ _ _ _ => []
  | .debugResume _ _ => []
  | .engineWordStart _ => []
  | .mmaComplete _ => []
  | .bankLoadComplete _ _ => []
  | .bankDrainComplete _ _ => []
  | .bankQueryComplete _ => []
  | .twkJobStart _ => []
  | .twkTileDone _ _ => []
  | .twkJobComplete _ _ => []
  | .cpyRetire _ _ => []
  | .ackReceive _ _ _ => []
  | .lockRetry _ _ => []
  | .yieldExpiry _ _ => []
  | .sleepExpiry _ _ => []
  | .pageRequestPost => []
  | .resolveResolved _ _ => []
  | .resolveRefuseKill _ _ => []
  | .resolveRefuseFreeze _ _ => []
  | .frameopGrant _ => []
  | .frameopReclaim _ => []
  | .rangeInvalidateRequest _ _ _ => []
  | .rangeInvalidateComplete _ => []
  | .backgroundWalkComplete _ _ => []
  | .sluiceEpochEnd _ _ => []
  | .migrationComplete _ => []
  | .portEnable _ => []
  | .trainingComplete _ _ => []
  | .trainingRetryTimer _ => []
  | .laneFault _ => []
  | .portFence _ => []
  | .portUnfence _ => []
  | .frameResendTimeout _ => []
  | .routeDetour _ _ => []
  | .frameLnack _ _ => []
  | .frameAckonly _ _ => []
  | .frameRead _ _ => []
  | .frameWrite _ _ => []
  | .frameAtomic _ _ => []
  | .frameResp _ _ => []
  | .frameWrack _ _ => []
  | .frameMarker _ _ => []
  | .frameLaunch _ _ => []
  | .frameLaunchnack _ _ => []
  | .remoteTimeout _ _ => []
  | .clockSettingRequest _ _ _ _ => []
  | .clockRelockComplete _ _ => []
  | .pcapWrite _ => []
  | .slewWrite _ _ _ => []
  | .slopeStep _ _ => []
  | .powerOnBoot _ _ _ _ _ _ => []
  | .imageWrite _ _ _ => []
  | .liveUpdate _ => []
  | .updateHeartbeat => []
  | .heartbeatTimeout => []
  | .pluginTimeout _ => []
  | .getVersion => []
  | .getCapabilities => []
  | .negotiateAlgorithms => []
  | .getDigests => []
  | .getCertificate => []
  | .challenge _ => []
  | .getMeasurements _ => []
  | .wakeFrame _ => []
  | .reservedEncoding _ => []
  | .reservedTypePacket _ _ => []
  | .discardedFrame _ _ _ => []
  | .unreachableClear _ => []
  | .powerLoss => []
  | .restoreComplete _ _ _ => []
  | .contextReplay _ _ _ => []
  | .debuggerAttach _ _ => []
  | .controlCoreWake => []

end Sys2Proof
end

