-- ==== Sys2Proof/Machine/Picker.lean ====
section
/-!
DEFINITION. Which threads may issue and what they issue next: the ends of waits (R101), pending operands (R57), the triggers
that park a thread (R93), the replay of a record (R93, R94), fetch (R40), issue groups and runs (R41, R58, R61), paths and
the picker (R83 to R86).
-/
namespace Sys2Proof.Machine

/-! ## Readiness (R83, R101) -/

/-- The context's teams issue (R120). -/
def Ctx.issues (k : Ctx) (forced : Bool) : Bool :=
  k.state = .running || k.state = .preempting || (k.state = .checkpointing && !forced)

/-- A launch declares a name (R172). -/
def State.declares (s : State) (launch : Nat) (name : DWord) : Bool := (s.launch? launch).any fun l => l.recd.names.contains name

/-- A team may issue: it is resident, its context runs, a COR team's cluster has started (R160), no object declared for
its launch is still being restored to its core (R172), and none that it declares is being moved away from it (R180). -/
def State.teamIssues (s : State) (t : Team) : Bool :=
  let q := s.quarter (dieOf t.core) (quarterOf (numOf t.core))
  t.state = .resident && !s.coreGone t.core && !q.relocking
    && (match s.ctx? t.ctx with
      | some k => k.issues t.forced
      | none => false)
    && (match s.launch? t.launch with
      | some l => !l.recd.cor || l.started.contains t.cix
      | none => false)
    && !s.objs.any fun o => (o.state = .restoring && o.holder = t.core && o.forLaunch = some t.launch)
      || (o.state = .moving && o.forLaunch.isSome && o.ctx = t.ctx && o.holder = t.core && s.declares t.launch o.name)

/-- The thread replays its record before it issues: what held the record is resolved (R93). -/
def Thread.replays (th : Thread) : Bool := !th.record.isEmpty && th.recCause = 0

/-! ## Pending operands and record-targeted registers (R57, R92, R93) -/

/-- A thread with a non-empty record parks before the word (R93). -/
def Thread.mustPark (th : Thread) (i : Instr) : Bool :=
  if th.record.isEmpty then false
  else
    let preds := predUses i
    th.record.any (fun a => a.predTargets.any fun k => preds.contains k)
      || (th.pred (predOf i) && (
        th.record.any (fun a => a.targets.any fun n => (regUses i).contains n)
        || match recordClass i with
          | .plain => false
          | .access rel => rel || 8 <= th.record.length
          | .meet => true))

/-- Loads that the word of the bundle's threads would wait for land now, where their values are there (R57). -/
def State.landFor (s : State) (i : Instr) : State :=
  s.forRefs s.issue.bundle fun s r => if s.pendingOn s.issue.core r i then s.landAll s.issue.core r else s

/-- The bundle stops before a word that cannot issue yet, and goes on there together (R57, R84).  The threads for which waits
holds wait for an operand. -/
def State.holdBundle (s : State) (waits : ThreadRef → Bool) : State :=
  let s := s.forRefs s.issue.bundle fun s r => s.updThread r fun th =>
    { th with pc := s.issue.pc, status := if waits r then .waiting .pending else th.status }
  { s with issue := { s.issue with bundle := [], hold := true } }

/-! ## Replay (R93, R94) -/

/-- A cause that a replayed entry meets; the entry is the head of the record. -/
def State.replayCause (s : State) (r : ThreadRef) (tm : Team) (a : Access) (c : Cause) (level : Nat) (bad : Bool) : State :=
  let cyc := (s.core tm.core).cyc
  if c = cPAGE_ABSENT && s.parksAbsent tm then
    let s := s.setCause r.team (r.tid / 32) c
    if bad then s.killTeam r.team c (some r)
    else (s.updThread r fun th => { th.park c cyc with recCause := c }).openRequest tm.ctx a.va a.kinds tm.core level
  else s.deliver r c true

/-- Perform the entries of a record in order until one does not go. -/
def State.replayFrom (s : State) (r : ThreadRef) (tm : Team) : Nat → State
  | 0 => s
  | n + 1 =>
    match s.thread? r with
    | none => s
    | some th =>
      match th.record with
      | [] => s
      | a :: _ =>
        if !s.issue.bundle.contains r then s
        -- no later access is performed before the acquire of an earlier atomic (R198, R200)
        else if th.acq then s.block r (.release 0)
        else match s.perform r a with
          | (s, .busy) => s
          | (s, .done) => (s.updThread r fun th => { th with record := th.record.drop 1 }).replayFrom r tm n
          | (s, .wait w) => s.block r w
          | (s, .cause c l) => s.replayCause r tm a c l false
          | (s, .badVa) => s.replayCause r tm a cPAGE_ABSENT 0 true

/-- A thread replays its record; once it is empty the thread goes on at the first word of its run. -/
def State.replay (s : State) (r : ThreadRef) : State :=
  match s.team? r.team, s.thread? r with
  | some tm, some th =>
    let s : State := { s with issue := { Issue.idle with core := tm.core, bundle := [r], pc := th.pc, start := th.pc } }
    let s := s.updThread r fun th => { th with status := .ready }
    { s.replayFrom r tm (th.record.length) with issue := Issue.idle }
  | _, _ => s

/-! ## Issue groups and runs (R41, R48, R58, R61) -/

/-- The major opcode. -/
def opOf (w : Word) : Nat := (w.extractLsb' 24 7).toNat

/-- A branch, which ends its issue group whatever its C bit (R51). -/
def isBranch (w : Word) : Bool := 0x64 <= opOf w && opOf w <= 0x67

/-- A NOP word. -/
def isNop (w : Word) : Bool := w &&& 0x7FFFFFFF = 0

/-- A word of the collective class (R85). -/
def isCollective (w : Word) : Bool :=
  (0x6C <= opOf w && opOf w <= 0x71) || (opOf w = 0x72 && w.extractLsb' 21 3 = 1)

/-- The slot of the word after the one in a slot: MOVK takes its literal with it. -/
def slotAfter (w : Word) (slot : Nat) : Nat := if opOf w = 0x49 && slot < 2 then slot + 2 else slot + 1

/-- Slots of the words of the issue group that begins at a slot, and the slot after it.  A REP takes its target with it. -/
def groupSlots (ws : List Word) : Nat → Nat → List Nat × Nat
  | 0, slot => ([], slot)
  | n + 1, slot =>
    let w := ws.getD slot 0
    if 3 <= slot then ([], slot)
    else if opOf w = 0x7E then ([slot], min 3 (slot + 2))
    else
      let nxt := slotAfter w slot
      let c := if opOf w = 0x49 && slot = 1 then false else w.getLsbD 31
      if isBranch w || !c || 3 <= nxt then ([slot], nxt)
      else
        let q := groupSlots ws n nxt
        (slot :: q.1, q.2)

/-- The packet links to the next: C of the word that stands in slot 2 (R41, R48). -/
def links (ws : List Word) : Bool :=
  if opOf (ws.getD 0 0) = 0x49 then (ws.getD 2 0).getLsbD 31
  else if opOf (ws.getD 1 0) = 0x49 then (ws.getD 1 0).getLsbD 31
  else (ws.getD 2 0).getLsbD 31

/-- Words of a packet from a slot on, without literals. -/
def wordsFrom (ws : List Word) : Nat → Nat → List Word
  | 0, _ => []
  | n + 1, slot => if 3 <= slot then [] else ws.getD slot 0 :: wordsFrom ws n (slotAfter (ws.getD slot 0) slot)

/-- The words of a run from a place on, and the place after the run; none where a packet cannot be seen. -/
def State.restOfRun (s : State) (k : Ctx) : Nat → Nat → Word → Nat → Option (List Word × Pc)
  | 0, _, _, _ => none
  | n + 1, runLen, pkt, slot =>
    match s.peek k pkt with
    | none => none
    | some ws =>
      let here := wordsFrom ws 3 slot
      if links ws && runLen < 4 then (s.restOfRun k n (runLen + 1) (pkt + 1) 0).map fun q => (here ++ q.1, q.2)
      else some (here, ⟨pkt + 1, 0⟩)

/-- The instruction in a slot; MOVK has no literal in slot 2 (R48). -/
def instrAt (ws : List Word) (slot : Nat) : Except DecodeErr Instr :=
  if slot = 2 && opOf (ws.getD 2 0) = 0x49 then .error .illegalField
  else decodeWord (ws.getD slot 0) (ws.getD (slot + 1) 0)

/-! ## Paths and the picker (R83 to R86) -/

/-- A thread that may issue, with the place where it stands. -/
structure Stand where
  ref : ThreadRef
  ctx : Nat
  pc : Pc
  /-- When it last issued, since when it has been ready where it stands, and when its path last issued without it. -/
  last : Nat
  since : Nat
  pathAt : Nat
  keeps : Bool
deriving DecidableEq, Repr

/-- The next issue group of a thread has its operands (R57, R83). -/
def State.operandsReady (s : State) (core : Nat) (k : Ctx) (r : ThreadRef) (pc : Pc) : Bool :=
  if !(s.core core).loads.any fun l => l.ref = r then true
  else match s.peek k pc.pkt with
    | none => true
    | some ws => (groupSlots ws 3 pc.slot).1.all fun sl =>
      let ready (sl : Nat) : Bool := match instrAt ws sl with
        | .ok i => !s.pendingOn core r i
        | .error _ => true
      ready sl && (opOf (ws.getD sl 0) != 0x7E || ready (sl + 1))

/-- A full-group word has its operands, for all 32 members. -/
def State.fullReady (s : State) (core : Nat) (k : Ctx) (r : ThreadRef) (at_ : Pc) : Bool :=
  match (s.peek k at_.pkt).map fun ws => instrAt ws at_.slot with
  | some (.ok i) => (List.range 32).all fun l => !s.operandPending core ⟨r.team, r.tid / 32 * 32 + l⟩ i
  | _ => true

/-- The full-group word that the thread waits at, if it does, has its operands. -/
def State.mayMeet (s : State) (core : Nat) (k : Ctx) (r : ThreadRef) (th : Thread) : Bool :=
  match th.fullAt with
  | some p => s.fullReady core k r p
  | none => true

/-- The thread waits at a word that acts for its bundle or its group, or whose bundle is to stay together: it issues again with those
that issued it last (R58, R370, R379). -/
def Thread.keeps (th : Thread) : Bool :=
  match th.status with
  | .waiting (.collective _ _) | .waiting (.fullGroup _) => false
  | .waiting _ => true
  | _ => false

/-- The threads of a core that may issue, in ascending team and thread number. -/
def State.stands (s : State) (core : Nat) : List Stand :=
  (s.teams.filter fun t => t.core = core && s.teamIssues t).flatMap fun t =>
    t.refs.filterMap fun r =>
      match s.thread? r, s.ctx? t.ctx with
      | some th, some k =>
        if s.threadReady r core && !th.replays && s.operandsReady core k r th.pc
            && s.mayMeet core k r th then
          some ⟨r, t.ctx, th.pc, th.lastIssue, max th.lastIssue th.readyAt, th.pathAt, th.keeps⟩
        else none
      | _, _ => none

/-- Paths: stands of one context at one place, each path in the order of its first thread. -/
def pathsOf : List Stand → List (List Stand)
  | [] => []
  | x :: xs =>
    match (pathsOf xs).partition fun p => match p with
      | y :: _ => y.ctx = x.ctx && y.pc = x.pc
      | [] => false with
    | (p :: ps, rest) => (x :: p) :: (ps ++ rest)
    | ([], rest) => [x] :: rest

/-- Cycles since a bundle last issued from the path, or since the path became ready (R86; DEDUCED, log entry 60). -/
def pathAge (cyc : Nat) (p : List Stand) : Nat :=
  cyc - max (p.foldl (fun m x => max m x.pathAt) 0) (p.foldl (fun m x => min m x.since) cyc)

/-- The better of two paths by a measure; the first on a tie. -/
def bestPath (f : List Stand → Nat) : List (List Stand) → Option (List Stand)
  | [] => none
  | p :: ps => match bestPath f ps with
    | none => some p
    | some q => if f p < f q then some q else some p

/-- The path's age exceeds AGEMAX. -/
def State.aged (s : State) (cyc : Nat) (p : List Stand) : Bool :=
  match p with
  | x :: _ => ((s.ctx? x.ctx).map fun k => decide (k.agemax < pathAge cyc p)).getD false
  | [] => false

/-- The path the picker takes: the oldest once an age passes AGEMAX, else the one with the most threads. -/
def State.pickPath (s : State) (core : Nat) (paths : List (List Stand)) : Option (List Stand) :=
  let cyc := (s.core core).cyc
  if (s.core core).oldest || paths.any (s.aged cyc) then bestPath (pathAge cyc) paths else bestPath List.length paths

/-- Insert a stand by how long it has waited. -/
def insertStand (x : Stand) : List Stand → List Stand
  | [] => [x]
  | y :: ys => if x.last <= y.last then x :: y :: ys else y :: insertStand x ys

/-- Up to 32 threads of a path, those that have waited longest (R83), in ascending team and thread number; for a run with a word of
the collective class, of one group only (R85); a bundle that waits at a word issues it again as that bundle.  Of a run whose later
packets cannot be looked at yet the words of its first packet decide (R75; DESIGN CHOICE, log entry 83). -/
def State.bundleOf (s : State) (p : List Stand) : List ThreadRef :=
  let sorted := p.foldr insertStand []
  match sorted with
  | [] => []
  | x :: _ =>
    let coll := match s.ctx? x.ctx with
      | none => false
      | some k =>
        let runLen := match s.thread? x.ref with
          | some th => if th.inRun then th.runLen else 1
          | none => 1
        match s.restOfRun k 4 runLen x.pc.pkt x.pc.slot with
        | some (ws, _) => ws.any isCollective
        | none => match s.peek k x.pc.pkt with
          | some ws => (wordsFrom ws 3 x.pc.slot).any isCollective
          | none => false
    let mine := sorted.filter fun y => y.keeps = x.keeps && (!x.keeps || y.last = x.last)
      && (!coll || (y.ref.team = x.ref.team && y.ref.tid / 32 = x.ref.tid / 32))
    let chosen := mine.take 32
    (p.filter chosen.contains).map Stand.ref

/-- A thread of the bundle that a core is held to is still in its run: it may issue, it waits for an operand or for room, or it waits
in the replay of its record (R84). -/
def Thread.stays (th : Thread) : Bool :=
  th.inRun && match th.status with
    | .ready | .waiting .pending | .waiting (.room _) => true
    | .waiting .lock => false
    | .waiting _ => !th.record.isEmpty
    | _ => false

/-- The bundle that a core issues next: the rest of the run that holds the core (R84), or one of the picked path. -/
def State.corePick (s : State) (core : Nat) : Option (List ThreadRef) :=
  let st := s.stands core
  let stays (r : ThreadRef) : Bool := (s.thread? r).any Thread.stays
  match ((s.core core).held.map HeldRun.bundle).map (·.filter stays) with
  | some (r :: rs) =>
    let ready := (r :: rs).all fun x => st.any fun y => y.ref = x
    if ready then some (r :: rs) else none
  | _ => (s.pickPath core (pathsOf st)).map s.bundleOf

/-- The age of a path of the core exceeds AGEMAX: the core's next pick is its oldest path (R86).  Where no path's age does, the event
says nothing. -/
def State.ageMax (s : State) (core : Nat) : State :=
  if (pathsOf (s.stands core)).any (s.aged (s.core core).cyc) then s.updCore core fun c => { c with oldest := true } else s

/-- AGEMAX_EXCEEDED (R86).  -/
def execAgemaxExceeded (core : Nat) (st : State) : Res :=
  .next (st.ageMax core)

/-- A thread of a core that replays its record now. -/
def State.coreReplay (s : State) (core : Nat) : Option ThreadRef :=
  (s.teams.filter fun t => t.core = core && s.teamIssues t).findSome? fun t =>
    t.refs.find? fun r => s.threadReady r core && ((s.thread? r).map Thread.replays).getD false

end Sys2Proof.Machine
end

