-- ==== Sys2Proof/Machine/ReadSr.lean ====
section
/-!
DEFINITION. SRD: what the special registers of R300 read as, %PREQ (R123) among them.
-/
namespace Sys2Proof.Machine

/-- Front cycles from REQ to the first forced save of a team of the context on a core: one that has yielded in time is saved without
one, and one that was forced has had it (R125). -/
def State.firstDeadline (s : State) (core ctx : Nat) : Nat :=
  ((s.teams.filter fun t => t.core = core && t.ctx = ctx && t.state = .resident && !t.forced && !s.teamYielded t).map
    s.deadlineOf).foldl (fun m d =>
    match m with
    | none => some d
    | some x => some (min x d)) none |>.getD 0

/-- %PREQ of a context on a core (R123). -/
def State.preqWord (s : State) (core ctx : Nat) : Word :=
  let co := s.core core
  match co.preqs.find? (·.ctx == ctx) with
  | some p =>
    if p.req then
      let left := min 0xFFFF ((p.since + s.firstDeadline core ctx - co.cyc + 4095) / 4096)
      BitVec.ofNat 32 (left * 2 ^ 16 + (if p.ckpt then 2 else 0) + 1)
    else 0
  | none => 0

/-- Special register n as a thread reads it (R300, R301), but for CYCL and CYCH. -/
def State.readSr (s : State) (r : ThreadRef) (th : Thread) (n : Nat) : Word :=
  match s.team? r.team with
  | none => 0
  | some tm =>
    let la := s.launch? tm.launch
    let gr := tm.groups[r.tid / 32]?
    let w (k : Nat) : Word := BitVec.ofNat 32 k
    let ln (f : Launch → Word) : Word := (la.map f).getD 0
    let gp (f : Group → Word) : Word := (gr.map f).getD 0
    match n with
    | 0x000 => w r.tid
    | 0x001 => w (r.tid / 32)
    | 0x002 => w (r.tid % 32)
    | 0x003 => w tm.x
    | 0x004 => w tm.y
    | 0x005 => w tm.z
    | 0x006 => w tm.clx
    | 0x007 => ln fun l => w (l.grid.getD 0 1)
    | 0x008 => ln fun l => w (l.grid.getD 1 1)
    | 0x009 => ln fun l => w (l.grid.getD 2 1)
    | 0x00A => w tm.core
    | 0x00B => w tm.ctx
    | 0x00C => gp fun g => w g.role
    | 0x00D => if tm.pad then 1 else 0
    | 0x018 => ln fun l => w l.bucket
    | 0x030 => th.seltag
    | 0x031 => th.selg
    | 0x032 => gp Group.dqbase
    | 0x033 => gp Group.dqlen
    | 0x034 => gp Group.dqcnt
    | 0x038 => th.fflags
    | 0x039 => th.fenable
    | 0x03A => th.frm
    | 0x048 => th.ecause
    | 0x049 => th.epc
    | 0x04A => th.stkp
    | 0x04B => w th.repc
    | 0x04C => th.ackn
    | 0x04D => s.preqWord tm.core tm.ctx
    | 0x050 => ln fun l => l.args.extractLsb' 0 32
    | 0x051 => ln fun l => l.args.extractLsb' 32 32
    | _ =>
      if 0x010 <= n && n < 0x018 then ln fun l => l.sh.getD (n - 0x010) 0
      else if 0x040 <= n && n < 0x048 then gp fun g => g.causes.extractLsb' (32 * (n - 0x040)) 32
      else 0

/-- SRD of one special register by one thread (R299); %CYCL is the core's count at the front cycle in which the word issues (R57,
R302). -/
def State.srd (s : State) (r : ThreadRef) (d n : Nat) : State :=
  match s.thread? r with
  | none => s
  | some th =>
    if n = 0x020 || n = 0x021 then
      let cyc := ((s.team? r.team).map fun tm => (s.core tm.core).cyc).getD 0 + s.issue.off
      let live : Word := if n = 0x020 then BitVec.ofNat 32 cyc else th.cycSnap
      match s.cycleValue r live with
      | some (v, s) => s.updThread r fun th =>
          let th := if n = 0x020 then { th with cycSnap := BitVec.ofNat 32 (cyc / 2 ^ 32) } else th
          th.result false d v
      | none =>
        match s.team? r.team with
        | some tm => ((s.leaveBundle r).diverge tm.ctx [0, r.team, r.tid]).tell "DIVERGED" [tm.ctx]
        | none => s
    else s.updThread r fun th => th.result false d (s.readSr r th n)

/-- SRD (R299). -/
def execSrd (c : Bool) (d : BitVec 6) (i : BitVec 12) (st : State) : Res :=
  .next (st.eachIssuing (.srd c d i) fun s r => s.srd r d.toNat i.toNat)

end Sys2Proof.Machine
end

