-- ==== Sys2Proof/Machine/Repeat.lean ====
section
/-!
DEFINITION. REP (R63 to R66), and the words that are not instructions (R67).
-/
namespace Sys2Proof.Machine

/-- The meaning of a word that REP may repeat (R66); others have none here. -/
def repTarget (i : Instr) (st : State) : Res :=
  match i with
  | .iadd c w d s t p => execIadd c w d s t p st
  | .isub c w d s t p => execIsub c w d s t p st
  | .imul c w d s t p => execImul c w d s t p st
  | .imulh c w d s t p => execImulh c w d s t p st
  | .imulhu c w d s t p => execImulhu c w d s t p st
  | .imad c d s t p => execImad c d s t p st
  | .imin c w d s t p => execImin c w d s t p st
  | .imax c w d s t p => execImax c w d s t p st
  | .umin c w d s t p => execUmin c w d s t p st
  | .umax c w d s t p => execUmax c w d s t p st
  | .and c w d s t p => execAnd c w d s t p st
  | .or c w d s t p => execOr c w d s t p st
  | .xor c w d s t p => execXor c w d s t p st
  | .andn c w d s t p => execAndn c w d s t p st
  | .shl c w d s t p => execShl c w d s t p st
  | .shr c w d s t p => execShr c w d s t p st
  | .sar c w d s t p => execSar c w d s t p st
  | .popc c w d s p => execPopc c w d s p st
  | .clz c w d s p => execClz c w d s p st
  | .brev c w d s p => execBrev c w d s p st
  | .prmb c w d s t p => execPrmb c w d s t p st
  | .iadds c w d s t p => execIadds c w d s t p st
  | .idot4 c d s t p => execIdot4 c d s t p st
  | .iadd64 c w d s t p => execIadd64 c w d s t p st
  | .isub64 c w d s t p => execIsub64 c w d s t p st
  | .imadw c d s t p => execImadw c d s t p st
  | .shl64 c w d s t p => execShl64 c w d s t p st
  | .sel c w d s t k => execSel c w d s t k st
  | .mov c w d s p => execMov c w d s p st
  | .fadd c w d s t p => execFadd c w d s t p st
  | .fsub c w d s t p => execFsub c w d s t p st
  | .fmul c w d s t p => execFmul c w d s t p st
  | .ffma c d s t p => execFfma c d s t p st
  | .fmin c w d s t p => execFmin c w d s t p st
  | .fmax c w d s t p => execFmax c w d s t p st
  | .fsgn c w d s t p => execFsgn c w d s t p st
  | .hadd2 c w d s t p => execHadd2 c w d s t p st
  | .hmul2 c w d s t p => execHmul2 c w d s t p st
  | .hfma2 c d s t p => execHfma2 c d s t p st
  | .badd2 c w d s t p => execBadd2 c w d s t p st
  | .bmul2 c w d s t p => execBmul2 c w d s t p st
  | .bfma2 c d s t p => execBfma2 c d s t p st
  | .dadd c w d s t p => execDadd c w d s t p st
  | .dmul c w d s t p => execDmul c w d s t p st
  | .dfma c d s t p => execDfma c d s t p st
  | .cvtI32F32 c w d s p => execCvtI32F32 c w d s p st
  | .cvtU32F32 c w d s p => execCvtU32F32 c w d s p st
  | .cvtF32I32 c w d s p => execCvtF32I32 c w d s p st
  | .cvtF32U32 c w d s p => execCvtF32U32 c w d s p st
  | .cvtF32I32Rz c w d s p => execCvtF32I32Rz c w d s p st
  | .cvtF32U32Rz c w d s p => execCvtF32U32Rz c w d s p st
  | .cvtF32F16 c d s p => execCvtF32F16 c d s p st
  | .cvtF32Bf16 c d s p => execCvtF32Bf16 c d s p st
  | .cvtF16F32 c w d s h p => execCvtF16F32 c w d s h p st
  | .cvtBf16F32 c w d s h p => execCvtBf16F32 c w d s h p st
  | .cvtF32E4m3 c d s p => execCvtF32E4m3 c d s p st
  | .cvtF32E5m2 c d s p => execCvtF32E5m2 c d s p st
  | .cvtE4m3F32 c w d s j p => execCvtE4m3F32 c w d s j p st
  | .cvtE5m2F32 c w d s j p => execCvtE5m2F32 c w d s j p st
  | .cvtF32F64 c w d s p => execCvtF32F64 c w d s p st
  | .cvtF64F32 c w d s p => execCvtF64F32 c w d s p st
  | .cvtI32F64 c w d s p => execCvtI32F64 c w d s p st
  | .cvtF64I32 c w d s p => execCvtF64I32 c w d s p st
  | .cvtF64I32Rz c w d s p => execCvtF64I32Rz c w d s p st
  | .sfuRcp c w d s p => execSfuRcp c w d s p st
  | .sfuRsq c w d s p => execSfuRsq c w d s p st
  | .sfuSqrt c w d s p => execSfuSqrt c w d s p st
  | .sfuEx2 c w d s p => execSfuEx2 c w d s p st
  | .sfuLg2 c w d s p => execSfuLg2 c w d s p st
  | .sfuSin c w d s p => execSfuSin c w d s p st
  | .sfuCos c w d s p => execSfuCos c w d s p st
  | .sfuTanh c w d s p => execSfuTanh c w d s p st
  | .sfuSigm c w d s p => execSfuSigm c w d s p st
  | .qsc4Fold c d s p => execQsc4Fold c d s p st
  | .qsc4Merge c d s p => execQsc4Merge c d s p st
  | .qsc4Scale c w d s p => execQsc4Scale c w d s p st
  | .qsc8Fold c d s p => execQsc8Fold c d s p st
  | .qsc8Merge c d s p => execQsc8Merge c d s p st
  | .qsc8Scale c w d s p => execQsc8Scale c w d s p st
  | .qnt4 c d s t p => execQnt4 c d s t p st
  | .qnt8 c d s t p => execQnt8 c d s t p st
  | .dq c w d s t p => execDq c w d s t p st
  | .fclassF32 c w d s p => execFclassF32 c w d s p st
  | .fclassF16 c w d s p => execFclassF16 c w d s p st
  | .fclassBf16 c w d s p => execFclassBf16 c w d s p st
  | .fclassF64 c w d s p => execFclassF64 c w d s p st
  | .fclassE4m3 c w d s p => execFclassE4m3 c w d s p st
  | .fclassE5m2 c w d s p => execFclassE5m2 c w d s p st
  | .shr64 c w d s t p => execShr64 c w d s t p st
  | .addi c d s i => execAddi c d s i st
  | .muli c d s i => execMuli c d s i st
  | .andi c d s i => execAndi c d s i st
  | .ori c d s i => execOri c d s i st
  | .xori c d s i => execXori c d s i st
  | .shli c d s i => execShli c d s i st
  | .shri c d s i => execShri c d s i st
  | .sari c d s i => execSari c d s i st
  | .addi64 c d s i => execAddi64 c d s i st
  | .srd c d i => execSrd c d i st
  | .swr c s i => execSwr c s i st
  | .ldb c d a p i => execLdb c d a p i st
  | .ldh c d a p i => execLdh c d a p i st
  | .ldw c d a p i => execLdw c d a p i st
  | .ldd c d a p i => execLdd c d a p i st
  | .ldq c d a p i => execLdq c d a p i st
  | .stb c d a p i => execStb c d a p i st
  | .sth c d a p i => execSth c d a p i st
  | .stw c d a p i => execStw c d a p i st
  | .std c d a p i => execStd c d a p i st
  | .stq c d a p i => execStq c d a p i st
  | .ldwn c d a q i => execLdwn c d a q i st
  | .ldqn c d a q i => execLdqn c d a q i st
  | .lsw c d a p i => execLsw c d a p i st
  | .lsq c d a p i => execLsq c d a p i st
  | .ssw c d a p i => execSsw c d a p i st
  | .ssq c d a p i => execSsq c d a p i st
  | _ => .next st

/-- A compare opcode of format A (R43); PLOP counts as one (R297). -/
def isCompare (op : Nat) : Bool := op = 0x1C || op = 0x1D || op = 0x26 || op = 0x33

/-- What a REP word asks for: iterations, stepped fields, stride. -/
structure RepForm where
  n : Nat
  sd : Bool
  s1 : Bool
  s2 : Bool
  st : Nat
deriving DecidableEq, Repr

/-- The form of REP's fields (R63, R64). -/
def RepForm.of (n : BitVec 6) (d s t : Bool) (l : BitVec 2) : RepForm :=
  ⟨if n = 0 then 64 else n.toNat, d, s, t, 2 ^ l.toNat⟩

/-- The target word with k added to its stepped fields; none where one leaves the registers.  A format M word keeps its off9
here: `RepForm.bump` adds to it. -/
def RepForm.stepped (f : RepForm) (w : Word) (k : Nat) : Option Word :=
  let op := opOf w
  let fld (hi lo : Nat) : Nat := bitsOf w.toNat hi lo
  let add (on : Bool) (hi lo : Nat) : Option Nat := if !on then some 0 else if fld hi lo + k < 64 then some (k * 2 ^ lo) else none
  let parts := if op < 0x40 then [add f.sd 22 17, add f.s1 16 10, add f.s2 9 3] else [add f.sd 23 18, add f.s1 17 12]
  if parts.all Option.isSome then some (BitVec.ofNat 32 (w.toNat + (parts.map fun x => x.getD 0).sum)) else none

/-- What iteration i adds to off9 of a format M target. -/
def RepForm.bump (f : RepForm) (w : Word) (i : Nat) : Nat := if 0x50 <= opOf w && f.s2 then i * f.st else 0

/-- A reserved major opcode below 0x60 (R74): it has no format (R75), so the word is no target of format A, I or M. -/
def reservedOp (op : Nat) : Bool := (0x3B <= op && op < 0x40) || (0x4D <= op && op < 0x50)

/-- A source code of a latch or a constant; 0x7F is reserved (R44). -/
def latchOrConst (code : Nat) : Bool := 0x40 <= code && code < 0x7F

/-- The structural faults of R66 that a REP and its target show. -/
def RepForm.badTarget (f : RepForm) (w : Word) : Bool :=
  let op := opOf w
  let code (hi lo : Nat) : Nat := bitsOf w.toNat hi lo
  w.getLsbD 31 || op = 0 || 0x60 <= op || op = 0x48 || op = 0x49 || isCompare op || reservedOp op
    || (op < 0x40 && ((f.s1 && latchOrConst (code 16 10)) || (f.s2 && latchOrConst (code 9 3))))
    || (0x40 <= op && op < 0x50 && f.s2)

/-- A stepped pair or quad needs a stride that keeps its alignment (R66): one step, taken with the registers wrapping round. -/
def RepForm.strideOk (f : RepForm) (w : Word) : Bool :=
  let op := opOf w
  let wrap (on : Bool) (hi lo : Nat) (v : Nat) : Nat :=
    let x := bitsOf v hi lo
    if on && x < 64 then v - x * 2 ^ lo + (x + f.st) % 64 * 2 ^ lo else v
  let v := w.toNat
  let v := if op < 0x40 then wrap f.s2 9 3 (wrap f.s1 16 10 (wrap (f.sd && !w.getLsbD 23) 22 17 v))
    else wrap f.s1 17 12 (wrap f.sd 23 18 v)
  match decodeWord (BitVec.ofNat 32 v) 0 with
  | .ok i => fieldCheck 128 i
  | .error _ => true

/-- The instruction of iteration i. -/
def RepForm.instr (f : RepForm) (w : Word) (i : Nat) : Option Instr :=
  (f.stepped w (i * f.st)).bind fun x => match decodeWord x 0 with
    | .ok i => some i
    | .error _ => none

/-- The cause that a REP group raises at issue for a thread with this NREG (R66), before iteration 0. -/
def RepForm.cause (f : RepForm) (target : Option Word) (bad : Bool) (nreg : Nat) : Option Cause :=
  match target with
  | none => some cREP_TARGET
  | some w =>
    if bad || f.badTarget w then some cREP_TARGET
    else match decodeWord w 0 with
      | .error .illegalOpcode => some cILLEGAL_OPCODE
      | _ =>
        let ok (i : Nat) : Bool := match f.instr w i with
          | some x => fieldCheck nreg x
          | none => false
        if f.strideOk w && (List.range f.n).all ok then none else some cILLEGAL_FIELD

/-- One iteration for the threads of the bundle that have reached it.  A thread that must park stops between iterations; where an
operand of some thread is pending the whole bundle waits there (R84). -/
def State.repIteration (s : State) (f : RepForm) (w : Word) (base i : Nat) : State :=
  match f.instr w i with
  | none => s
  | some x =>
    let all := s.issue.bundle
    let reached (r : ThreadRef) : Bool := ((s.thread? r).map fun th => decide (th.repc <= i)).getD false
    let act := all.filter reached
    let s := s.forRefs act fun s r =>
      match s.thread? r with
      | some th => if th.mustPark x then s.parkAtWord r th.recCause else s
      | none => s
    let act := act.filter fun r => s.issue.bundle.contains r
    if act.isEmpty then s
    else
      let s := s.landFor x
      if act.any fun r => s.pendingOn s.issue.core r x then
        s.holdBundle fun r => act.contains r && s.pendingOn s.issue.core r x
      else
        let s1 : State := { s with issue := { s.issue with bundle := act, next := none, bump := f.bump w i, off := s.issue.off + (i - base) } }
        match repTarget x s1 with
        | .next s2 =>
          let left := s2.issue.bundle
          let s2 := s2.forRefs left fun s r => s.updThread r fun th => { th with repc := i + 1 }
          { s2 with issue := { s2.issue with
            bundle := all.filter fun r => left.contains r || !reached r, next := s.issue.next, bump := 0, off := s.issue.off } }
        | _ => s

/-- REP over the whole bundle (R64, R65), from the iteration that some thread of it stands at. -/
def State.repeated (s : State) (f : RepForm) : State :=
  let w := s.issue.next.getD 0
  let s := s.forRefs s.issue.bundle fun s r =>
    match (s.nregOf r).bind (f.cause (if s.issue.pc.slot = 2 then none else s.issue.next) s.issue.bad) with
    | some c => s.raise r c
    | none => s
  let base := (s.issue.bundle.filterMap fun r => (s.thread? r).map Thread.repc).min?.getD 0
  let s := (List.range f.n).foldl (fun s i => s.repIteration f w base i) s
  s.forRefs s.issue.bundle fun s r => s.updThread r fun th => { th with repc := 0 }

/-- Raise an encoding cause for every thread of the bundle, whatever its predicate (R42, R67). -/
def State.raiseEncoding (s : State) (c : Cause) : State :=
  if c = cILLEGAL_OPCODE || c = cILLEGAL_FIELD || c = cREP_TARGET then s.forRefs s.issue.bundle fun s r => s.raise r c else s

/-- REP (R64).  -/
def execRep (n : BitVec 6) (d : Bool) (s : Bool) (t : Bool) (l : BitVec 2) (st : State) : Res :=
  .next (st.repeated (.of n d s t l))

/-- RESERVED_ENCODING (R67).  -/
def execReservedEncoding (code : BitVec 8) (st : State) : Res :=
  .next (st.raiseEncoding code)

end Sys2Proof.Machine
end

