-- ==== Sys2Proof/Machine/Dispatch.lean ====
section
/-!
DEFINITION. One arm per instruction and device event, each one call of its meaning.
-/
namespace Sys2Proof.Machine

/-- The meaning of every row of the opcode table. -/
def exec (i : Instr) (s : State) : Host.Outcome State Fault Refusal :=
  match i with
  | .nop x0 => Sys2Proof.Machine.execNop x0 s
  | .iadd x0 x1 x2 x3 x4 x5 => Sys2Proof.Machine.execIadd x0 x1 x2 x3 x4 x5 s
  | .isub x0 x1 x2 x3 x4 x5 => Sys2Proof.Machine.execIsub x0 x1 x2 x3 x4 x5 s
  | .imul x0 x1 x2 x3 x4 x5 => Sys2Proof.Machine.execImul x0 x1 x2 x3 x4 x5 s
  | .imulh x0 x1 x2 x3 x4 x5 => Sys2Proof.Machine.execImulh x0 x1 x2 x3 x4 x5 s
  | .imulhu x0 x1 x2 x3 x4 x5 => Sys2Proof.Machine.execImulhu x0 x1 x2 x3 x4 x5 s
  | .imad x0 x1 x2 x3 x4 => Sys2Proof.Machine.execImad x0 x1 x2 x3 x4 s
  | .imin x0 x1 x2 x3 x4 x5 => Sys2Proof.Machine.execImin x0 x1 x2 x3 x4 x5 s
  | .imax x0 x1 x2 x3 x4 x5 => Sys2Proof.Machine.execImax x0 x1 x2 x3 x4 x5 s
  | .umin x0 x1 x2 x3 x4 x5 => Sys2Proof.Machine.execUmin x0 x1 x2 x3 x4 x5 s
  | .umax x0 x1 x2 x3 x4 x5 => Sys2Proof.Machine.execUmax x0 x1 x2 x3 x4 x5 s
  | .and x0 x1 x2 x3 x4 x5 => Sys2Proof.Machine.execAnd x0 x1 x2 x3 x4 x5 s
  | .or x0 x1 x2 x3 x4 x5 => Sys2Proof.Machine.execOr x0 x1 x2 x3 x4 x5 s
  | .xor x0 x1 x2 x3 x4 x5 => Sys2Proof.Machine.execXor x0 x1 x2 x3 x4 x5 s
  | .andn x0 x1 x2 x3 x4 x5 => Sys2Proof.Machine.execAndn x0 x1 x2 x3 x4 x5 s
  | .shl x0 x1 x2 x3 x4 x5 => Sys2Proof.Machine.execShl x0 x1 x2 x3 x4 x5 s
  | .shr x0 x1 x2 x3 x4 x5 => Sys2Proof.Machine.execShr x0 x1 x2 x3 x4 x5 s
  | .sar x0 x1 x2 x3 x4 x5 => Sys2Proof.Machine.execSar x0 x1 x2 x3 x4 x5 s
  | .popc x0 x1 x2 x3 x4 => Sys2Proof.Machine.execPopc x0 x1 x2 x3 x4 s
  | .clz x0 x1 x2 x3 x4 => Sys2Proof.Machine.execClz x0 x1 x2 x3 x4 s
  | .brev x0 x1 x2 x3 x4 => Sys2Proof.Machine.execBrev x0 x1 x2 x3 x4 s
  | .prmb x0 x1 x2 x3 x4 x5 => Sys2Proof.Machine.execPrmb x0 x1 x2 x3 x4 x5 s
  | .iadds x0 x1 x2 x3 x4 x5 => Sys2Proof.Machine.execIadds x0 x1 x2 x3 x4 x5 s
  | .idot4 x0 x1 x2 x3 x4 => Sys2Proof.Machine.execIdot4 x0 x1 x2 x3 x4 s
  | .iadd64 x0 x1 x2 x3 x4 x5 => Sys2Proof.Machine.execIadd64 x0 x1 x2 x3 x4 x5 s
  | .isub64 x0 x1 x2 x3 x4 x5 => Sys2Proof.Machine.execIsub64 x0 x1 x2 x3 x4 x5 s
  | .imadw x0 x1 x2 x3 x4 => Sys2Proof.Machine.execImadw x0 x1 x2 x3 x4 s
  | .shl64 x0 x1 x2 x3 x4 x5 => Sys2Proof.Machine.execShl64 x0 x1 x2 x3 x4 x5 s
  | .icmp x0 x1 x2 x3 x4 x5 => Sys2Proof.Machine.execIcmp x0 x1 x2 x3 x4 x5 s
  | .icmp64 x0 x1 x2 x3 x4 x5 => Sys2Proof.Machine.execIcmp64 x0 x1 x2 x3 x4 x5 s
  | .sel x0 x1 x2 x3 x4 x5 => Sys2Proof.Machine.execSel x0 x1 x2 x3 x4 x5 s
  | .mov x0 x1 x2 x3 x4 => Sys2Proof.Machine.execMov x0 x1 x2 x3 x4 s
  | .fadd x0 x1 x2 x3 x4 x5 => Sys2Proof.Machine.execFadd x0 x1 x2 x3 x4 x5 s
  | .fsub x0 x1 x2 x3 x4 x5 => Sys2Proof.Machine.execFsub x0 x1 x2 x3 x4 x5 s
  | .fmul x0 x1 x2 x3 x4 x5 => Sys2Proof.Machine.execFmul x0 x1 x2 x3 x4 x5 s
  | .ffma x0 x1 x2 x3 x4 => Sys2Proof.Machine.execFfma x0 x1 x2 x3 x4 s
  | .fmin x0 x1 x2 x3 x4 x5 => Sys2Proof.Machine.execFmin x0 x1 x2 x3 x4 x5 s
  | .fmax x0 x1 x2 x3 x4 x5 => Sys2Proof.Machine.execFmax x0 x1 x2 x3 x4 x5 s
  | .fcmp x0 x1 x2 x3 x4 x5 => Sys2Proof.Machine.execFcmp x0 x1 x2 x3 x4 x5 s
  | .fsgn x0 x1 x2 x3 x4 x5 => Sys2Proof.Machine.execFsgn x0 x1 x2 x3 x4 x5 s
  | .hadd2 x0 x1 x2 x3 x4 x5 => Sys2Proof.Machine.execHadd2 x0 x1 x2 x3 x4 x5 s
  | .hmul2 x0 x1 x2 x3 x4 x5 => Sys2Proof.Machine.execHmul2 x0 x1 x2 x3 x4 x5 s
  | .hfma2 x0 x1 x2 x3 x4 => Sys2Proof.Machine.execHfma2 x0 x1 x2 x3 x4 s
  | .badd2 x0 x1 x2 x3 x4 x5 => Sys2Proof.Machine.execBadd2 x0 x1 x2 x3 x4 x5 s
  | .bmul2 x0 x1 x2 x3 x4 x5 => Sys2Proof.Machine.execBmul2 x0 x1 x2 x3 x4 x5 s
  | .bfma2 x0 x1 x2 x3 x4 => Sys2Proof.Machine.execBfma2 x0 x1 x2 x3 x4 s
  | .dadd x0 x1 x2 x3 x4 x5 => Sys2Proof.Machine.execDadd x0 x1 x2 x3 x4 x5 s
  | .dmul x0 x1 x2 x3 x4 x5 => Sys2Proof.Machine.execDmul x0 x1 x2 x3 x4 x5 s
  | .dfma x0 x1 x2 x3 x4 => Sys2Proof.Machine.execDfma x0 x1 x2 x3 x4 s
  | .cvtI32F32 x0 x1 x2 x3 x4 => Sys2Proof.Machine.execCvtI32F32 x0 x1 x2 x3 x4 s
  | .cvtU32F32 x0 x1 x2 x3 x4 => Sys2Proof.Machine.execCvtU32F32 x0 x1 x2 x3 x4 s
  | .cvtF32I32 x0 x1 x2 x3 x4 => Sys2Proof.Machine.execCvtF32I32 x0 x1 x2 x3 x4 s
  | .cvtF32U32 x0 x1 x2 x3 x4 => Sys2Proof.Machine.execCvtF32U32 x0 x1 x2 x3 x4 s
  | .cvtF32I32Rz x0 x1 x2 x3 x4 => Sys2Proof.Machine.execCvtF32I32Rz x0 x1 x2 x3 x4 s
  | .cvtF32U32Rz x0 x1 x2 x3 x4 => Sys2Proof.Machine.execCvtF32U32Rz x0 x1 x2 x3 x4 s
  | .cvtF32F16 x0 x1 x2 x3 => Sys2Proof.Machine.execCvtF32F16 x0 x1 x2 x3 s
  | .cvtF32Bf16 x0 x1 x2 x3 => Sys2Proof.Machine.execCvtF32Bf16 x0 x1 x2 x3 s
  | .cvtF16F32 x0 x1 x2 x3 x4 x5 => Sys2Proof.Machine.execCvtF16F32 x0 x1 x2 x3 x4 x5 s
  | .cvtBf16F32 x0 x1 x2 x3 x4 x5 => Sys2Proof.Machine.execCvtBf16F32 x0 x1 x2 x3 x4 x5 s
  | .cvtF32E4m3 x0 x1 x2 x3 => Sys2Proof.Machine.execCvtF32E4m3 x0 x1 x2 x3 s
  | .cvtF32E5m2 x0 x1 x2 x3 => Sys2Proof.Machine.execCvtF32E5m2 x0 x1 x2 x3 s
  | .cvtE4m3F32 x0 x1 x2 x3 x4 x5 => Sys2Proof.Machine.execCvtE4m3F32 x0 x1 x2 x3 x4 x5 s
  | .cvtE5m2F32 x0 x1 x2 x3 x4 x5 => Sys2Proof.Machine.execCvtE5m2F32 x0 x1 x2 x3 x4 x5 s
  | .cvtF32F64 x0 x1 x2 x3 x4 => Sys2Proof.Machine.execCvtF32F64 x0 x1 x2 x3 x4 s
  | .cvtF64F32 x0 x1 x2 x3 x4 => Sys2Proof.Machine.execCvtF64F32 x0 x1 x2 x3 x4 s
  | .cvtI32F64 x0 x1 x2 x3 x4 => Sys2Proof.Machine.execCvtI32F64 x0 x1 x2 x3 x4 s
  | .cvtF64I32 x0 x1 x2 x3 x4 => Sys2Proof.Machine.execCvtF64I32 x0 x1 x2 x3 x4 s
  | .cvtF64I32Rz x0 x1 x2 x3 x4 => Sys2Proof.Machine.execCvtF64I32Rz x0 x1 x2 x3 x4 s
  | .sfuRcp x0 x1 x2 x3 x4 => Sys2Proof.Machine.execSfuRcp x0 x1 x2 x3 x4 s
  | .sfuRsq x0 x1 x2 x3 x4 => Sys2Proof.Machine.execSfuRsq x0 x1 x2 x3 x4 s
  | .sfuSqrt x0 x1 x2 x3 x4 => Sys2Proof.Machine.execSfuSqrt x0 x1 x2 x3 x4 s
  | .sfuEx2 x0 x1 x2 x3 x4 => Sys2Proof.Machine.execSfuEx2 x0 x1 x2 x3 x4 s
  | .sfuLg2 x0 x1 x2 x3 x4 => Sys2Proof.Machine.execSfuLg2 x0 x1 x2 x3 x4 s
  | .sfuSin x0 x1 x2 x3 x4 => Sys2Proof.Machine.execSfuSin x0 x1 x2 x3 x4 s
  | .sfuCos x0 x1 x2 x3 x4 => Sys2Proof.Machine.execSfuCos x0 x1 x2 x3 x4 s
  | .sfuTanh x0 x1 x2 x3 x4 => Sys2Proof.Machine.execSfuTanh x0 x1 x2 x3 x4 s
  | .sfuSigm x0 x1 x2 x3 x4 => Sys2Proof.Machine.execSfuSigm x0 x1 x2 x3 x4 s
  | .plop x0 x1 x2 x3 x4 x5 => Sys2Proof.Machine.execPlop x0 x1 x2 x3 x4 x5 s
  | .qsc4Fold x0 x1 x2 x3 => Sys2Proof.Machine.execQsc4Fold x0 x1 x2 x3 s
  | .qsc4Merge x0 x1 x2 x3 => Sys2Proof.Machine.execQsc4Merge x0 x1 x2 x3 s
  | .qsc4Scale x0 x1 x2 x3 x4 => Sys2Proof.Machine.execQsc4Scale x0 x1 x2 x3 x4 s
  | .qsc8Fold x0 x1 x2 x3 => Sys2Proof.Machine.execQsc8Fold x0 x1 x2 x3 s
  | .qsc8Merge x0 x1 x2 x3 => Sys2Proof.Machine.execQsc8Merge x0 x1 x2 x3 s
  | .qsc8Scale x0 x1 x2 x3 x4 => Sys2Proof.Machine.execQsc8Scale x0 x1 x2 x3 x4 s
  | .qnt4 x0 x1 x2 x3 x4 => Sys2Proof.Machine.execQnt4 x0 x1 x2 x3 x4 s
  | .qnt8 x0 x1 x2 x3 x4 => Sys2Proof.Machine.execQnt8 x0 x1 x2 x3 x4 s
  | .dq x0 x1 x2 x3 x4 x5 => Sys2Proof.Machine.execDq x0 x1 x2 x3 x4 x5 s
  | .fclassF32 x0 x1 x2 x3 x4 => Sys2Proof.Machine.execFclassF32 x0 x1 x2 x3 x4 s
  | .fclassF16 x0 x1 x2 x3 x4 => Sys2Proof.Machine.execFclassF16 x0 x1 x2 x3 x4 s
  | .fclassBf16 x0 x1 x2 x3 x4 => Sys2Proof.Machine.execFclassBf16 x0 x1 x2 x3 x4 s
  | .fclassF64 x0 x1 x2 x3 x4 => Sys2Proof.Machine.execFclassF64 x0 x1 x2 x3 x4 s
  | .fclassE4m3 x0 x1 x2 x3 x4 => Sys2Proof.Machine.execFclassE4m3 x0 x1 x2 x3 x4 s
  | .fclassE5m2 x0 x1 x2 x3 x4 => Sys2Proof.Machine.execFclassE5m2 x0 x1 x2 x3 x4 s
  | .shr64 x0 x1 x2 x3 x4 x5 => Sys2Proof.Machine.execShr64 x0 x1 x2 x3 x4 x5 s
  | .addi x0 x1 x2 x3 => Sys2Proof.Machine.execAddi x0 x1 x2 x3 s
  | .muli x0 x1 x2 x3 => Sys2Proof.Machine.execMuli x0 x1 x2 x3 s
  | .andi x0 x1 x2 x3 => Sys2Proof.Machine.execAndi x0 x1 x2 x3 s
  | .ori x0 x1 x2 x3 => Sys2Proof.Machine.execOri x0 x1 x2 x3 s
  | .xori x0 x1 x2 x3 => Sys2Proof.Machine.execXori x0 x1 x2 x3 s
  | .shli x0 x1 x2 x3 => Sys2Proof.Machine.execShli x0 x1 x2 x3 s
  | .shri x0 x1 x2 x3 => Sys2Proof.Machine.execShri x0 x1 x2 x3 s
  | .sari x0 x1 x2 x3 => Sys2Proof.Machine.execSari x0 x1 x2 x3 s
  | .icmpi x0 x1 x2 x3 x4 => Sys2Proof.Machine.execIcmpi x0 x1 x2 x3 x4 s
  | .movk x0 x1 x2 => Sys2Proof.Machine.execMovk x0 x1 x2 s
  | .addi64 x0 x1 x2 x3 => Sys2Proof.Machine.execAddi64 x0 x1 x2 x3 s
  | .srd x0 x1 x2 => Sys2Proof.Machine.execSrd x0 x1 x2 s
  | .swr x0 x1 x2 => Sys2Proof.Machine.execSwr x0 x1 x2 s
  | .ldb x0 x1 x2 x3 x4 => Sys2Proof.Machine.execLdb x0 x1 x2 x3 x4 s
  | .ldh x0 x1 x2 x3 x4 => Sys2Proof.Machine.execLdh x0 x1 x2 x3 x4 s
  | .ldw x0 x1 x2 x3 x4 => Sys2Proof.Machine.execLdw x0 x1 x2 x3 x4 s
  | .ldd x0 x1 x2 x3 x4 => Sys2Proof.Machine.execLdd x0 x1 x2 x3 x4 s
  | .ldq x0 x1 x2 x3 x4 => Sys2Proof.Machine.execLdq x0 x1 x2 x3 x4 s
  | .stb x0 x1 x2 x3 x4 => Sys2Proof.Machine.execStb x0 x1 x2 x3 x4 s
  | .sth x0 x1 x2 x3 x4 => Sys2Proof.Machine.execSth x0 x1 x2 x3 x4 s
  | .stw x0 x1 x2 x3 x4 => Sys2Proof.Machine.execStw x0 x1 x2 x3 x4 s
  | .std x0 x1 x2 x3 x4 => Sys2Proof.Machine.execStd x0 x1 x2 x3 x4 s
  | .stq x0 x1 x2 x3 x4 => Sys2Proof.Machine.execStq x0 x1 x2 x3 x4 s
  | .ldwn x0 x1 x2 x3 x4 => Sys2Proof.Machine.execLdwn x0 x1 x2 x3 x4 s
  | .ldqn x0 x1 x2 x3 x4 => Sys2Proof.Machine.execLdqn x0 x1 x2 x3 x4 s
  | .lsw x0 x1 x2 x3 x4 => Sys2Proof.Machine.execLsw x0 x1 x2 x3 x4 s
  | .lsq x0 x1 x2 x3 x4 => Sys2Proof.Machine.execLsq x0 x1 x2 x3 x4 s
  | .ssw x0 x1 x2 x3 x4 => Sys2Proof.Machine.execSsw x0 x1 x2 x3 x4 s
  | .ssq x0 x1 x2 x3 x4 => Sys2Proof.Machine.execSsq x0 x1 x2 x3 x4 s
  | .amoAdd x0 x1 x2 x3 x4 x5 => Sys2Proof.Machine.execAmoAdd x0 x1 x2 x3 x4 x5 s
  | .amoAnd x0 x1 x2 x3 x4 x5 => Sys2Proof.Machine.execAmoAnd x0 x1 x2 x3 x4 x5 s
  | .amoOr x0 x1 x2 x3 x4 x5 => Sys2Proof.Machine.execAmoOr x0 x1 x2 x3 x4 x5 s
  | .amoXor x0 x1 x2 x3 x4 x5 => Sys2Proof.Machine.execAmoXor x0 x1 x2 x3 x4 x5 s
  | .amoMin x0 x1 x2 x3 x4 x5 => Sys2Proof.Machine.execAmoMin x0 x1 x2 x3 x4 x5 s
  | .amoMax x0 x1 x2 x3 x4 x5 => Sys2Proof.Machine.execAmoMax x0 x1 x2 x3 x4 x5 s
  | .amoUmin x0 x1 x2 x3 x4 x5 => Sys2Proof.Machine.execAmoUmin x0 x1 x2 x3 x4 x5 s
  | .amoUmax x0 x1 x2 x3 x4 x5 => Sys2Proof.Machine.execAmoUmax x0 x1 x2 x3 x4 x5 s
  | .amoXchg x0 x1 x2 x3 x4 x5 => Sys2Proof.Machine.execAmoXchg x0 x1 x2 x3 x4 x5 s
  | .amoCas x0 x1 x2 x3 x4 x5 => Sys2Proof.Machine.execAmoCas x0 x1 x2 x3 x4 x5 s
  | .amoFadd x0 x1 x2 x3 x4 x5 => Sys2Proof.Machine.execAmoFadd x0 x1 x2 x3 x4 x5 s
  | .amoBadd2 x0 x1 x2 x3 x4 x5 => Sys2Proof.Machine.execAmoBadd2 x0 x1 x2 x3 x4 x5 s
  | .amoAdd64 x0 x1 x2 x3 x4 x5 => Sys2Proof.Machine.execAmoAdd64 x0 x1 x2 x3 x4 x5 s
  | .amoXchg64 x0 x1 x2 x3 x4 x5 => Sys2Proof.Machine.execAmoXchg64 x0 x1 x2 x3 x4 x5 s
  | .amoCas64 x0 x1 x2 x3 x4 x5 => Sys2Proof.Machine.execAmoCas64 x0 x1 x2 x3 x4 x5 s
  | .samoAdd x0 x1 x2 x3 x4 x5 => Sys2Proof.Machine.execSamoAdd x0 x1 x2 x3 x4 x5 s
  | .samoAnd x0 x1 x2 x3 x4 x5 => Sys2Proof.Machine.execSamoAnd x0 x1 x2 x3 x4 x5 s
  | .samoOr x0 x1 x2 x3 x4 x5 => Sys2Proof.Machine.execSamoOr x0 x1 x2 x3 x4 x5 s
  | .samoXor x0 x1 x2 x3 x4 x5 => Sys2Proof.Machine.execSamoXor x0 x1 x2 x3 x4 x5 s
  | .samoMin x0 x1 x2 x3 x4 x5 => Sys2Proof.Machine.execSamoMin x0 x1 x2 x3 x4 x5 s
  | .samoMax x0 x1 x2 x3 x4 x5 => Sys2Proof.Machine.execSamoMax x0 x1 x2 x3 x4 x5 s
  | .samoUmin x0 x1 x2 x3 x4 x5 => Sys2Proof.Machine.execSamoUmin x0 x1 x2 x3 x4 x5 s
  | .samoUmax x0 x1 x2 x3 x4 x5 => Sys2Proof.Machine.execSamoUmax x0 x1 x2 x3 x4 x5 s
  | .samoXchg x0 x1 x2 x3 x4 x5 => Sys2Proof.Machine.execSamoXchg x0 x1 x2 x3 x4 x5 s
  | .samoCas x0 x1 x2 x3 x4 x5 => Sys2Proof.Machine.execSamoCas x0 x1 x2 x3 x4 x5 s
  | .samoFadd x0 x1 x2 x3 x4 x5 => Sys2Proof.Machine.execSamoFadd x0 x1 x2 x3 x4 x5 s
  | .samoBadd2 x0 x1 x2 x3 x4 x5 => Sys2Proof.Machine.execSamoBadd2 x0 x1 x2 x3 x4 x5 s
  | .samoAdd64 x0 x1 x2 x3 x4 x5 => Sys2Proof.Machine.execSamoAdd64 x0 x1 x2 x3 x4 x5 s
  | .samoXchg64 x0 x1 x2 x3 x4 x5 => Sys2Proof.Machine.execSamoXchg64 x0 x1 x2 x3 x4 x5 s
  | .samoCas64 x0 x1 x2 x3 x4 x5 => Sys2Proof.Machine.execSamoCas64 x0 x1 x2 x3 x4 x5 s
  | .ldlk x0 x1 x2 x3 x4 x5 => Sys2Proof.Machine.execLdlk x0 x1 x2 x3 x4 x5 s
  | .stul x0 x1 x2 x3 x4 x5 => Sys2Proof.Machine.execStul x0 x1 x2 x3 x4 x5 s
  | .bra x0 x1 => Sys2Proof.Machine.execBra x0 x1 s
  | .call x0 x1 => Sys2Proof.Machine.execCall x0 x1 s
  | .ret x0 => Sys2Proof.Machine.execRet x0 s
  | .jmpr x0 x1 => Sys2Proof.Machine.execJmpr x0 x1 s
  | .enrol x0 x1 x2 => Sys2Proof.Machine.execEnrol x0 x1 x2 s
  | .rejoin x0 x1 x2 => Sys2Proof.Machine.execRejoin x0 x1 x2 s
  | .strike x0 x1 x2 => Sys2Proof.Machine.execStrike x0 x1 x2 s
  | .yield x0 x1 => Sys2Proof.Machine.execYield x0 x1 s
  | .shflIdx x0 x1 x2 x3 => Sys2Proof.Machine.execShflIdx x0 x1 x2 x3 s
  | .shflUp x0 x1 x2 x3 => Sys2Proof.Machine.execShflUp x0 x1 x2 x3 s
  | .shflDn x0 x1 x2 x3 => Sys2Proof.Machine.execShflDn x0 x1 x2 x3 s
  | .shflXor x0 x1 x2 x3 => Sys2Proof.Machine.execShflXor x0 x1 x2 x3 s
  | .voteAll x0 x1 x2 x3 => Sys2Proof.Machine.execVoteAll x0 x1 x2 x3 s
  | .voteAny x0 x1 x2 x3 => Sys2Proof.Machine.execVoteAny x0 x1 x2 x3 s
  | .voteBallot x0 x1 x2 x3 => Sys2Proof.Machine.execVoteBallot x0 x1 x2 x3 s
  | .voteEq x0 x1 x2 x3 => Sys2Proof.Machine.execVoteEq x0 x1 x2 x3 s
  | .reduxAdd x0 x1 x2 x3 => Sys2Proof.Machine.execReduxAdd x0 x1 x2 x3 s
  | .reduxMin x0 x1 x2 x3 => Sys2Proof.Machine.execReduxMin x0 x1 x2 x3 s
  | .reduxMax x0 x1 x2 x3 => Sys2Proof.Machine.execReduxMax x0 x1 x2 x3 s
  | .reduxUmin x0 x1 x2 x3 => Sys2Proof.Machine.execReduxUmin x0 x1 x2 x3 s
  | .reduxUmax x0 x1 x2 x3 => Sys2Proof.Machine.execReduxUmax x0 x1 x2 x3 s
  | .reduxAnd x0 x1 x2 x3 => Sys2Proof.Machine.execReduxAnd x0 x1 x2 x3 s
  | .reduxOr x0 x1 x2 x3 => Sys2Proof.Machine.execReduxOr x0 x1 x2 x3 s
  | .reduxXor x0 x1 x2 x3 => Sys2Proof.Machine.execReduxXor x0 x1 x2 x3 s
  | .match x0 x1 x2 x3 => Sys2Proof.Machine.execMatch x0 x1 x2 x3 s
  | .mmaFwd x0 x1 x2 x3 x4 x5 x6 x7 => Sys2Proof.Machine.execMmaFwd x0 x1 x2 x3 x4 x5 x6 x7 s
  | .mmaFwd2 x0 x1 x2 x3 x4 x5 x6 x7 => Sys2Proof.Machine.execMmaFwd2 x0 x1 x2 x3 x4 x5 x6 x7 s
  | .mmaFwdk x0 x1 x2 x3 x4 x5 x6 x7 => Sys2Proof.Machine.execMmaFwdk x0 x1 x2 x3 x4 x5 x6 x7 s
  | .mmaBwd x0 x1 x2 x3 x4 x5 x6 x7 => Sys2Proof.Machine.execMmaBwd x0 x1 x2 x3 x4 x5 x6 x7 s
  | .mmaGrad x0 x1 x2 x3 x4 x5 => Sys2Proof.Machine.execMmaGrad x0 x1 x2 x3 x4 x5 s
  | .bankLd x0 x1 x2 x3 x4 => Sys2Proof.Machine.execBankLd x0 x1 x2 x3 x4 s
  | .bankLdq x0 x1 x2 x3 x4 => Sys2Proof.Machine.execBankLdq x0 x1 x2 x3 x4 s
  | .bankEvict x0 x1 x2 x3 => Sys2Proof.Machine.execBankEvict x0 x1 x2 x3 s
  | .bankGzero x0 x1 x2 x3 => Sys2Proof.Machine.execBankGzero x0 x1 x2 x3 s
  | .bankGdrain x0 x1 x2 x3 x4 => Sys2Proof.Machine.execBankGdrain x0 x1 x2 x3 x4 s
  | .bankQuery x0 x1 x2 x3 x4 => Sys2Proof.Machine.execBankQuery x0 x1 x2 x3 x4 s
  | .topkInit x0 x1 x2 => Sys2Proof.Machine.execTopkInit x0 x1 x2 s
  | .topkRead x0 x1 x2 => Sys2Proof.Machine.execTopkRead x0 x1 x2 s
  | .cpy x0 x1 x2 x3 x4 x5 => Sys2Proof.Machine.execCpy x0 x1 x2 x3 x4 x5 s
  | .cpw x0 x1 x2 => Sys2Proof.Machine.execCpw x0 x1 x2 s
  | .twkLoad x0 x1 x2 x3 x4 => Sys2Proof.Machine.execTwkLoad x0 x1 x2 x3 x4 s
  | .twkStore x0 x1 x2 x3 x4 => Sys2Proof.Machine.execTwkStore x0 x1 x2 x3 x4 s
  | .twkGather x0 x1 x2 x3 x4 => Sys2Proof.Machine.execTwkGather x0 x1 x2 x3 x4 s
  | .twkScatteradd x0 x1 x2 x3 x4 => Sys2Proof.Machine.execTwkScatteradd x0 x1 x2 x3 x4 s
  | .syncInit x0 x1 x2 x3 x4 => Sys2Proof.Machine.execSyncInit x0 x1 x2 x3 x4 s
  | .syncArrive x0 x1 x2 x3 x4 => Sys2Proof.Machine.execSyncArrive x0 x1 x2 x3 x4 s
  | .syncWait x0 x1 x2 x3 x4 => Sys2Proof.Machine.execSyncWait x0 x1 x2 x3 x4 s
  | .syncArrw x0 x1 x2 x3 x4 => Sys2Proof.Machine.execSyncArrw x0 x1 x2 x3 x4 s
  | .syncTest x0 x1 x2 x3 x4 => Sys2Proof.Machine.execSyncTest x0 x1 x2 x3 x4 s
  | .syncRel x0 x1 x2 x3 => Sys2Proof.Machine.execSyncRel x0 x1 x2 x3 s
  | .syncAcq x0 x1 x2 x3 x4 => Sys2Proof.Machine.execSyncAcq x0 x1 x2 x3 x4 s
  | .syncBind x0 x1 x2 x3 x4 => Sys2Proof.Machine.execSyncBind x0 x1 x2 x3 x4 s
  | .syncUnbind x0 x1 x2 x3 x4 => Sys2Proof.Machine.execSyncUnbind x0 x1 x2 x3 x4 s
  | .syncExpect x0 x1 x2 x3 x4 => Sys2Proof.Machine.execSyncExpect x0 x1 x2 x3 x4 s
  | .syncErr x0 x1 x2 x3 x4 => Sys2Proof.Machine.execSyncErr x0 x1 x2 x3 x4 s
  | .fenceRel x0 x1 x2 => Sys2Proof.Machine.execFenceRel x0 x1 x2 s
  | .fenceAcq x0 x1 x2 => Sys2Proof.Machine.execFenceAcq x0 x1 x2 s
  | .fenceFull x0 x1 x2 => Sys2Proof.Machine.execFenceFull x0 x1 x2 s
  | .fenceOprdy x0 x1 => Sys2Proof.Machine.execFenceOprdy x0 x1 s
  | .fenceTfence x0 x1 => Sys2Proof.Machine.execFenceTfence x0 x1 s
  | .nobjCreate x0 x1 x2 => Sys2Proof.Machine.execNobjCreate x0 x1 x2 s
  | .nobjOpen x0 x1 x2 => Sys2Proof.Machine.execNobjOpen x0 x1 x2 s
  | .nobjClose x0 x1 x2 => Sys2Proof.Machine.execNobjClose x0 x1 x2 s
  | .nobjHand x0 x1 x2 => Sys2Proof.Machine.execNobjHand x0 x1 x2 s
  | .nobjDrop x0 x1 x2 => Sys2Proof.Machine.execNobjDrop x0 x1 x2 s
  | .nobjQuery x0 x1 x2 => Sys2Proof.Machine.execNobjQuery x0 x1 x2 s
  | .nobjMirror x0 x1 x2 => Sys2Proof.Machine.execNobjMirror x0 x1 x2 s
  | .taskPush x0 x1 x2 x3 => Sys2Proof.Machine.execTaskPush x0 x1 x2 x3 s
  | .taskPop x0 x1 x2 x3 => Sys2Proof.Machine.execTaskPop x0 x1 x2 x3 s
  | .taskTrypop x0 x1 x2 x3 => Sys2Proof.Machine.execTaskTrypop x0 x1 x2 x3 s
  | .taskEos x0 x1 x2 => Sys2Proof.Machine.execTaskEos x0 x1 x2 s
  | .taskDone x0 x1 x2 x3 => Sys2Proof.Machine.execTaskDone x0 x1 x2 x3 s
  | .sysTrap x0 x1 x2 => Sys2Proof.Machine.execSysTrap x0 x1 x2 s
  | .sysEret x0 x1 => Sys2Proof.Machine.execSysEret x0 x1 s
  | .sysBkpt x0 x1 => Sys2Proof.Machine.execSysBkpt x0 x1 s
  | .sysExit x0 x1 => Sys2Proof.Machine.execSysExit x0 x1 s
  | .sysPyld x0 x1 => Sys2Proof.Machine.execSysPyld x0 x1 s
  | .sysCclr x0 x1 x2 => Sys2Proof.Machine.execSysCclr x0 x1 x2 s
  | .sysSleep x0 x1 x2 => Sys2Proof.Machine.execSysSleep x0 x1 x2 s
  | .sysHaltctx x0 x1 x2 => Sys2Proof.Machine.execSysHaltctx x0 x1 x2 s
  | .sendEmark x0 x1 x2 => Sys2Proof.Machine.execSendEmark x0 x1 x2 s
  | .rep x0 x1 x2 x3 x4 => Sys2Proof.Machine.execRep x0 x1 x2 x3 x4 s
  | .registerWrite x0 x1 x2 x3 => Sys2Proof.Machine.execRegisterWrite x0 x1 x2 x3 s
  | .qnotify x0 x1 x2 => Sys2Proof.Machine.execQnotify x0 x1 x2 s
  | .qctlEnable x0 x1 x2 => Sys2Proof.Machine.execQctlEnable x0 x1 x2 s
  | .qctlDisable x0 x1 x2 => Sys2Proof.Machine.execQctlDisable x0 x1 x2 s
  | .qctlResume x0 x1 x2 => Sys2Proof.Machine.execQctlResume x0 x1 x2 s
  | .qctlSkip x0 x1 x2 => Sys2Proof.Machine.execQctlSkip x0 x1 x2 s
  | .packetNop x0 x1 => Sys2Proof.Machine.execPacketNop x0 x1 s
  | .packetLaunch x0 x1 => Sys2Proof.Machine.execPacketLaunch x0 x1 s
  | .packetSignal x0 x1 => Sys2Proof.Machine.execPacketSignal x0 x1 s
  | .packetWaitval x0 x1 => Sys2Proof.Machine.execPacketWaitval x0 x1 s
  | .packetCheckpoint x0 x1 => Sys2Proof.Machine.execPacketCheckpoint x0 x1 s
  | .heldPacketDispatch x0 x1 => Sys2Proof.Machine.execHeldPacketDispatch x0 x1 s
  | .waitvalMet x0 x1 => Sys2Proof.Machine.execWaitvalMet x0 x1 s
  | .waitvalTimeout x0 x1 => Sys2Proof.Machine.execWaitvalTimeout x0 x1 s
  | .functionLevelReset x0 => Sys2Proof.Machine.execFunctionLevelReset x0 s
  | .queueThaw x0 => Sys2Proof.Machine.execQueueThaw x0 s
  | .vfAssign x0 x1 => Sys2Proof.Machine.execVfAssign x0 x1 s
  | .vfWithdraw x0 x1 => Sys2Proof.Machine.execVfWithdraw x0 x1 s
  | .tenantTableWrite x0 x1 x2 x3 x4 x5 x6 x7 x8 x9 => Sys2Proof.Machine.execTenantTableWrite x0 x1 x2 x3 x4 x5 x6 x7 x8 x9 s
  | .chunkRequest x0 x1 => Sys2Proof.Machine.execChunkRequest x0 x1 s
  | .clusterPlace x0 x1 => Sys2Proof.Machine.execClusterPlace x0 x1 s
  | .corReservationComplete x0 => Sys2Proof.Machine.execCorReservationComplete x0 s
  | .dispatchRoundExpiry x0 => Sys2Proof.Machine.execDispatchRoundExpiry x0 s
  | .objectCopyComplete x0 x1 => Sys2Proof.Machine.execObjectCopyComplete x0 x1 s
  | .objectRestoreComplete x0 x1 => Sys2Proof.Machine.execObjectRestoreComplete x0 x1 s
  | .dieFence x0 => Sys2Proof.Machine.execDieFence x0 s
  | .directoryRebuildComplete x0 => Sys2Proof.Machine.execDirectoryRebuildComplete x0 s
  | .coreLost x0 => Sys2Proof.Machine.execCoreLost x0 s
  | .launchComplete x0 => Sys2Proof.Machine.execLaunchComplete x0 s
  | .contextCreate x0 => Sys2Proof.Machine.execContextCreate x0 s
  | .contextConfigWrite x0 x1 x2 => Sys2Proof.Machine.execContextConfigWrite x0 x1 x2 s
  | .preemptRequest x0 => Sys2Proof.Machine.execPreemptRequest x0 s
  | .preemptWithdraw x0 => Sys2Proof.Machine.execPreemptWithdraw x0 s
  | .preemptDeadline x0 => Sys2Proof.Machine.execPreemptDeadline x0 s
  | .contextResume x0 => Sys2Proof.Machine.execContextResume x0 s
  | .checkpointRequest x0 x1 => Sys2Proof.Machine.execCheckpointRequest x0 x1 s
  | .checkpointRecorded x0 x1 => Sys2Proof.Machine.execCheckpointRecorded x0 x1 s
  | .contextThaw x0 => Sys2Proof.Machine.execContextThaw x0 s
  | .restoreRequest x0 => Sys2Proof.Machine.execRestoreRequest x0 s
  | .contextTeardown x0 => Sys2Proof.Machine.execContextTeardown x0 s
  | .coreReassign x0 x1 => Sys2Proof.Machine.execCoreReassign x0 x1 s
  | .scrubComplete x0 => Sys2Proof.Machine.execScrubComplete x0 s
  | .agemaxExceeded x0 => Sys2Proof.Machine.execAgemaxExceeded x0 s
  | .teamSwap x0 => Sys2Proof.Machine.execTeamSwap x0 s
  | .teamSaveComplete x0 => Sys2Proof.Machine.execTeamSaveComplete x0 s
  | .teamReadmit x0 => Sys2Proof.Machine.execTeamReadmit x0 s
  | .readmitRoundExpiry x0 => Sys2Proof.Machine.execReadmitRoundExpiry x0 s
  | .convergenceTimeout x0 x1 x2 x3 => Sys2Proof.Machine.execConvergenceTimeout x0 x1 x2 x3 s
  | .loadLand x0 x1 => Sys2Proof.Machine.execLoadLand x0 x1 s
  | .teamKillDrained x0 => Sys2Proof.Machine.execTeamKillDrained x0 s
  | .debugStopRequest x0 x1 => Sys2Proof.Machine.execDebugStopRequest x0 x1 s
  | .groupStopped x0 x1 => Sys2Proof.Machine.execGroupStopped x0 x1 s
  | .debugWrite x0 x1 x2 x3 x4 => Sys2Proof.Machine.execDebugWrite x0 x1 x2 x3 x4 s
  | .debugResume x0 x1 => Sys2Proof.Machine.execDebugResume x0 x1 s
  | .engineWordStart x0 => Sys2Proof.Machine.execEngineWordStart x0 s
  | .mmaComplete x0 => Sys2Proof.Machine.execMmaComplete x0 s
  | .bankLoadComplete x0 x1 => Sys2Proof.Machine.execBankLoadComplete x0 x1 s
  | .bankDrainComplete x0 x1 => Sys2Proof.Machine.execBankDrainComplete x0 x1 s
  | .bankQueryComplete x0 => Sys2Proof.Machine.execBankQueryComplete x0 s
  | .twkJobStart x0 => Sys2Proof.Machine.execTwkJobStart x0 s
  | .twkTileDone x0 x1 => Sys2Proof.Machine.execTwkTileDone x0 x1 s
  | .twkJobComplete x0 x1 => Sys2Proof.Machine.execTwkJobComplete x0 x1 s
  | .cpyRetire x0 x1 => Sys2Proof.Machine.execCpyRetire x0 x1 s
  | .ackReceive x0 x1 x2 => Sys2Proof.Machine.execAckReceive x0 x1 x2 s
  | .lockRetry x0 x1 => Sys2Proof.Machine.execLockRetry x0 x1 s
  | .yieldExpiry x0 x1 => Sys2Proof.Machine.execYieldExpiry x0 x1 s
  | .sleepExpiry x0 x1 => Sys2Proof.Machine.execSleepExpiry x0 x1 s
  | .pageRequestPost => Sys2Proof.Machine.execPageRequestPost s
  | .resolveResolved x0 x1 => Sys2Proof.Machine.execResolveResolved x0 x1 s
  | .resolveRefuseKill x0 x1 => Sys2Proof.Machine.execResolveRefuseKill x0 x1 s
  | .resolveRefuseFreeze x0 x1 => Sys2Proof.Machine.execResolveRefuseFreeze x0 x1 s
  | .frameopGrant x0 => Sys2Proof.Machine.execFrameopGrant x0 s
  | .frameopReclaim x0 => Sys2Proof.Machine.execFrameopReclaim x0 s
  | .rangeInvalidateRequest x0 x1 x2 => Sys2Proof.Machine.execRangeInvalidateRequest x0 x1 x2 s
  | .rangeInvalidateComplete x0 => Sys2Proof.Machine.execRangeInvalidateComplete x0 s
  | .backgroundWalkComplete x0 x1 => Sys2Proof.Machine.execBackgroundWalkComplete x0 x1 s
  | .sluiceEpochEnd x0 x1 => Sys2Proof.Machine.execSluiceEpochEnd x0 x1 s
  | .migrationComplete x0 => Sys2Proof.Machine.execMigrationComplete x0 s
  | .portEnable x0 => Sys2Proof.Machine.execPortEnable x0 s
  | .trainingComplete x0 x1 => Sys2Proof.Machine.execTrainingComplete x0 x1 s
  | .trainingRetryTimer x0 => Sys2Proof.Machine.execTrainingRetryTimer x0 s
  | .laneFault x0 => Sys2Proof.Machine.execLaneFault x0 s
  | .portFence x0 => Sys2Proof.Machine.execPortFence x0 s
  | .portUnfence x0 => Sys2Proof.Machine.execPortUnfence x0 s
  | .frameResendTimeout x0 => Sys2Proof.Machine.execFrameResendTimeout x0 s
  | .routeDetour x0 x1 => Sys2Proof.Machine.execRouteDetour x0 x1 s
  | .frameLnack x0 x1 => Sys2Proof.Machine.execFrameLnack x0 x1 s
  | .frameAckonly x0 x1 => Sys2Proof.Machine.execFrameAckonly x0 x1 s
  | .frameRead x0 x1 => Sys2Proof.Machine.execFrameRead x0 x1 s
  | .frameWrite x0 x1 => Sys2Proof.Machine.execFrameWrite x0 x1 s
  | .frameAtomic x0 x1 => Sys2Proof.Machine.execFrameAtomic x0 x1 s
  | .frameResp x0 x1 => Sys2Proof.Machine.execFrameResp x0 x1 s
  | .frameWrack x0 x1 => Sys2Proof.Machine.execFrameWrack x0 x1 s
  | .frameMarker x0 x1 => Sys2Proof.Machine.execFrameMarker x0 x1 s
  | .frameLaunch x0 x1 => Sys2Proof.Machine.execFrameLaunch x0 x1 s
  | .frameLaunchnack x0 x1 => Sys2Proof.Machine.execFrameLaunchnack x0 x1 s
  | .remoteTimeout x0 x1 => Sys2Proof.Machine.execRemoteTimeout x0 x1 s
  | .clockSettingRequest x0 x1 x2 x3 => Sys2Proof.Machine.execClockSettingRequest x0 x1 x2 x3 s
  | .clockRelockComplete x0 x1 => Sys2Proof.Machine.execClockRelockComplete x0 x1 s
  | .pcapWrite x0 => Sys2Proof.Machine.execPcapWrite x0 s
  | .slewWrite x0 x1 x2 => Sys2Proof.Machine.execSlewWrite x0 x1 x2 s
  | .slopeStep x0 x1 => Sys2Proof.Machine.execSlopeStep x0 x1 s
  | .powerOnBoot x0 x1 x2 x3 x4 x5 => Sys2Proof.Machine.execPowerOnBoot x0 x1 x2 x3 x4 x5 s
  | .imageWrite x0 x1 x2 => Sys2Proof.Machine.execImageWrite x0 x1 x2 s
  | .liveUpdate x0 => Sys2Proof.Machine.execLiveUpdate x0 s
  | .updateHeartbeat => Sys2Proof.Machine.execUpdateHeartbeat s
  | .heartbeatTimeout => Sys2Proof.Machine.execHeartbeatTimeout s
  | .pluginTimeout x0 => Sys2Proof.Machine.execPluginTimeout x0 s
  | .getVersion => Sys2Proof.Machine.execGetVersion s
  | .getCapabilities => Sys2Proof.Machine.execGetCapabilities s
  | .negotiateAlgorithms => Sys2Proof.Machine.execNegotiateAlgorithms s
  | .getDigests => Sys2Proof.Machine.execGetDigests s
  | .getCertificate => Sys2Proof.Machine.execGetCertificate s
  | .challenge x0 => Sys2Proof.Machine.execChallenge x0 s
  | .getMeasurements x0 => Sys2Proof.Machine.execGetMeasurements x0 s
  | .wakeFrame x0 => Sys2Proof.Machine.execWakeFrame x0 s
  | .reservedEncoding x0 => Sys2Proof.Machine.execReservedEncoding x0 s
  | .reservedTypePacket x0 x1 => Sys2Proof.Machine.execReservedTypePacket x0 x1 s
  | .discardedFrame x0 x1 x2 => Sys2Proof.Machine.execDiscardedFrame x0 x1 x2 s
  | .unreachableClear x0 => Sys2Proof.Machine.execUnreachableClear x0 s
  | .powerLoss => Sys2Proof.Machine.execPowerLoss s
  | .restoreComplete x0 x1 x2 => Sys2Proof.Machine.execRestoreComplete x0 x1 x2 s
  | .contextReplay x0 x1 x2 => Sys2Proof.Machine.execContextReplay x0 x1 x2 s
  | .debuggerAttach x0 x1 => Sys2Proof.Machine.execDebuggerAttach x0 x1 s
  | .controlCoreWake => Sys2Proof.Machine.execControlCoreWake s

end Sys2Proof.Machine
end

