-- ==== Sys2Proof/Machine/Issue.lean ====
section
/-!
DEFINITION. The issue of one group to a bundle (R41, R57 to R61, R83, R84): fetch, encoding causes (R42, R67), the words in
slot order, latches (R59), and the move to the next group.
-/
namespace Sys2Proof.Machine

/-! ## Encoding causes (R42, R66, R67) -/

/-- The cause of a word that is not an instruction. -/
def errCause : DecodeErr → Cause
  | .illegalOpcode => cILLEGAL_OPCODE
  | .repTarget => cREP_TARGET
  | _ => cILLEGAL_FIELD

/-- The form that a REP word asks for (R63). -/
def repForm (w : Word) : RepForm :=
  .of (w.extractLsb' 18 6) (w.getLsbD 17) (w.getLsbD 16) (w.getLsbD 15) (w.extractLsb' 13 2)

/-- The cause of a REP in a slot: its structural faults, then a target that is no instruction, then the fields of both (R66,
R79). -/
def repCause (ws : List Word) (slot : Nat) (bad : Bool) (nreg : Nat) : Option Cause :=
  let w := ws.getD slot 0
  let target := if slot = 2 then none else ws[slot + 1]?
  let c := (repForm w).cause target (bad || !w.getLsbD 31) nreg
  if c = some cREP_TARGET || c = some cILLEGAL_OPCODE then c
  else if w &&& 0x1FFF != 0 then some cILLEGAL_FIELD
  else c

/-- The encoding cause of the word in a slot for a thread with this NREG. -/
def slotCause (ws : List Word) (slot : Nat) (bad : Bool) (nreg : Nat) : Option Cause :=
  if opOf (ws.getD slot 0) = 0x7E then repCause ws slot bad nreg
  else match instrAt ws slot with
    | .error e => some (errCause e)
    | .ok i => if fieldCheck nreg i then none else some cILLEGAL_FIELD

/-- The words of the run after a group that ends before a slot, and the place after the run. -/
def State.afterGroup (s : State) (k : Ctx) (ws : List Word) (runLen : Nat) (pkt : Word) (nxt : Nat) : Option (List Word × Pc) :=
  if nxt < 3 then s.restOfRun k 4 runLen pkt nxt
  else if links ws && runLen < 4 then s.restOfRun k 4 (runLen + 1) (pkt + 1) 0
  else some ([], ⟨pkt + 1, 0⟩)

/-- The run holds a word other than NOP after the group (R61).  Where a later packet of the run cannot be looked at, its page being
absent or its code at a peer not fetched yet, the group counts as the last one, so that a REP in it is no REP_TARGET (R66, R78; DESIGN
CHOICE, log entry 82). -/
def State.moreInRun (s : State) (k : Ctx) (ws : List Word) (runLen : Nat) (pkt : Word) (nxt : Nat) : Bool :=
  ((s.afterGroup k ws runLen pkt nxt).map fun q => q.1.any fun w => !isNop w).getD false

/-- A REP stands where it may not: with a word before it in its group, or before the last issue group (R66). -/
def State.badPlace (s : State) (k : Ctx) (ws : List Word) (runLen : Nat) (pc : Pc) (sl nxt : Nat) : Bool :=
  sl != pc.slot || s.moreInRun k ws runLen pc.pkt nxt

/-- Raise the encoding cause of a group, that of its lowest failing slot, before any word takes effect.  A slot fails when it
does for any thread of the bundle, and the cause is raised for every thread of it (R67, R79). -/
def State.encodingCauses (s : State) (ws : List Word) (slots : List Nat) (bad : Nat → Bool) : State :=
  let nregs := (s.issue.bundle.filterMap s.nregOf).eraseDups
  match slots.findSome? fun sl => nregs.findSome? fun n => slotCause ws sl (bad sl) n with
  | some c => s.forRefs s.issue.bundle fun s r => s.raise r c
  | none => s

/-! ## The words of a group -/

/-- A thread enters its group: a new run begins with latches zero (R58, R59). -/
def Thread.beginGroup (th : Thread) (cyc : Nat) : Thread :=
  if th.inRun then { th with status := .ready, lastIssue := cyc, pathAt := 0 }
  else { th with
    status := .ready
    lastIssue := cyc
    pathAt := 0
    inRun := true
    runStart := th.pc
    runLen := 1
    tail := none
    latches := [0, 0, 0, 0] }

/-- A thread with a record parks before the word if it must (R93); the departure is noted with cause 0. -/
def State.parkBefore (s : State) (i : Instr) : State :=
  s.forRefs s.issue.bundle fun s r =>
    match s.thread? r with
    | none => s
    | some th =>
      if th.mustPark i then
        let s := s.parkAtWord r th.recCause
        { s with issue := { s.issue with raised := s.issue.raised ++ [(r, 0)] } }
      else s

/-- Some thread of the bundle has met a wait for room at the word. -/
def State.roomWait (s done : State) : Bool := s.issue.bundle.any fun r => match done.status? r with
  | some (.waiting (.room _)) => true
  | _ => false

/-- The whole bundle waits before a word for which some of its threads, as done has them, find no room (R58, R84). -/
def State.holdForRoom (s done : State) : State :=
  let s := s.forRefs s.issue.bundle fun s r => s.updThread r fun th =>
    { th with pc := s.issue.pc, status := match done.status? r with
      | some (.waiting (.room q)) => .waiting (.room q)
      | _ => th.status }
  { s with issue := { s.issue with bundle := [], hold := true } }

/-- The pipe of an opcode (R56): 1 ALU, 2 SFU, 3 MEM, 4 XLN, 5 CTL, 6 MAT, 0 none. -/
def pipeOf (op : Nat) : Nat :=
  if op = 0 || op = 0x7E then 0
  else if op = 0x32 then 2
  else if op < 0x50 then 1
  else if op < 0x64 || (0x73 <= op && op <= 0x75) then 3
  else if op < 0x6C then 5
  else if op < 0x70 then 4
  else if op < 0x73 then 6
  else 5

/-- Front cycles by which a word issues after the first of its group: words of one pipe issue one after another (R57, R87). -/
def wordOff (ws : List Word) (slots : List Nat) (sl : Nat) : Nat :=
  let pipes := ((slots.filter (· <= sl)).map fun x => pipeOf (opOf (ws.getD x 0))).filter (· != 0)
  pipes.length - pipes.eraseDups.length

/-- Issue the words in these slots, one after another, to what is left of the bundle.  Before the run's last issue group
(more) a load that finds no room holds the whole bundle (R58, R84). -/
def State.runWords (pkt : Word) (ws : List Word) (bad : Nat → Bool) (more : Bool) (slots : List Nat) : List Nat → State → Res
  | [], s => .next s
  | sl :: rest, s =>
    let s : State := { s with issue := { s.issue with
      pc := ⟨pkt, sl⟩, next := ws[sl + 1]?, bad := bad sl, off := wordOff ws slots sl } }
    match instrAt ws sl with
    | .error e => .next (s.raiseEncoding (errCause e))
    | .ok i =>
      let s := s.parkBefore i
      if s.issue.bundle.isEmpty then .next s
      else
        let s := s.landFor i
        if s.issue.bundle.any fun r => s.pendingOn s.issue.core r i then .next (s.holdBundle fun r => s.pendingOn s.issue.core r i)
        else match exec i s with
          | .next s' => if more && s.roomWait s' then .next (s.holdForRoom s') else s'.runWords pkt ws bad more slots rest
          | r => r

/-! ## Departures and waits in the middle of a group (R42, R60) -/

/-- A word whose effects can be taken back and made again: it neither meets other threads nor arrives anywhere. -/
def redoable (w : Word) : Bool :=
  opOf w < 0x64 || opOf w = 0x68 || opOf w = 0x6A || (0x73 <= opOf w && opOf w <= 0x75) || opOf w = 0x7E

/-- Every word of the group before a slot can be taken back. -/
def takesBack (ws : List Word) (slots : List Nat) (sl : Nat) : Bool := (slots.filter (· < sl)).all fun x => redoable (ws.getD x 0)

/-- The wait sends a thread back to the first word of its group, from where all of the group issues when the wait is over: a
meeting, for which the whole group issues with the set (R89, R91, R351), or a wait that the thread would meet before the group too. -/
def State.waitsBefore (s : State) (r : ThreadRef) (th : Thread) (w : WaitKind) : Bool :=
  match w with
  | .collective _ _ | .fullGroup _ => true
  | .room _ | .cpw _ _ | .deferMma | .operand | .release _ => !s.waitOver r th s.issue.core w
  | _ => false

/-- How a thread leaves the issue of a group. -/
inductive Leave where
  /-- With a cause, or, for 0, before a word that its record does not let it issue. -/
  | cause (c : Cause)
  /-- To wait at the first word of the group. -/
  | wait (w : WaitKind)
deriving DecidableEq, Repr

/-- A thread that left a group, how, and the state in which it left. -/
abbrev Leaver := State × ThreadRef × Leave

/-- Threads that wait, as done has them, at a later word of the group, and go back to its first word. -/
def State.goBack (s done : State) (ws : List Word) (slots : List Nat) : List (ThreadRef × Leave) :=
  s.issue.bundle.filterMap fun r =>
    match s.thread? r, done.thread? r with
    | some old, some th => match th.status with
      | .waiting w =>
        if old.before.isNone && th.inRun && th.pc.pkt = s.issue.start.pkt && th.pc != s.issue.start && takesBack ws slots th.pc.slot
            && s.waitsBefore r old w then some (r, .wait w)
        else none
      | _ => none
    | _, _ => none

/-- Reads of peers' lines that the group itself has sent for a thread's plain loads. -/
def State.asksOf (s done : State) (r : ThreadRef) : List Remote :=
  done.remotes.filter fun q => q.ref = r && !s.remotes.any (fun x => x.txid = q.txid) && match q.acc with
    | .load _ _ _ => true
    | _ => false

/-- A thread that waits for an operand waits for such reads alone. -/
def State.asksOnly (s done : State) (r : ThreadRef) : Bool :=
  !((done.thread? r).any Thread.acq) && ((done.core s.issue.core).loads.filter fun l => l.ref = r && l.txid.isSome).all fun l =>
    (s.asksOf done r).any fun q => l.txid = some q.txid

/-- The whole bundle waits, as done has it, at a later word of the group, and can go back to its first word. -/
def State.mayHoldBack (s done : State) (ws : List Word) (slots : List Nat) : Bool :=
  done.issue.pc != s.issue.start && takesBack ws slots done.issue.pc.slot
    && s.issue.bundle.all fun r => (s.thread? r).any (fun th => th.before.isNone)
      && (done.status? r != some (.waiting .pending) || s.asksOnly done r)

/-- The whole bundle goes back to the first word of its group: it has no effect yet, but for the reads of peers' lines that its loads
need, which fill the core's L1 (R194); with the line there the group issues again. -/
def State.holdBack (s done : State) : State :=
  let ask (s : State) (q : Remote) : State :=
    if s.peerBusy q.core q.dev q.wa 1 then s
    else (s.sendRemote q.core q.ref ((s.ctxOf? q.ref).getD 0) q.dev q.wa q.acc 2 0 (leBytes 64 2)).1
  let back (s : State) (r : ThreadRef) : State :=
    let asks := s.asksOf done r
    let s := asks.foldl ask s
    s.updThread r fun th => { th with status := match done.status? r, asks with
      | some (.waiting .pending), q :: _ => .waiting (.room (.line q.dev q.wa))
      | some (.waiting (.room q)), _ => .waiting (.room q)
      | _, _ => th.status }
  let s := s.forRefs s.issue.bundle back
  { s with issue := { s.issue with bundle := [], hold := true } }

/-- A plain load (R61). -/
def Access.plainLoad : Access → Bool
  | .load .. | .nfLoad .. | .sload .. => true
  | _ => false

/-- A thread parks before a group that recorded its first access and then reads what that access targets (R57, R93): the
access heads the record; one that is no plain load is not recorded, and the thread waits for its page (DEDUCED, log entry
62). -/
def State.parkOwn (s done : State) (r : ThreadRef) (th' : Thread) (a : Access) : State :=
  let ctx := (s.ctxOf? r).getD 0
  let level := ((done.pageReqs.find? fun q => q.ctx = ctx && q.page = a.va / 65536).map PageReq.level).getD 0
  let s := s.updThread r fun th =>
    if a.plainLoad then { th with record := th'.record.filter Access.plainLoad, recCause := th'.recCause }
    else { th with waitPage := some (a.va / 65536) }
  (s.openRequest ctx a.va a.kinds s.issue.core level).parkAtWord r th'.recCause

/-- A thread that left a group of several words is as it was before the group, but for the pending bits that its cause
cleared and the cause bits of its group; then it leaves with its cause (R60). -/
def State.leaveGroup (s done : State) (q : ThreadRef × Cause) : State :=
  let s := match done.thread? q.1 with
    | some th' => s.updThread q.1 fun th => { th with nackPending := th'.nackPending, copyFault := th'.copyFault }
    | none => s
  let s := match done.group? q.1.team (q.1.tid / 32) with
    | some g' => s.updGroup q.1.team (q.1.tid / 32) fun g => { g with causes := g.causes ||| g'.causes }
    | none => s
  if q.2 = 0 then
    match s.thread? q.1, done.thread? q.1 with
    | some th, some th' => match th.record, th'.record with
      | [], a :: _ => s.parkOwn done q.1 th' a
      | _, _ => s.parkAtWord q.1 th.recCause
    | _, _ => s
  else s.deliver q.1 q.2 (q.2 = cREMOTE_TIMEOUT || q.2 = cREMOTE_FAULT)

/-- A thread leaves a group from the state before it, as it left the one in which the group issued. -/
def State.leaveAs (s done : State) (r : ThreadRef) (l : Leave) : State :=
  match l with
  | .cause c => s.leaveGroup done (r, c)
  | .wait w => (s.updThread r fun th => { th with status := .waiting w }).leaveBundle r

/-- Threads leave from before the group in the order of the bundle (R108, R109), then those that were not in it. -/
def State.leaveAll (s : State) (bundle : List ThreadRef) (outs : List Leaver) : State :=
  let mine := bundle.filterMap fun r => outs.find? fun q => q.2.1 = r
  let others := outs.filter fun q => !bundle.contains q.2.1 && !s.issue.raised.any fun x => x.1 = q.2.1
  (mine ++ others).foldl (fun s q => s.leaveAs q.1 q.2.1 q.2.2) s

/-- Issue the group to the threads of a bundle that have not left it, until no more of them leave.  A thread that leaves by
an exact cause, a park or a wait takes no effect of any of its words.  A REP keeps the iterations before (R65). -/
def State.groupPass (s : State) (pkt : Word) (ws : List Word) (bad : Nat → Bool) (more : Bool) (slots : List Nat) :
    Nat → List Leaver → Res
  | 0, _ => .next s
  | fuel + 1, outs =>
    let rest := s.issue.bundle.filter fun r => !outs.any fun q => q.2.1 = r
    let s0 : State := { s with issue := { s.issue with bundle := rest } }
    match s0.runWords pkt ws bad more slots slots with
    | .next s' =>
      let raised := (s'.issue.raised.filter fun q => !outs.any fun x => x.2.1 = q.1).map fun q => (q.1, Leave.cause q.2)
      let new := (raised ++ s0.goBack s' ws slots).map fun q => (s', q)
      if s'.issue.hold && s0.mayHoldBack s' ws slots then .next (s.holdBack s')
      else if outs.isEmpty && (new.isEmpty || slots.any fun sl => opOf (ws.getD sl 0) = 0x7E) then .next s'
      else if !(new.any fun q => rest.contains q.2.1) then .next (s'.leaveAll s.issue.bundle outs)
      else s.groupPass pkt ws bad more slots fuel (outs ++ new)
    | r => r

/-- Issue a group to the bundle. -/
def State.runGroup (s : State) (pkt : Word) (ws : List Word) (bad : Nat → Bool) (more : Bool) (slots : List Nat) : Res :=
  ({ s with issue := { s.issue with raised := [] } } : State).groupPass pkt ws bad more slots (s.issue.bundle.length + 2) []

/-- What a thread holds of what the group's words use; loading are the registers that its loads in flight target. -/
def Thread.groupStart (th : Thread) (is : List Instr) (loading : List Nat) : GroupStart where
  regs := ((is.flatMap regUses).eraseDups).map fun n => (n, th.reg n, th.writes.getD n 0)
  loading := loading
  preds := ((is.flatMap predUses).eraseDups.filter (· != 0)).map fun n => (n, th.preds.getLsbD n)
  fflags := th.fflags
  fenable := th.fenable
  frm := th.frm
  seltag := th.seltag
  selg := th.selg
  epc := th.epc
  ecause := th.ecause
  stkp := th.stkp

/-- Threads that the group leaves waiting at one of its later words keep what they held before it (R42, R60); start is the
state in which the group began at pc. -/
def State.keepStart (s start : State) (ws : List Word) (slots : List Nat) (pc : Pc) : State :=
  if slots.length ≤ 1 then s
  else
    let is := slots.filterMap fun sl => match instrAt ws sl with
      | .ok i => some i
      | .error _ => none
    s.forRefs start.issue.bundle fun s r =>
      match start.thread? r, s.thread? r with
      | some old, some th =>
        if th.before.isNone && th.inRun && th.pc.pkt = pc.pkt && th.pc != pc && slots.contains th.pc.slot then
          let loading := ((start.core start.issue.core).loads.filter fun l => l.ref = r).flatMap fun l => regSpan l.d l.words.length
          s.updThread r fun th => { th with before := some (old.groupStart is loading) }
        else s
      | _, _ => s

/-! ## The end of a group -/

/-- Results enter the latches, newest first (R59). -/
def Thread.shiftLatches (th : Thread) : Thread :=
  { th with latches := (th.pushes.reverse ++ th.latches).take 4, pushes := [] }

/-- A thread that completed its group moves on: to the next group of its run, or out of the run after its last. -/
def Thread.moveOn (th : Thread) (ws : List Word) (pkt : Word) (nxt : Nat) (tail : Nat → Option Pc) : Thread :=
  let th := { th.shiftLatches with before := none }
  if nxt < 3 then { th with pc := ⟨pkt, nxt⟩, tail := tail th.runLen }
  else if links ws && th.runLen < 4 then { th with pc := ⟨pkt + 1, 0⟩, runLen := th.runLen + 1, tail := tail th.runLen }
  else th.goto ⟨pkt + 1, 0⟩

/-- A thread leaves its run at the group's boundary: its group is to stop, or its context or team has stopped issuing
(R60, R115, R130). -/
def State.mustLeave (s : State) (r : ThreadRef) : Bool :=
  match s.team? r.team with
  | none => false
  | some tm =>
    ((s.group? r.team (r.tid / 32)).map fun g => g.stopReq || g.stopped).getD false || tm.state != .resident
      || !((s.ctx? tm.ctx).map fun k => k.issues tm.forced).getD false

/-- The group is over: the bundle moves on, threads that must leave their run do, and the core is held to those still in
it. -/
def State.endGroup (s : State) (k : Ctx) (first : List ThreadRef) (ws : List Word) (pkt : Word) (nxt : Nat) : State :=
  let core := s.issue.core
  let all := s.issue.bundle ++ first.filter fun r => !s.issue.bundle.contains r
  let lens := (s.issue.bundle.filterMap fun r => (s.thread? r).map Thread.runLen).eraseDups
  let tails := lens.map fun n => (n, (s.afterGroup k ws n pkt nxt).bind fun q =>
    if q.1.all isNop then some q.2 else none)
  let tail (n : Nat) : Option Pc := (tails.find? (·.1 == n)).bind (·.2)
  let hold := s.issue.hold
  let s := s.forRefs s.issue.bundle fun s r => s.updThread r fun th => th.moveOn ws pkt nxt tail
  let s := s.forRefs all fun s r =>
    if s.mustLeave r then s.updThread r fun th =>
      if th.status = .ready || (hold && th.stays) then { th.leaveRun with status := .ready } else th
    else s
  let inRun (r : ThreadRef) : Bool := (s.thread? r).any fun th =>
    th.inRun && (th.status = .ready || th.status = .waiting .pending || (hold && th.stays))
  let held := all.filter inRun
  let s := (s.countTo core ((s.core core).cyc + 1 + s.issue.off)).updCore core fun c => { c with
    held := if held.isEmpty then none else some ⟨held⟩
    oldest := false }
  let groups := (all.map fun r => (r.team, r.tid / 32)).eraseDups
  { groups.foldl (fun s g => s.convergeCheck g.1 g.2) s with issue := Issue.idle }

/-! ## Issue -/

/-- A fetch that meets a cause (R40): an absent page in PARK mode parks the threads until its reply; others are delivered.  No line of a
page with X clear is held, and its code after a thaw is what its frame holds then (DESIGN CHOICE, log entry 86). -/
def State.fetchCause (s : State) (ctx : Nat) (c : Cause) (level va : Nat) (bad : Bool) : State :=
  let rs := s.issue.bundle
  match (rs.head?).bind fun r => s.team? r.team with
  | none => s
  | some tm =>
    if c = cPAGE_ABSENT && s.parksAbsent tm then
      if bad then s.forRefs rs fun s r => (s.setCause r.team (r.tid / 32) c).killTeam r.team c (some r)
      else
        (s.forRefs rs fun s r => ((s.setCause r.team (r.tid / 32) c).parkAtWord r c).updThread r fun th =>
          { th with waitPage := some (va / 65536) }).openRequest ctx va 4 s.issue.core level
    else
      let s := if c = cPAGE_PROT then s.updCtx ctx fun k => { k with stale := k.stale ++ [(va / 65536, va / 65536)] } else s
      s.forRefs rs fun s r => s.raise r c

/-- Threads of the bundle's path that do not issue with it: their path has issued (R86). -/
def State.passBy (s : State) (core ctx : Nat) (bundle : List ThreadRef) (pc : Pc) : State :=
  let cyc := (s.core core).cyc
  let rest := (s.teams.filter fun t => t.core = core && t.ctx = ctx).flatMap fun t => t.refs.filter fun r =>
    !bundle.contains r && (s.thread? r).any fun th => th.pc = pc && th.live
  s.forRefs rest fun s r => s.updThread r fun th => { th with pathAt := cyc }

/-- A bundle enters its next group. -/
def State.enter (s : State) (core : Nat) (bundle : List ThreadRef) (pc : Pc) : State :=
  let cyc := (s.core core).cyc
  let s := s.passBy core (((bundle.head?).bind s.ctxOf?).getD 0) bundle pc
  let s := s.forRefs bundle fun s r => s.updThread r fun th => th.beginGroup cyc
  { s with issue := { Issue.idle with core := core, bundle := bundle, pc := pc, start := pc } }

/-- Issue the group that stands at a place, its packet having been fetched. -/
def State.issueWords (s : State) (k : Ctx) (bundle : List ThreadRef) (pc : Pc) (ws : List Word) : Res :=
  let (slots, nxt) := groupSlots ws 3 pc.slot
  let runLen := ((bundle.head?).bind s.thread?).map Thread.runLen |>.getD 1
  let bad (sl : Nat) : Bool := opOf (ws.getD sl 0) = 0x7E && s.badPlace k ws runLen pc sl nxt
  let s := s.encodingCauses ws slots bad
  match s.runGroup pc.pkt ws bad (s.moreInRun k ws runLen pc.pkt nxt) slots with
  | .next s' => .next ((s'.keepStart s ws slots pc).endGroup k bundle ws pc.pkt nxt)
  | r => r

/-- Nothing of the group issued: the core has spent a cycle. -/
def State.noIssue (s : State) (core : Nat) : State :=
  { (s.countTo core ((s.core core).cyc + 1)).updCore core fun c => { c with oldest := false } with issue := Issue.idle }

/-- A core issues the next group of a bundle. -/
def State.issueGroup (s : State) (core : Nat) (bundle : List ThreadRef) : Res :=
  match (bundle.head?).bind s.thread?, ((bundle.head?).bind s.ctxOf?).bind s.ctx? with
  | some th0, some k =>
    let pc := th0.pc
    let s := s.enter core bundle pc
    match s.fetchPacket core k pc.pkt with
    | (s, .words ws) => s.issueWords k bundle pc ws
    | (s', .wait) =>
      -- inside a run no other bundle issues in between (R84)
      if th0.inRun then .next (s'.noIssue core) else .next ((s'.forRefs bundle fun s r => s.block r (.room (.packet pc.pkt))).noIssue core)
    | (s, .badVa) => .next ((s.fetchCause k.id cPAGE_ABSENT 0 0 true).noIssue core)
    | (s, .cause c l va) => .next ((s.fetchCause k.id c l va false).noIssue core)
  | _, _ => .next s

/-- What a core can do next: a thread replays its record, or a bundle issues. -/
inductive Turn where
  | replay (r : ThreadRef)
  | issue (core : Nat) (bundle : List ThreadRef)
deriving DecidableEq, Repr

/-- The core that takes a turn. -/
def State.turnCore (s : State) : Turn → Nat
  | .replay r => ((s.team? r.team).map Team.core).getD 0
  | .issue c _ => c

/-- The turns that the cores offer, core by core in the order of the teams. -/
def State.turns (s : State) : List Turn :=
  ((s.teams.map Team.core).eraseDups).filterMap fun c =>
    match s.coreReplay c with
    | some r => some (.replay r)
    | none => match s.corePick c with
      | some (r :: rs) => some (.issue c (r :: rs))
      | _ => none

/-- Take a turn. -/
def State.take (s : State) : Turn → Res
  | .replay r => .next (s.replay r)
  | .issue c b => s.issueGroup c b

end Sys2Proof.Machine
end

