-- ==== Sys2Proof/Machine/Advance.lean ====
section
/-!
DEFINITION. How the machine goes on by itself: the acts that end what is in flight, the timers that run out when nothing else
can happen, and the choice among them and the cores' turns.  The manual orders few of these; the choice is data of the state
(DESIGN CHOICE, log entry 27).
-/
namespace Sys2Proof.Machine

/-- An act of the machine on itself. -/
abbrev Act := State → State

/-- The act of a device event. -/
def actOf (f : State → Res) : Act := fun s => match f s with
  | .next s' => s'
  | _ => s

/-! ## Acts that end what is in flight -/

/-- Acts, where a condition makes them possible. -/
def actsIf (b : Bool) (l : List Act) : List Act := if b then l else []

/-- Acts of the banks of a core with a bank word running. -/
def bankActs (c : Core) : List Act :=
  ((List.range c.banks.length).map fun b =>
    ([fun s => s.bankLoadDone c.id b, fun s => s.bankDrainDone c.id b] : List Act)).flatten

/-- Acts of a core: engine words, walker jobs, copies, loads, acknowledgements, scrub. -/
def coreActs (c : Core) : List Act :=
  ([ (List.range c.loads.length).map (fun i (s : State) => s.loadLand c.id i),
     (List.range c.storeq.length).map (fun i (s : State) => s.ackReceive c.id i false),
     actsIf (!c.engq.isEmpty) [fun s => s.engineStart c.id],
     actsIf (!c.engRun.isEmpty) ([fun s => s.mmaDone c.id, fun s => s.bankQueryDone c.id] ++ bankActs c),
     actsIf (c.twq.any fun j => !j.running) [fun s => s.twkStart c.id],
     (List.range c.twq.length).map (fun j (s : State) => s.twkTile c.id j),
     (List.range c.twq.length).map (fun j (s : State) => s.twkFinish c.id j),
     (List.range c.copies.length).map (fun i (s : State) => s.cpyRetire c.id i),
     actsIf c.scrubbing [fun s => s.scrubComplete c.id] ] : List (List Act)).flatten

/-- Acts of one thread: another try at a lock. -/
def threadActs (r : ThreadRef) (th : Thread) : List Act :=
  if th.status = .waiting .lock then [fun s => s.lockRetry r] else []

/-- A team may be saved: its save has begun, or its context is leaving. -/
def State.maySave (s : State) (t : Team) : Bool :=
  t.state = .saving || (t.state = .resident && ((s.ctx? t.ctx).map fun k =>
    k.state = .preempting || (k.state = .frozen && k.preemptPending)).getD false)

/-- Acts of a team: stops, the end of its draining, its saving and return, and its threads' timers. -/
def State.teamActs (s : State) (t : Team) : List Act :=
  ([ ((List.range t.groups.length).filter fun g => (t.groups[g]?.map Group.stopReq).getD false).map
       (fun g (s : State) => s.groupStop t.id g),
     actsIf (t.state = .killing) [fun s => s.killDrained t.id],
     actsIf (s.maySave t) [fun s => s.saveComplete t.id],
     actsIf (t.state = .swapped) [fun s => s.readmit t.id],
     actsIf (t.state = .resident && t.groups.any fun g => g.threads.any Thread.onPage) [fun s => s.unparkTeam t.id],
     (t.refs.filterMap fun r => (s.thread? r).map (threadActs r)).flatten ] : List (List Act)).flatten

/-- The object that draws a launch's clusters stands where it can (R172): else nothing is waited for round by round. -/
def State.draws (s : State) (l : Launch) : Bool := (l.draw.bind (s.drawHolder l)).isSome

/-- Acts of a launch: handing out and placing clusters, which a drawn cluster that waits does round by round (R173), a reservation
that is complete, the launch's end. -/
def State.launchActs (s : State) (l : Launch) : List Act :=
  ([ actsIf (l.state = .running && !l.recd.cor && (l.next < l.ncl || !l.again.isEmpty))
       ((s.launchDies l).map fun d (s : State) => s.chunkRequest l.id d),
     actsIf (!l.recd.cor && !l.plan.isEmpty) [fun s => s.placeMoved l.id],
     actsIf (l.roundFrom = 0 || !s.draws l) ((l.todo.map (·.1)).eraseDups.map fun d (s : State) => s.clusterPlace l.id d),
     actsIf (l.recd.cor && !l.plan.isEmpty) [fun s => s.corComplete l.id],
     actsIf (s.launchOver l) [fun s => s.launchComplete l.id] ] : List (List Act)).flatten

/-- Acts of a queue: the next packet, a held packet, a poll. -/
def State.queueActs (s : State) (q : HostQueue) : List Act :=
  ([ actsIf (s.mayFetch q) [fun s => s.onQueue q.fn q.q fun s => s.fetch q.fn q.q fun _ => true],
     actsIf (q.pkts.any fun p => p.index = q.qdone && !p.complete)
       [fun s => s.onQueue q.fn q.q fun s => s.dispatchHeld q.fn q.q],
     actsIf q.waitval?.isSome [fun s => s.onQueue q.fn q.q fun s => s.waitvalMet q.fn q.q] ] : List (List Act)).flatten

/-- Acts that pass a core to a context that waits for it. -/
def State.passActs (s : State) : List Act :=
  s.cores.flatMap fun c => (s.passesTo c).map fun k => (fun (s : State) => s.coreReassign c.id k : Act)

/-- The first act that changes the state. -/
def State.firstAct (s : State) : List Act → Option State
  | [] => none
  | f :: fs => if f s = s then s.firstAct fs else some (f s)

/-- Acts of the launches of a tenant whose plug-in has been unloaded: first come, first served (R277).  A tenant is named by the function of
its contexts' queues (DESIGN CHOICE, log entry 91). -/
def State.servedActs (s : State) (fn : Nat) : Act := fun s' =>
  (s'.firstAct ((s.launches.filter fun l => l.fn = fn).flatMap s.launchActs)).getD s'

/-- Acts of the launches: of tenants with a plug-in in any order, for R98 and R160 leave it open. -/
def State.admitActs (s : State) : List Act :=
  (s.launches.filter fun l => !s.unplugged.contains l.fn).flatMap s.launchActs ++ s.unplugged.map s.servedActs

/-- Acts of launches and queues.  Without a schedule they are taken oldest launch first, and a queue goes on when no launch can. -/
def State.orderActs (s : State) : List Act :=
  let l := (if s.sched.isEmpty then s.launches.flatMap s.launchActs else s.admitActs) ++ s.queues.flatMap s.queueActs
  if s.sched.isEmpty then [fun s' => (s'.firstAct l).getD s'] else l

/-- An access toward a device has no end yet. -/
def State.awaitsFrom (s : State) (dev : Nat) : Bool :=
  s.remotes.any (fun q => q.dev = dev) || s.queues.any fun q => q.accs.any fun a => a.txid.isSome && a.dev = dev

/-- Every act that can end something in flight. -/
def State.acts (s : State) : List Act :=
  ([ s.cores.flatMap coreActs,
     s.teams.flatMap s.teamActs,
     s.orderActs,
     s.passActs,
     (s.objs.filter fun o => o.state = .moving).map (fun o (s : State) => s.copyComplete o.ctx o.name),
     (s.objs.filter fun o => o.state = .restoring).map (fun o (s : State) => s.objectRestored o.ctx o.name),
     (s.unreachable.filter s.awaitsFrom).map (fun d (s : State) => s.unreach d),
     actsIf (!s.loopback.isEmpty) [State.takeLoopback],
     (List.range s.heldFrames.length).map (fun _ (s : State) => s.takeHeld),
     (s.ctxs.filter fun k => k.replay.isSome).map (fun k (s : State) => s.takeLogged k.id),
     (s.cores.filter fun c => !c.scrubbing && c.owner.isSome).map (fun c (s : State) => s.scrubTorn c.id),
     actsIf (!s.killRecs.isEmpty && !s.updating) [State.writeKill],
     actsIf (s.update != .none) [State.updateWaited],
     actsIf s.signing.isSome [State.signDone],
     actsIf (!s.fwHeld.isEmpty) [State.retryStores],
     (s.ctxs.filter fun k => s.preempts k.id).map (fun k (s : State) => s.preemptDone k.id),
     actsIf (!s.prqHeld.isEmpty) [State.postRecord],
     actsIf (!s.wakeHeld.isEmpty) [State.coreWake],
     (List.range s.rangeInvs.length).map (fun i (s : State) => s.rangeComplete i),
     s.dies.flatMap (fun d => (List.range d.bgWalks.length).map fun i s => s.bgWalkDone d.id i),
     (List.range s.migrations.length).map (fun i (s : State) => s.migrationDone i),
     (s.dies.filter Die.rebuilding).map (fun d => actOf (execDirectoryRebuildComplete d.id)),
     (s.quarters.filter Quarter.relocking).map (fun q (s : State) => s.relocked q.die q.ix) ] : List (List Act)).flatten

/-! ## What time brings -/

/-- An act that comes with time: whether its count has been reached, the instant at which it is, and the act. -/
structure Timed where
  due : Bool
  time : Nat
  act : Act

/-- An act that comes when a core has counted n front cycles (R3). -/
def State.onCore (s : State) (core n : Nat) (act : Act) : Timed :=
  let c := s.core core
  ⟨n <= c.cyc, instantAfter (s.mhz core) c.ns (n - c.cyc), act⟩

/-- An act that comes at an instant of the fixed 1.0 GHz clocks: those of the control cores and of the link die (R3, R259). -/
def State.onInstant (s : State) (t : Nat) (act : Act) : Timed := ⟨t <= s.now, t, act⟩

/-- An act that comes when the quarter 0 of a die has counted n front cycles (R225, R271). -/
def State.onDie (s : State) (d : Die) (n : Nat) (act : Act) : Timed :=
  ⟨n <= d.q0, instantAfter (s.quarter d.id 0).front s.ns (n - d.q0), act⟩

/-- The timers of a team's threads (R352, R361). -/
def State.teamTimers (s : State) (t : Team) : List Timed :=
  t.refs.filterMap fun r => match (s.thread? r).map Thread.status with
    | some (.waiting (.timer sl u)) => some (s.onCore t.core u fun s => s.timerEnd r sl)
    | _ => none

/-- The deadline of a request that stands on the core of a team (R125). -/
def State.teamDeadlines (s : State) (t : Team) : List Timed :=
  ((s.core t.core).preqs.filter fun p => p.ctx = t.ctx && p.req).map fun p =>
    s.onCore t.core (p.since + s.deadlineOf t) fun s => s.preemptDeadline t.id

/-- The swap of a team that meets the condition (R96): enough of its threads have been parked for SWAPCYC. -/
def State.teamSwaps (s : State) (t : Team) : List Timed :=
  match s.swapMet t, s.ctx? t.ctx with
  | true, some k => [s.onCore t.core (t.parkedSince k.swapfrac + k.swapcyc) fun s => s.teamSwap t.id]
  | _, _ => []

/-- The cause of every instance of a team whose count has reached the limit is raised (R90). -/
def State.raiseLimits (s : State) (t : Team) : State :=
  if t.state != .resident then s
  else (t.groups.mapIdx fun gi (g : Group) => (gi, g.counting.filter fun x => s.limitOf t <= x.count)).foldl
    (fun s q => q.2.foldl (fun s x => s.raiseLimit t.id q.1 x) s) s

/-- The convergence limits of a team's groups, as they are counted (R90). -/
def State.teamLimits (s : State) (t : Team) : List Timed :=
  let c := s.core t.core
  if t.state != .resident then []
  else t.groups.flatMap fun g => g.counting.map fun x =>
    s.onCore t.core (c.counted + (s.limitOf t - x.count)) fun s => ((s.team? t.id).map s.raiseLimits).getD s

/-- What the passing of cycles does to a thread that does not issue: one that is not ready now has been so until this cycle
(R83, R86), and one whose next issue group has a pending operand waits for it (R101). -/
def State.countThread (s : State) (core : Nat) (k : Ctx) (issues : Bool) (cyc : Nat) (r : ThreadRef) (th : Thread) : Thread :=
  if th.stopped then { th with readyAt := cyc }
  else match th.status with
  | .ready =>
    if th.replays || !issues then { th with readyAt := cyc }
    else if s.operandsReady core k r th.pc then th
    else { th with status := .waiting .pending, readyAt := cyc }
  | .waiting .pending => if s.operandsReady core k r th.pc then { th with status := .ready } else { th with readyAt := cyc }
  | .waiting w => if issues && s.waitOver r th core w && s.mayMeet core k r th then th else { th with readyAt := cyc }
  | _ => { th with readyAt := cyc }

/-- What the passing of cycles does to a team (R86, R90). -/
def State.countTeam (s : State) (t : Team) : Team :=
  let c := s.core t.core
  match s.ctx? t.ctx with
  | none => t
  | some k =>
    if c.cyc = c.counted || t.state = .ended then t
    else
      let issues := s.teamIssues t
      { t with groups := t.groups.mapIdx fun gi (g : Group) => { g with
          limits := g.countLimits c.counted (if t.state = .resident then c.cyc - c.counted else 0)
          threads := g.threads.mapIdx fun l th =>
            s.countThread t.core k (issues && !g.stopReq && !g.stopped) c.cyc ⟨t.id, 32 * gi + l⟩ th } }

/-- The cycles that have passed on each core are counted for its waiting threads. -/
def State.count (s : State) : State :=
  { s with
    teams := s.teams.map s.countTeam
    cores := s.cores.map fun (c : Core) => { c with counted := c.cyc } }

/-- The time within which a remote access is answered, counted in front cycles of the issuing core (R265). -/
def State.answerTimes (s : State) : List Timed :=
  s.remotes.map fun q => s.onCore q.core (q.since + 262144) fun s => s.remoteTimeout q.core q.txid

/-- The TIMEOUT of a WAITVAL, in control-core cycles (R3, R142), and the time for an answer to an access of the queue's own, which
has no issuing core: as many control-core cycles (DESIGN CHOICE, log entry 31). -/
def State.queueTimeouts (s : State) (q : HostQueue) : List Timed :=
  (match q.waitval? with
    | none => []
    | some p => if fieldAt p.body 28 4 = 0 then [] else
      [s.onInstant (p.since + fieldAt p.body 28 4) fun s => s.onQueue q.fn q.q fun s => s.waitvalTimeout q.fn q.q])
  ++ q.accs.filterMap fun a => a.txid.map fun x => s.onInstant (a.since + 262144) fun s => s.queueAnswer x .timeout

/-- The end of a slope step (R271) and of an epoch (R225) on a die, where they would change anything. -/
def State.dieTimes (s : State) (d : Die) : List Timed :=
  (if s.stepIdle d then [] else [s.onDie d ((d.stepAt + 1) * 1024) fun s => s.quietStep d.id])
  ++ if d.counts.isEmpty || s.sluiceEpoch = 0 then [] else
    [s.onDie d ((d.epochAt + 1) * s.sluiceEpoch) fun s => s.epochEnd d.id []]

/-- The end of the dispatch round of a launch's drawn cluster, in front cycles of the holder's quarter (R173). -/
def State.roundTimes (s : State) (l : Launch) : List Timed :=
  match l.draw.bind (s.drawHolder l) with
  | some h => if l.roundFrom = 0 then [] else [s.onCore h (l.roundFrom + 1024) fun s => s.roundExpiry l.id]
  | none => []

/-- The end of the dispatch round of a team that found no room to return (R98). -/
def State.returnTimes (s : State) (t : Team) : List Timed :=
  if t.state = .swapped && t.roundFailed && !t.anyCore then
    [s.onCore t.core (t.roundFrom + 1024) fun s => s.readmitRound t.id]
  else []

/-- What comes with the cycles of the package itself: slope steps, epochs and dispatch rounds. -/
def State.rounds (s : State) : List Timed :=
  s.dies.flatMap s.dieTimes ++ s.launches.flatMap s.roundTimes ++ s.teams.flatMap s.returnTimes

/-- The clocks of a quarter have relocked 2,048 cycles of the old front clock after their change (R269), and a new image has missed its
heartbeat after 2^28 cycles of control core 0 (R284). -/
def State.controlTimes (s : State) : List Timed :=
  ((s.quarters.filter Quarter.relocking).map fun q => s.onInstant q.until_ fun s => s.relocked q.die q.ix)
  ++ match s.update with
    | .handed _ t => [s.onInstant (t + 2 ^ 28) State.heartbeatMissed]
    | .none | .waiting _ => []

/-- Frames that are not acknowledged are resent after 65,536 link cycles (R261), and a port that failed to train is tried again
after 2^20 (R259). -/
def State.linkTimes (s : State) : List Timed :=
  s.sent.map (fun f => s.onInstant (f.since + 65536) fun s =>
    match s.sent.findIdx? fun x => x.dst = f.dst && x.vc = f.vc && x.seq = f.seq with
    | some i => s.resend i
    | none => s)
  ++ s.ports.filterMap fun p => p.failedAt.map fun t => s.onInstant (t + 2 ^ 20) fun s => s.retrain p.ix

/-- Everything that comes with time. -/
def State.timed (s : State) : List Timed :=
  ([ s.teams.flatMap s.teamTimers,
     s.rounds,
     s.teams.flatMap s.teamSwaps,
     s.teams.flatMap s.teamDeadlines,
     s.teams.flatMap s.teamLimits,
     s.answerTimes,
     s.queues.flatMap s.queueTimeouts,
     s.controlTimes,
     s.linkTimes ] : List (List Timed)).flatten

/-- What time has brought already. -/
def State.dueActs (s : State) : List Act := (s.timed.filter Timed.due).map Timed.act

/-- Insert by the instant: what is due goes first. -/
def insertTimed (x : Timed) : List Timed → List Timed
  | [] => [x]
  | y :: ys => if x.due || (!y.due && x.time <= y.time) then x :: y :: ys else y :: insertTimed x ys

/-- A die has gone on to an instant: quarter 0 has counted, and the steps and epochs that ended with nothing to do are past. -/
def State.liftDie (s : State) (t : Nat) (d : Die) : Die :=
  let n := d.q0 + cyclesIn (s.quarter d.id 0).front s.ns t
  { d with
    q0 := n
    stepAt := if s.stepIdle d then n / 1024 else d.stepAt
    epochAt := if d.counts.isEmpty then n / s.sluiceEpoch else d.epochAt }

/-- The package has gone on to an instant: its cores, but for those that still have words to issue before it, its dies, and the clocks
that have relocked by then (R269). -/
def State.goTo (s : State) (t : Nat) (busy : List Nat) : State :=
  let s := (s.cores.filter fun c => !busy.contains c.id).foldl (fun s c => s.liftCore c.id t) s
  ({ s with
    dies := s.dies.map (s.liftDie t)
    quarters := s.quarters.map fun q => if q.until_ <= t then { q with relocking := false } else q
    ns := max s.ns t } : State).count

/-- Slope steps, epochs and dispatch rounds that have ended are taken account of, one of each. -/
def State.endRounds (s : State) : State := (s.rounds.filter Timed.due).foldl (fun s t => t.act s) s

/-- Time passes on the whole package, to an instant. -/
def State.pass (s : State) (t : Nat) : State := s.goTo (max s.now t) []

/-- Cores that had nothing to issue count their cycles all the same (R302), and what comes with them is done. -/
def State.catchUp (s : State) (busy : List Nat) : State :=
  let s := s.goTo s.now busy
  (s.teams.foldl State.raiseLimits s).endRounds

/-- What comes with time that the model does not count: a checkpoint written. -/
def State.lateActs (s : State) : List Act := s.ctxs.map (fun k (s : State) => s.checkpointRecorded k.id false)

/-! ## The choice -/

/-- Rotate a list. -/
def rotate (n : Nat) (l : List α) : List α := l.drop (n % l.length) ++ l.take (n % l.length)

/-- Where the choice begins: as the schedule says, else in turn. -/
def State.choice (s : State) : Nat := s.sched.headD (s.tick / 2)

/-- The step counter and the schedule move on. -/
def State.ticked (s : State) : State := { s with tick := s.tick + 1, sched := s.sched.tail }

/-! ## What the dies' estimates count (R271) -/

/-- Accesses of a core to DRAM or over Causeway that are under way, and tiles that its walker has moved. -/
def Core.underWay (c : Core) : Nat × Nat :=
  ((c.loads.filter fun l => l.va.isSome).length + c.copies.length + (c.storeq.filter fun q => !q.done && match q.home with
    | .scratch _ _ => false
    | _ => true).length,
   (c.twq.map TwkJob.tile).sum)

/-- The energy of what has ended on the cores between two states: engine words started and accesses performed. -/
def State.metered (s s' : State) : State :=
  if s.meter.engine = 0 && s.meter.access = 0 then s'
  else s.cores.foldl (fun t c => match c.owner with
    | none => t
    | some k =>
      let c' := s'.core c.id
      let engine := c'.engRun.length - c.engRun.length
      let access := (c.underWay.1 - c'.underWay.1) + (c'.underWay.2 - c.underWay.2)
      t.spend (dieOf c.id) k (engine * s.meter.engine + access * s.meter.access)) s'

/-- The energy of the words that a turn has issued, thread by thread and front cycle by front cycle. -/
def State.meterTurn (s s' : State) (core threads : Nat) : State :=
  if s.meter.word = 0 then s'
  else match (s.core core).owner with
    | none => s'
    | some k => s'.spend (dieOf core) k (((s'.core core).cyc - (s.core core).cyc) * threads * s.meter.word)

/-- The threads that a turn issues for. -/
def Turn.threads : Turn → Nat
  | .replay _ => 1
  | .issue _ b => b.length

/-- A turn of a core, when one offers. -/
def State.issueTurn (s : State) : Option Turn :=
  let ts := s.turns
  ts[s.choice % ts.length]?

/-- An act, when one is enabled. -/
def State.actTurn (s : State) : Option State :=
  (s.ticked.firstAct (rotate s.choice (s.acts ++ s.dueActs))).map s.metered

/-- The first timed act that changes anything once its time has come. -/
def State.firstTimed (s : State) : List Timed → Option State
  | [] => none
  | t :: ts =>
    let s' := if t.due then s else s.pass t.time
    let s'' := t.act s'
    if s'' = s' then s.firstTimed ts else some s''

/-- Nothing issues and nothing is in flight: time goes on to the next act that it brings. -/
def State.lateTurn (s : State) : State :=
  ((s.ticked.firstTimed (s.timed.foldr insertTimed [])).or (s.ticked.firstAct s.lateActs)).getD s.ticked

/-- An act, or else the passing of time. -/
def State.actOrLate (s : State) : State := s.actTurn.getD s.lateTurn

/-- A core takes its turn, and the cores without one count cycles. -/
def State.takeTurn (s : State) (t : Turn) : Res :=
  let busy := s.turns.map s.turnCore
  match s.ticked.take t with
  | .next s' => .next ((s.meterTurn (s.metered s') (s.turnCore t) t.threads).catchUp busy)
  | r => r

/-- Without an event the cores and the acts take turns; where one side has nothing, the other goes on. -/
def State.advance (s : State) : Res :=
  if s.tick % 2 = 0 then
    match s.issueTurn with
    | some t => s.takeTurn t
    | none => .next s.actOrLate
  else
    match s.actTurn with
    | some s' => .next s'
    | none => match s.issueTurn with
      | some t => s.takeTurn t
      | none => .next s.lateTurn

end Sys2Proof.Machine
end

