-- ==== Sys2Proof/Machine/Placed.lean ====
section
/-!
DEFINITION. A booted package with one resident team of one group, by which a word is put where the first step fetches it (DESIGN CHOICE, log
entry 28).
-/
namespace Sys2Proof.Machine

/-- Where the placed code lies: a virtual address, equal to the physical one, on a 48-byte boundary. -/
def placedBase : Nat := 0x30000

/-- The launch record of the placed team: one role of one group with 64 registers, a handler at packet 16. -/
def placedRecord : LaunchRec where
  cor := false
  det := false
  reissue := false
  sys := false
  roles := [⟨0, 64, 1⟩]
  teamdim := [1, 1, 1]
  shx := 1
  shy := 1
  grid := [1, 1, 1]
  scrsz := 4096
  names := []
  buckets := []
  pdeadline := 0
  waitmax := 0
  sigaddr := 0
  sigscope := 0
  handler := 16
  placeEn := false
  placeDie := 0
  placeMask := 0

/-- The launch of the placed team. -/
def placedLaunch : Launch where
  id := 0
  ctx := 0
  fn := 0
  q := 0
  pkt := 0
  recd := placedRecord
  args := 0
  sh := [0, 0, 0, 0, 0, 0, 0, 0]
  sigval := 0
  bucket := 8
  grid := [1, 1, 1]
  det := false
  state := .running
  draw := none
  plan := []
  next := 1
  again := []
  chunks := []
  todo := []
  endedTeams := 0
  killed := 0
  dieLost := false
  master := 0
  copyDie := none
  copy := ([], [])
  wins := []
  rounds := 0
  roundFrom := 0
  turn := 0
  roff := 0
  gsyncs := List.replicate 8 SyncObj.fresh
  releasing := []
  started := []
  gtimes := List.replicate 8 (0, 0)
  skew := []
  ceil := []

/-- The placed team, on core 0 of die 0. -/
def placedTeam : Team :=
  { Team.stub 0 0 with
    id := 0
    scrsz := 4096
    state := .resident
    groups := [Group.fresh 0 64 0]
    syncs := List.replicate 32 SyncObj.fresh }

/-- The placed context: the defaults of R118, page tables from physical address 0x10000. -/
def placedCtx (code : Memory) : Ctx :=
  { Ctx.blank 0 with
    state := .running
    sysok := true
    ptroot := 0x10000
    codebase := placedBase
    savebase := 0x1000000
    savesz := 0x1000000
    agemax := 256
    convlim := 1048576
    swapfrac := 50
    swapcyc := 65536
    pdefault := 131072
    modes := (List.range 256).map defaultMode
    code := code }

/-- Package memory with the tables of an identity map of the first 64 MiB and the code. -/
def placedMem (m : Memory) (code : List Byte) : Memory :=
  let m := m.writeBytes 0x10000 (leBytes 0x12001 8)
  let m := m.writeBytes 0x12000 (leBytes 0x14001 8)
  let m := m.writeBytes 0x14000 (leBytes 0xF 8)
  m.writeBytes placedBase code

/-- The package with this code placed: nothing else is resident, and no translation is cached. -/
def State.place (s : State) (code : List Byte) : State :=
  let m := placedMem s.mem code
  { s with
    inputs := []
    sched := []
    tick := 0
    issue := Issue.idle
    booted := true
    mem := m
    update := .none
    dies := s.dies.filter (·.id != 0)
    quarters := s.quarters.filter (·.die != 0)
    cores := { Core.blank 0 with owner := some 0 } :: s.cores.filter (·.id != 0)
    ctxs := placedCtx m :: s.ctxs.filter (·.id != 0)
    launches := placedLaunch :: s.launches.filter (·.id != 0)
    clusters := ⟨0, 0, 0, List.replicate 16 SyncObj.fresh, List.replicate 8 0, false⟩ :: s.clusters.filter (·.launch != 0)
    teams := [placedTeam]
    serial := s.serial + 1
    objs := []
    rangeInvs := []
    migrations := [] }

end Sys2Proof.Machine
end

