-- ==== Sys2Proof/Machine/Step.lean ====
section
/-!
DEFINITION. One step of the package: the oldest device event that has arrived, or else a turn of a core or an act of the
machine on itself.
-/
namespace Sys2Proof.Machine

/-- No issue group is in progress between steps. -/
def State.settle (s : State) : State := { s with issue := Issue.idle }

/-- One step. -/
def step (s : State) : Host.Outcome State Fault Refusal :=
  match (match s.inputs with
    | e :: rest => exec e { s with inputs := rest }
    | [] => s.advance) with
  | .next s' => .next s'.settle
  | .fault f => .fault f
  | .refused r => .refused r

/-- The state with an instruction placed where the next step fetches (DESIGN CHOICE, log entry 28). -/
def State.withFetchWord (s : State) (nbits w : Nat) : State :=
  let v := w % 2 ^ nbits
  s.place (bytesOfWord (BitVec.ofNat 32 v) ++ bytesOfWord (BitVec.ofNat 32 (v / 2 ^ 32)) ++ bytesOfWord 0)

end Sys2Proof.Machine
end

