-- ==== Sys2Proof/Certificates/Slice0/Obligations.lean ====
section
/-!
DEFINITION. The statements for the provers: first the words in which they are said (namespace Sys2Proof.Claims), then, family
by family, the obligations.
-/
namespace Sys2Proof.Claims

open Machine

/-! ## Words about a bundle -/

/-- The bundle names no thread twice, and the word keeps its field rules for the NREG of each of its threads (R42). -/
structure Issuing (i : Instr) (s : State) : Prop where
  nodup : s.issue.bundle.Nodup
  fields : ∀ r ∈ s.issue.bundle, ∃ n, s.nregOf r = some n ∧ fieldCheck n i = true

/-- A team but for its threads. -/
def bare (tm : Team) : Team := { tm with groups := tm.groups.map fun g => { g with threads := [] } }

/-- Nothing but threads differs: no other field of the state, of a team or of a group. -/
structure OnlyThreads (s t : State) : Prop where
  rest : t = { s with teams := t.teams }
  teams : t.teams.map bare = s.teams.map bare

/-- t is s with f applied to every thread of the bundle, and nothing else differs. -/
structure EachThread (s t : State) (f : Thread → Thread) : Prop where
  only : OnlyThreads s t
  threads : ∀ r, t.thread? r = (s.thread? r).map fun th => if r ∈ s.issue.bundle then f th else th

/-- What a predicated word does to a thread: f, or, predicated off, a zero pushed and nothing else (R45). -/
def guarded (p : BitVec 3) (f : Thread → Thread) (th : Thread) : Thread :=
  if th.pred p.toNat then f th else { th with pushes := th.pushes ++ [0] }

/-- A register takes a value; the model counts the write (R204). -/
def setTo (n : Nat) (v : Word) (th : Thread) : Thread :=
  { th with regs := th.regs.set n v, writes := th.writes.modify n (· + 1) }

/-- A 32-bit result: register d unless W is 1, and the push (R43, R59). -/
def put (w : Bool) (d : BitVec 6) (v : Word) (th : Thread) : Thread :=
  { (if w then th else setTo d.toNat v th) with pushes := th.pushes ++ [v] }

/-- A 64-bit result: the pair at d, low word first, unless W is 1; the low word is pushed (R46, R59). -/
def put64 (w : Bool) (d : BitVec 6) (v : DWord) (th : Thread) : Thread :=
  { (if w then th else setTo (d.toNat + 1) (v.extractLsb' 32 32) (setTo d.toNat (v.extractLsb' 0 32) th)) with
    pushes := th.pushes ++ [v.extractLsb' 0 32] }

/-- A predicate result: predicate q alone changes, and 1 or 0 is pushed (R59). -/
def putPred (q : BitVec 3) (b : Bool) (th : Thread) : Thread :=
  { th with
    preds := if b then th.preds ||| BitVec.ofNat 8 (2 ^ q.toNat) else th.preds &&& ~~~(BitVec.ofNat 8 (2 ^ q.toNat))
    pushes := th.pushes ++ [if b then 1 else 0] }

/-- Flags ORed into %FFLAGS (R26). -/
def flagged (fl : Nat) (th : Thread) : Thread := { th with fflags := th.fflags ||| BitVec.ofNat 32 fl }

/-! ## Integer words -/

/-- A two-source or one-source word of format A. -/
structure WordA where
  w : Bool
  d : BitVec 6
  s : BitVec 7
  t : BitVec 7
  p : BitVec 3

/-- R288 and R292: the word and F(a, b). -/
def twoSource : Instr → Option (WordA × (Word → Word → Word))
  | .iadd _ w d s t p => some (⟨w, d, s, t, p⟩, fun a b => BitVec.ofNat 32 (a.toNat + b.toNat))
  | .isub _ w d s t p => some (⟨w, d, s, t, p⟩, fun a b => BitVec.ofInt 32 ((a.toNat : Int) - b.toNat))
  | .imul _ w d s t p => some (⟨w, d, s, t, p⟩, fun a b => BitVec.ofNat 32 (a.toNat * b.toNat))
  | .imulh _ w d s t p => some (⟨w, d, s, t, p⟩, fun a b => BitVec.ofInt 32 (a.toInt * b.toInt / 2 ^ 32))
  | .imulhu _ w d s t p => some (⟨w, d, s, t, p⟩, fun a b => BitVec.ofNat 32 (a.toNat * b.toNat / 2 ^ 32))
  | .imin _ w d s t p => some (⟨w, d, s, t, p⟩, fun a b => BitVec.ofInt 32 (min a.toInt b.toInt))
  | .imax _ w d s t p => some (⟨w, d, s, t, p⟩, fun a b => BitVec.ofInt 32 (max a.toInt b.toInt))
  | .umin _ w d s t p => some (⟨w, d, s, t, p⟩, fun a b => BitVec.ofNat 32 (min a.toNat b.toNat))
  | .umax _ w d s t p => some (⟨w, d, s, t, p⟩, fun a b => BitVec.ofNat 32 (max a.toNat b.toNat))
  | .and _ w d s t p => some (⟨w, d, s, t, p⟩, fun a b => a &&& b)
  | .or _ w d s t p => some (⟨w, d, s, t, p⟩, fun a b => a ||| b)
  | .xor _ w d s t p => some (⟨w, d, s, t, p⟩, fun a b => a ^^^ b)
  | .andn _ w d s t p => some (⟨w, d, s, t, p⟩, fun a b => a &&& ~~~b)
  | .shl _ w d s t p => some (⟨w, d, s, t, p⟩, fun a b => BitVec.ofNat 32 (a.toNat * 2 ^ (b.toNat % 32)))
  | .shr _ w d s t p => some (⟨w, d, s, t, p⟩, fun a b => BitVec.ofNat 32 (a.toNat / 2 ^ (b.toNat % 32)))
  | .sar _ w d s t p => some (⟨w, d, s, t, p⟩, fun a b => BitVec.ofInt 32 (a.toInt / 2 ^ (b.toNat % 32)))
  | _ => none

/-- Byte i of PRMB's result: byte c[1:0] of a, zero under c[2], its sign spread under c[3] (R292). -/
def permuted (a b : Word) (i : Nat) : BitVec 8 :=
  let c := b.extractLsb' (4 * i) 4
  let x : BitVec 8 := a.extractLsb' (8 * (c.toNat % 4)) 8
  if c.getLsbD 2 then 0x00 else if c.getLsbD 3 then (if x.getLsbD 7 then 0xFF else 0x00) else x

/-- R291, R292 and MOV: the word and its result from a and b. -/
def bitWords : Instr → Option (WordA × (Word → Word → Word))
  | .popc _ w d s p => some (⟨w, d, s, 0, p⟩, fun a _ => BitVec.ofNat 32 ((List.range 32).filter fun k => a.getLsbD k).length)
  | .clz _ w d s p => some (⟨w, d, s, 0, p⟩, fun a _ => BitVec.ofNat 32 (32 - a.toNat.size))
  | .brev _ w d s p => some (⟨w, d, s, 0, p⟩, fun a _ => BitVec.ofFnLE fun k : Fin 32 => a.getLsbD (31 - k))
  | .prmb _ w d s t p => some (⟨w, d, s, t, p⟩, fun a b =>
      (permuted a b 3 ++ permuted a b 2) ++ (permuted a b 1 ++ permuted a b 0))
  | .mov _ w d s p => some (⟨w, d, s, 0, p⟩, fun a _ => a)
  | _ => none

/-- R290 and R295: the 64-bit words and the words that add to their destination, as effects on a thread. -/
def wideWords : Instr → Option (BitVec 3 × (Thread → Thread))
  | .imad _ d s t p => some (p, fun th =>
      put false d (BitVec.ofNat 32 ((th.reg d.toNat).toNat + (th.src s).toNat * (th.src t).toNat)) th)
  | .idot4 _ d s t p => some (p, fun th =>
      let byte (x : Word) (k : Nat) : Int := (x.extractLsb' (8 * k) 8).toInt
      let a := th.src s
      let b := th.src t
      put false d (BitVec.ofInt 32 ((th.reg d.toNat).toInt
        + (byte a 0 * byte b 0 + byte a 1 * byte b 1 + byte a 2 * byte b 2 + byte a 3 * byte b 3))) th)
  | .imadw _ d s t p => some (p, fun th =>
      put64 false d (BitVec.ofInt 64 ((th.pair d.toNat).toInt + (th.src s).toInt * (th.src t).toInt)) th)
  | .iadd64 _ w d s t p => some (p, fun th => put64 w d (BitVec.ofNat 64 ((th.src64 s).toNat + (th.src64 t).toNat)) th)
  | .isub64 _ w d s t p => some (p, fun th =>
      put64 w d (BitVec.ofInt 64 (((th.src64 s).toNat : Int) - (th.src64 t).toNat)) th)
  | .shl64 _ w d s t p => some (p, fun th =>
      put64 w d (BitVec.ofNat 64 ((th.src64 s).toNat * 2 ^ ((th.src t).toNat % 64))) th)
  | .shr64 _ w d s t p => some (p, fun th =>
      put64 w d (BitVec.ofNat 64 ((th.src64 s).toNat / 2 ^ ((th.src t).toNat % 64))) th)
  | _ => none

/-- R296: the condition of a code, a and b as signed and as unsigned numbers. -/
def holdsFor (k : BitVec 3) {n : Nat} (a b : BitVec n) : Prop :=
  match k.toNat with
  | 0 => a.toNat = b.toNat
  | 1 => a.toNat ≠ b.toNat
  | 2 => a.toInt < b.toInt
  | 3 => a.toInt ≤ b.toInt
  | 4 => b.toInt < a.toInt
  | 5 => b.toInt ≤ a.toInt
  | 6 => a.toNat < b.toNat
  | _ => b.toNat ≤ a.toNat

/-- R297: the function of a code. -/
def combined (k : BitVec 3) (x y : Bool) : Bool :=
  match k.toNat with
  | 0 => x && y
  | 1 => x || y
  | 2 => x ^^ y
  | 3 => x && !y
  | 4 => x || !y
  | 5 => !(x && y)
  | 6 => !(x || y)
  | _ => !(x ^^ y)

/-- Compares, SEL and PLOP: the guard, the predicate written and the condition as a proposition about the thread. -/
def compares : Instr → Option (BitVec 3 × BitVec 3 × (Thread → Prop))
  | .icmp _ k q s t p => some (p, q, fun th => holdsFor k (th.src s) (th.src t))
  | .icmp64 _ k q s t p => some (p, q, fun th => holdsFor k (th.src64 s) (th.src64 t))
  | .icmpi _ k q s i => some (0, q, fun th => holdsFor k (th.reg s.toNat) (i.signExtend 32))
  | .plop _ f q x y p => some (p, q, fun th => combined f (th.pred x.toNat) (th.pred y.toNat) = true)
  | _ => none

/-- R298 and R293: the immediate words, which have no guard. -/
def immediates : Instr → Option (Thread → Thread)
  | .addi _ d s i => some fun th => put false d (BitVec.ofInt 32 ((th.reg s.toNat).toInt + i.toInt)) th
  | .muli _ d s i => some fun th => put false d (BitVec.ofInt 32 ((th.reg s.toNat).toInt * i.toInt)) th
  | .andi _ d s i => some fun th => put false d (th.reg s.toNat &&& BitVec.ofNat 32 i.toNat) th
  | .ori _ d s i => some fun th => put false d (th.reg s.toNat ||| BitVec.ofNat 32 i.toNat) th
  | .xori _ d s i => some fun th => put false d (th.reg s.toNat ^^^ BitVec.ofNat 32 i.toNat) th
  | .shli _ d s i => some fun th => put false d (BitVec.ofNat 32 ((th.reg s.toNat).toNat * 2 ^ i.toNat)) th
  | .shri _ d s i => some fun th => put false d (BitVec.ofNat 32 ((th.reg s.toNat).toNat / 2 ^ i.toNat)) th
  | .sari _ d s i => some fun th => put false d (BitVec.ofInt 32 ((th.reg s.toNat).toInt / 2 ^ i.toNat)) th
  | .movk _ d lit => some fun th => put false d lit th
  | .addi64 _ d s i => some fun th => put64 false d (BitVec.ofInt 64 ((th.pair s.toNat).toInt + i.toInt)) th
  | .sel _ w d s t k => some fun th => put w d (if th.pred k.toNat then th.src s else th.src t) th
  | _ => none

/-- The words of R288 to R298 that act on their own thread alone. -/
def integerWord (i : Instr) : Bool :=
  (twoSource i).isSome || (bitWords i).isSome || (wideWords i).isSome || (compares i).isSome || (immediates i).isSome || match i with
    | .iadds .. => true
    | _ => false

end Sys2Proof.Claims

open Sys2Proof Sys2Proof.Machine Sys2Proof.Claims

/-! ## Integer words (R44, R45, R59, R288 to R298) -/

/-- R288: each of the sixteen two-source words completes for every bundle that keeps its field rules, and each thread whose
predicate is true gets F(a, b); predicated-off threads only push zero (R45); nothing else changes. -/
def Sys2Proof.Claims.TwoSourceIntegerWords : Prop :=
  ∀ (i : Instr) (a : WordA) (f : Word → Word → Word) (s : State), twoSource i = some (a, f) → Issuing i s →
    ∃ t, exec i s = .next t ∧ EachThread s t (guarded a.p fun th => put a.w a.d (f (th.src a.s) (th.src a.t)) th)

/-- R291, R292 and MOV. -/
def Sys2Proof.Claims.BitCountAndPermuteWords : Prop :=
  ∀ (i : Instr) (a : WordA) (f : Word → Word → Word) (s : State), bitWords i = some (a, f) → Issuing i s →
    ∃ t, exec i s = .next t ∧ EachThread s t (guarded a.p fun th => put a.w a.d (f (th.src a.s) (th.src a.t)) th)

/-- R289: the sum saturates, and OF is set exactly when it did, also under W = 1. -/
def Obligations.SaturatingAdd : Prop :=
  ∀ (c w : Bool) (d : BitVec 6) (a b : BitVec 7) (p : BitVec 3) (s : State), Issuing (.iadds c w d a b p) s →
    ∃ t, exec (.iadds c w d a b p) s = .next t ∧ EachThread s t (guarded p fun th =>
      let sum := (th.src a).toInt + (th.src b).toInt
      put w d (BitVec.ofInt 32 (max (-2 ^ 31) (min sum (2 ^ 31 - 1))))
        (if sum < -2 ^ 31 ∨ 2 ^ 31 - 1 < sum then { th with fflags := th.fflags ||| 4 } else th))

/-- R290 and the 64-bit words. -/
def Sys2Proof.Claims.WideAndAccumulatingWords : Prop :=
  ∀ (i : Instr) (p : BitVec 3) (f : Thread → Thread) (s : State), wideWords i = some (p, f) → Issuing i s →
    ∃ t, exec i s = .next t ∧ EachThread s t (guarded p f)

/-- R296, R297: a compare or PLOP writes its predicate with the condition's truth and pushes it. -/
def Obligations.ComparesWritePredicates : Prop :=
  ∀ (i : Instr) (p q : BitVec 3) (c : Thread → Prop) (s : State), compares i = some (p, q, c) → Issuing i s →
    ∃ t, exec i s = .next t ∧ OnlyThreads s t ∧ ∀ r th, s.thread? r = some th →
      (r ∉ s.issue.bundle → t.thread? r = some th) ∧
      (r ∈ s.issue.bundle → th.pred p.toNat = false → t.thread? r = some { th with pushes := th.pushes ++ [0] }) ∧
      (r ∈ s.issue.bundle → th.pred p.toNat = true → c th → t.thread? r = some (putPred q true th)) ∧
      (r ∈ s.issue.bundle → th.pred p.toNat = true → ¬ c th → t.thread? r = some (putPred q false th))

/-- The immediate words, MOVK and SEL, which no predicate turns off. -/
def Sys2Proof.Claims.ImmediateWords : Prop :=
  ∀ (i : Instr) (f : Thread → Thread) (s : State), immediates i = some f → Issuing i s →
    ∃ t, exec i s = .next t ∧ EachThread s t f

/-- R45, R59, R288, R290 to R294: the two-source, bit-count, wide, accumulating and immediate words complete for every bundle that keeps
their field rules, with the results of the rules; nothing else changes. -/
def Obligations.IntegerWords : Prop :=
  TwoSourceIntegerWords ∧ BitCountAndPermuteWords ∧ WideAndAccumulatingWords ∧ ImmediateWords

/-- R44: what the 7-bit source codes give an integer operation, code by code. -/
def Obligations.IntegerSourceCodes : Prop :=
  ∀ (th : Thread) (c : BitVec 7),
    (c.toNat < 0x40 → th.src c = th.reg c.toNat) ∧
    (0x40 ≤ c.toNat → c.toNat < 0x44 → th.src c = th.latches.getD (c.toNat - 0x40) 0) ∧
    (0x44 ≤ c.toNat → c.toNat < 0x64 → (th.src c).toInt = c.toNat - 0x44) ∧
    (0x64 ≤ c.toNat → c.toNat < 0x74 → (th.src c).toInt = 0x63 - c.toNat) ∧
    th.src 0x74 = 0x3F000000 ∧ th.src 0x75 = 0x3E800000 ∧ th.src 0x76 = 0xBF000000 ∧ th.src 0x77 = 0x3FB8AA3B ∧
    th.src 0x78 = 0x3F317218 ∧ th.src 0x79 = 0x40490FDB ∧ th.src 0x7A = 0x7F800000 ∧ th.src 0x7B = 0xFF800000 ∧
    th.src 0x7C = 0x7FC00000 ∧ th.src 0x7D = 0x7F7FFFFF ∧ th.src 0x7E = 0x80000000

/-- R42, R45: a thread alone in its bundle for which an integer word breaks a field rule takes ILLEGAL_FIELD, whatever its predicate: its
bit is set in its group, and it leaves the bundle. -/
def Obligations.BrokenFieldRaises : Prop :=
  ∀ (i : Instr) (s : State) (r : ThreadRef) (n : Nat), integerWord i = true →
    s.issue.bundle = [r] → s.nregOf r = some n → fieldCheck n i = false →
      ∃ t, exec i s = .next t ∧ r ∉ t.issue.bundle ∧ (r, cILLEGAL_FIELD) ∈ t.issue.raised ∧
        ∃ g, t.group? r.team (r.tid / 32) = some g ∧ g.causes.getLsbD 0x61 = true

namespace Sys2Proof.Claims

/-! ## Floating-point words -/

/-- A 32-bit result with flags. -/
def putF (w : Bool) (d : BitVec 6) (r : Nat × Nat) (th : Thread) : Thread := put w d (BitVec.ofNat 32 r.1) (flagged r.2 th)

/-- A 64-bit result with flags. -/
def putD (w : Bool) (d : BitVec 6) (r : Nat × Nat) (th : Thread) : Thread := put64 w d (BitVec.ofNat 64 r.1) (flagged r.2 th)

/-- Two halves of a packed operand, low first. -/
def halves (x : Word) : Nat × Nat := ((x.extractLsb' 0 16).toNat, (x.extractLsb' 16 16).toNat)

/-- A packed word of R310: F on element 0 and on element 1, the flags of both ORed. -/
def packed (f : Fmt) (w : Bool) (d : BitVec 6) (s t : BitVec 7) (op : Nat → Nat → Nat → Nat × Nat) (th : Thread) : Thread :=
  let a := halves (th.hsrc f s)
  let b := halves (th.hsrc f t)
  let c := halves (th.reg d.toNat)
  let r0 := op a.1 b.1 c.1
  let r1 := op a.2 b.2 c.2
  putF w d (r0.1 + r1.1 * 2 ^ 16, r0.2 ||| r1.2) th

/-- R306, R310, R311: sums, products and fused forms, each with one rounding in the direction of %FRM. -/
def arithWords : Instr → Option (BitVec 3 × (Thread → Thread))
  | .fadd _ w d s t p => some (p, fun th => putF w d (fadd fmtF32 th.mode (th.fsrc s).toNat (th.fsrc t).toNat) th)
  | .fsub _ w d s t p => some (p, fun th => putF w d (fsub fmtF32 th.mode (th.fsrc s).toNat (th.fsrc t).toNat) th)
  | .fmul _ w d s t p => some (p, fun th => putF w d (fmul fmtF32 th.mode (th.fsrc s).toNat (th.fsrc t).toNat) th)
  | .ffma _ d s t p => some (p, fun th =>
      putF false d (ffma fmtF32 th.mode (th.fsrc s).toNat (th.fsrc t).toNat (th.reg d.toNat).toNat) th)
  | .hadd2 _ w d s t p => some (p, fun th => packed fmtF16 w d s t (fun a b _ => fadd fmtF16 th.mode a b) th)
  | .hmul2 _ w d s t p => some (p, fun th => packed fmtF16 w d s t (fun a b _ => fmul fmtF16 th.mode a b) th)
  | .hfma2 _ d s t p => some (p, fun th => packed fmtF16 false d s t (fun a b c => ffma fmtF16 th.mode a b c) th)
  | .badd2 _ w d s t p => some (p, fun th => packed fmtBF16 w d s t (fun a b _ => fadd fmtBF16 th.mode a b) th)
  | .bmul2 _ w d s t p => some (p, fun th => packed fmtBF16 w d s t (fun a b _ => fmul fmtBF16 th.mode a b) th)
  | .bfma2 _ d s t p => some (p, fun th => packed fmtBF16 false d s t (fun a b c => ffma fmtBF16 th.mode a b c) th)
  | .dadd _ w d s t p => some (p, fun th => putD w d (fadd fmtF64 th.mode (th.dsrc s).toNat (th.dsrc t).toNat) th)
  | .dmul _ w d s t p => some (p, fun th => putD w d (fmul fmtF64 th.mode (th.dsrc s).toNat (th.dsrc t).toNat) th)
  | .dfma _ d s t p => some (p, fun th =>
      putD false d (ffma fmtF64 th.mode (th.dsrc s).toNat (th.dsrc t).toNat (th.pair d.toNat).toNat) th)
  | _ => none

/-- R307, R309, R312: selections, the sign copy and the class masks. -/
def selectWords : Instr → Option (BitVec 3 × (Thread → Thread))
  | .fmin _ w d s t p => some (p, fun th => putF w d (fminmax true (th.fsrc s) (th.fsrc t)) th)
  | .fmax _ w d s t p => some (p, fun th => putF w d (fminmax false (th.fsrc s) (th.fsrc t)) th)
  | .fsgn _ w d s t p => some (p, fun th =>
      put w d ((th.fsrc s &&& 0x7FFFFFFF) ||| (th.fsrc t &&& 0x80000000)) th)
  | .fcmp _ k q s t p => some (p, fun th =>
      putPred q (fcond k.toNat (th.fsrc s) (th.fsrc t)).1 (flagged (fcond k.toNat (th.fsrc s) (th.fsrc t)).2 th))
  | .fclassF32 _ w d s p => some (p, fun th => put w d (BitVec.ofNat 32 (fclass fmtF32 (th.fsrc s).toNat)) th)
  | .fclassF16 _ w d s p => some (p, fun th => put w d (BitVec.ofNat 32 (fclass fmtF16 ((th.src s).extractLsb' 0 16).toNat)) th)
  | .fclassBf16 _ w d s p => some (p, fun th => put w d (BitVec.ofNat 32 (fclass fmtBF16 ((th.src s).extractLsb' 0 16).toNat)) th)
  | .fclassF64 _ w d s p => some (p, fun th => put w d (BitVec.ofNat 32 (fclass fmtF64 (th.dsrc s).toNat)) th)
  | .fclassE4m3 _ w d s p => some (p, fun th => put w d (BitVec.ofNat 32 (fclass fmtE4M3 ((th.src s).extractLsb' 0 8).toNat)) th)
  | .fclassE5m2 _ w d s p => some (p, fun th => put w d (BitVec.ofNat 32 (fclass fmtE5M2 ((th.src s).extractLsb' 0 8).toNat)) th)
  | _ => none

/-- A packing conversion: the new element of k bits enters register d from the top (R313). -/
def packIn (k : Nat) (d : BitVec 6) (r : Nat × Nat) (th : Thread) : Thread :=
  put false d ((th.reg d.toNat >>> k) ||| BitVec.ofNat 32 (r.1 * 2 ^ (32 - k))) (flagged r.2 th)

/-- An integer result of R314 with flags. -/
def putI (w : Bool) (d : BitVec 6) (r : Int × Nat) (th : Thread) : Thread := put w d (BitVec.ofInt 32 r.1) (flagged r.2 th)

/-- R313, R314: the conversions. -/
def convertWords : Instr → Option (BitVec 3 × (Thread → Thread))
  | .cvtI32F32 _ w d s p => some (p, fun th => putF w d (ofInt fmtF32 th.mode (th.src s).toInt) th)
  | .cvtU32F32 _ w d s p => some (p, fun th => putF w d (ofInt fmtF32 th.mode (th.src s).toNat) th)
  | .cvtF32I32 _ w d s p => some (p, fun th =>
      putI w d (toIntV th.mode (-2 ^ 31) (2 ^ 31 - 1) (fdec fmtF32 (th.fsrc s).toNat)) th)
  | .cvtF32U32 _ w d s p => some (p, fun th => putI w d (toIntV th.mode 0 (2 ^ 32 - 1) (fdec fmtF32 (th.fsrc s).toNat)) th)
  | .cvtF32I32Rz _ w d s p => some (p, fun th =>
      putI w d (toIntV 1 (-2 ^ 31) (2 ^ 31 - 1) (fdec fmtF32 (th.fsrc s).toNat)) th)
  | .cvtF32U32Rz _ w d s p => some (p, fun th => putI w d (toIntV 1 0 (2 ^ 32 - 1) (fdec fmtF32 (th.fsrc s).toNat)) th)
  | .cvtF64I32 _ w d s p => some (p, fun th =>
      putI w d (toIntV th.mode (-2 ^ 31) (2 ^ 31 - 1) (fdec fmtF64 (th.dsrc s).toNat)) th)
  | .cvtF64I32Rz _ w d s p => some (p, fun th =>
      putI w d (toIntV 1 (-2 ^ 31) (2 ^ 31 - 1) (fdec fmtF64 (th.dsrc s).toNat)) th)
  | .cvtF32F16 _ d s p => some (p, fun th => packIn 16 d (fconv fmtF32 fmtF16 th.mode (th.fsrc s).toNat) th)
  | .cvtF32Bf16 _ d s p => some (p, fun th => packIn 16 d (fconv fmtF32 fmtBF16 th.mode (th.fsrc s).toNat) th)
  | .cvtF32E4m3 _ d s p => some (p, fun th => packIn 8 d (fconv fmtF32 fmtE4M3 th.mode (th.fsrc s).toNat) th)
  | .cvtF32E5m2 _ d s p => some (p, fun th => packIn 8 d (fconv fmtF32 fmtE5M2 th.mode (th.fsrc s).toNat) th)
  | .cvtF16F32 _ w d s h p => some (p, fun th =>
      putF w d (fconv fmtF16 fmtF32 0 ((th.src s).extractLsb' (if h then 16 else 0) 16).toNat) th)
  | .cvtBf16F32 _ w d s h p => some (p, fun th =>
      putF w d (fconv fmtBF16 fmtF32 0 ((th.src s).extractLsb' (if h then 16 else 0) 16).toNat) th)
  | .cvtE4m3F32 _ w d s j p => some (p, fun th =>
      putF w d (fconv fmtE4M3 fmtF32 0 ((th.src s).extractLsb' (8 * j.toNat) 8).toNat) th)
  | .cvtE5m2F32 _ w d s j p => some (p, fun th =>
      putF w d (fconv fmtE5M2 fmtF32 0 ((th.src s).extractLsb' (8 * j.toNat) 8).toNat) th)
  | .cvtF32F64 _ w d s p => some (p, fun th => putD w d (fconv fmtF32 fmtF64 0 (th.fsrc s).toNat) th)
  | .cvtF64F32 _ w d s p => some (p, fun th => putF w d (fconv fmtF64 fmtF32 th.mode (th.dsrc s).toNat) th)
  | .cvtI32F64 _ w d s p => some (p, fun th => putD w d (ofInt fmtF64 0 (th.src s).toInt) th)
  | _ => none

/-- R315: the special functions. -/
def sfuWords : Instr → Option (BitVec 3 × (Thread → Thread))
  | .sfuRcp _ w d s p => some (p, fun th => putF w d (sfu 0 th.mode (th.fsrc s)) th)
  | .sfuRsq _ w d s p => some (p, fun th => putF w d (sfu 1 th.mode (th.fsrc s)) th)
  | .sfuSqrt _ w d s p => some (p, fun th => putF w d (sfu 2 th.mode (th.fsrc s)) th)
  | .sfuEx2 _ w d s p => some (p, fun th => putF w d (sfu 3 th.mode (th.fsrc s)) th)
  | .sfuLg2 _ w d s p => some (p, fun th => putF w d (sfu 4 th.mode (th.fsrc s)) th)
  | .sfuSin _ w d s p => some (p, fun th => putF w d (sfu 5 th.mode (th.fsrc s)) th)
  | .sfuCos _ w d s p => some (p, fun th => putF w d (sfu 6 th.mode (th.fsrc s)) th)
  | .sfuTanh _ w d s p => some (p, fun th => putF w d (sfu 7 th.mode (th.fsrc s)) th)
  | .sfuSigm _ w d s p => some (p, fun th => putF w d (sfu 8 th.mode (th.fsrc s)) th)
  | _ => none

/-- R317's fold of values into the range state in the pair at d. -/
def folded (d : BitVec 6) (xs : List Word) (th : Thread) : Thread :=
  let r := foldRange (th.reg d.toNat) (th.reg (d.toNat + 1)) xs
  { setTo (d.toNat + 1) r.2 (setTo d.toNat r.1 th) with pushes := th.pushes ++ [r.1] }

/-- R317 to R320: the quantizer words. -/
def quantWords : Instr → Option (BitVec 3 × (Thread → Thread))
  | .qsc4Fold _ d s p | .qsc8Fold _ d s p => some (p, fun th => folded d [th.fsrc s] th)
  | .qsc4Merge _ d s p | .qsc8Merge _ d s p => some (p, fun th => folded d [th.reg s.toNat, th.reg (s.toNat + 1)] th)
  | .qsc4Scale _ w d s p => some (p, fun th =>
      let r := quantScale 15 (th.reg s.toNat) (th.reg (s.toNat + 1))
      put w d (BitVec.ofNat 32 (r.1 + r.2.1 * 2 ^ 16 + 2 ^ 24)) (flagged r.2.2 th))
  | .qsc8Scale _ w d s p => some (p, fun th =>
      let r := quantScale 255 (th.reg s.toNat) (th.reg (s.toNat + 1))
      put w d (BitVec.ofNat 32 (r.1 + r.2.1 * 2 ^ 16)) (flagged r.2.2 th))
  | .qnt4 _ d s t p => some (p, fun th => packIn 4 d (quantCode 15 (th.fsrc s) (th.src t)) th)
  | .qnt8 _ d s t p => some (p, fun th => packIn 8 d (quantCode 255 (th.fsrc s) (th.src t)) th)
  | .dq _ w d s t p => some (p, fun th => putF w d (dqWord (th.src s) (th.src t)) th)
  | _ => none

/-- The rational number of a finite value. -/
def ratOf : FVal → Option ℚ
  | .fin neg m e => some ((if neg then -1 else 1) * (m : ℚ) * (2 : ℚ) ^ e)
  | _ => none

/-- The six formats of R21. -/
def formats : List Fmt := [fmtE4M3, fmtE5M2, fmtF16, fmtBF16, fmtF32, fmtF64]

/-- An FP32 pattern is a NaN. -/
abbrev isNaN32 (a : Word) : Prop := 0x7F800000 < a.toNat % 2 ^ 31

/-- The place of an FP32 pattern, not a NaN, in the order of R307: by sign and magnitude, −0 just below +0. -/
def rank32 (a : Word) : Int := if a.getLsbD 31 then -((a.toNat % 2 ^ 31 : Nat) : Int) - 1 else a.toNat

end Sys2Proof.Claims

/-! ## Floating-point words (R21 to R28, R304 to R320) -/

/-- R306, R310, R311: what the arithmetic words do for every bundle. -/
def Sys2Proof.Claims.FloatArithmeticWords : Prop :=
  ∀ (i : Instr) (p : BitVec 3) (f : Thread → Thread) (s : State), arithWords i = some (p, f) → Issuing i s →
    ∃ t, exec i s = .next t ∧ EachThread s t (guarded p f)

/-- R307, R308, R309, R312. -/
def Sys2Proof.Claims.FloatSelectAndClassWords : Prop :=
  ∀ (i : Instr) (p : BitVec 3) (f : Thread → Thread) (s : State), selectWords i = some (p, f) → Issuing i s →
    ∃ t, exec i s = .next t ∧ EachThread s t (guarded p f)

/-- R306 to R312: the floating-point arithmetic, choosing, comparing and classifying words complete with the rules' results and flags. -/
def Obligations.FloatWords : Prop :=
  FloatArithmeticWords ∧ FloatSelectAndClassWords

/-- R313, R314. -/
def Sys2Proof.Claims.ConversionWords : Prop :=
  ∀ (i : Instr) (p : BitVec 3) (f : Thread → Thread) (s : State), convertWords i = some (p, f) → Issuing i s →
    ∃ t, exec i s = .next t ∧ EachThread s t (guarded p f)

/-- R315, R317 to R320: the special functions and the quantizers complete too, approximate results included. -/
def Sys2Proof.Claims.SpecialFunctionAndQuantizerWords : Prop :=
  ∀ (i : Instr) (p : BitVec 3) (f : Thread → Thread) (s : State), sfuWords i = some (p, f) ∨ quantWords i = some (p, f) →
    Issuing i s → ∃ t, exec i s = .next t ∧ EachThread s t (guarded p f)

/-- R313 to R320: the conversions, the special functions and the quantizers complete, approximate results included. -/
def Obligations.ConvertingAndApproximatingWords : Prop :=
  ConversionWords ∧ SpecialFunctionAndQuantizerWords

/-- R23: a NaN operand of a sum, difference, product or fused form gives the canonical NaN of the format; R24: a signalling one in the first
place of a sum or product sets NV and no other flag. -/
def Obligations.NaNOperandsGiveCanonicalNaN : Prop :=
  ∀ (f : Fmt) (mode a b c : Nat), f ∈ formats →
    (∀ g, fdec f a = .nan g →
      (fadd f mode a b).1 = canonNaN f ∧ (fadd f mode b a).1 = canonNaN f ∧ (fsub f mode a b).1 = canonNaN f ∧
      (fsub f mode b a).1 = canonNaN f ∧ (fmul f mode a b).1 = canonNaN f ∧ (fmul f mode b a).1 = canonNaN f ∧
      (ffma f mode a b c).1 = canonNaN f ∧ (ffma f mode b a c).1 = canonNaN f ∧ (ffma f mode b c a).1 = canonNaN f ∧
      (g = true → (fadd f mode a b).2 = flNV ∧ (fmul f mode a b).2 = flNV)) ∧
    canonNaN fmtE4M3 = 0x7F ∧ canonNaN fmtE5M2 = 0x7E ∧ canonNaN fmtF16 = 0x7E00 ∧ canonNaN fmtBF16 = 0x7FC0 ∧
    canonNaN fmtF32 = 0x7FC00000 ∧ canonNaN fmtF64 = 0x7FF8000000000000

/-- R24, R28: a sum or product of two finite operands whose flags leave NX clear is exact: its code stands for the rational
sum or product. -/
def Obligations.ResultWithoutInexactFlagIsExact : Prop :=
  ∀ (f : Fmt) (mode a b : Nat) (x y : ℚ), f ∈ formats → ratOf (fdec f a) = some x → ratOf (fdec f b) = some y →
    ((fadd f mode a b).2.testBit 0 = false → ratOf (fdec f (fadd f mode a b).1) = some (x + y)) ∧
    ((fmul f mode a b).2.testBit 0 = false → ratOf (fdec f (fmul f mode a b).1) = some (x * y))

/-- R307: FMIN and FMAX: of two numbers the smaller or the larger, by value and a zero with its sign below the positive zero; of a number and
a NaN the number; of two NaNs the canonical one; always a bit copy; NV exactly for a signalling NaN, and no other flag. -/
def Obligations.MinMaxChooseAnOperand : Prop :=
  (∀ (lo : Bool) (a b : Word), let m := fminmax lo a b
    (isNaN32 a → isNaN32 b → m.1 = 0x7FC00000) ∧ (isNaN32 a → ¬ isNaN32 b → m.1 = b.toNat) ∧
    (¬ isNaN32 a → isNaN32 b → m.1 = a.toNat) ∧
    (¬ isNaN32 a → ¬ isNaN32 b → lo = true → m.1 = (if rank32 a ≤ rank32 b then a else b).toNat) ∧
    (¬ isNaN32 a → ¬ isNaN32 b → lo = false → m.1 = (if rank32 a ≤ rank32 b then b else a).toNat) ∧
    m.2 = (if isNaN32 a ∧ a.getLsbD 22 = false ∨ isNaN32 b ∧ b.getLsbD 22 = false then flNV else 0)) ∧
  (∀ (a b : Word) (x y : ℚ), ratOf (fdec fmtF32 a.toNat) = some x → ratOf (fdec fmtF32 b.toNat) = some y → x < y → rank32 a < rank32 b) ∧
  (∀ (c w : Bool) (d : BitVec 6) (a b : BitVec 7) (p : BitVec 3) (s : State),
    (Issuing (.fmin c w d a b p) s → ∃ t, exec (.fmin c w d a b p) s = .next t ∧
      EachThread s t (guarded p fun th => putF w d (fminmax true (th.fsrc a) (th.fsrc b)) th)) ∧
    (Issuing (.fmax c w d a b p) s → ∃ t, exec (.fmax c w d a b p) s = .next t ∧
      EachThread s t (guarded p fun th => putF w d (fminmax false (th.fsrc a) (th.fsrc b)) th)))

/-! # Words that act on more than their own registers -/

namespace Sys2Proof.Claims

/-! ## Words about one thread -/

/-- The bundle is one thread of a team, and the word keeps its field rules for the NREG of the thread's group. -/
structure Alone (i : Instr) (s : State) (r : ThreadRef) (tm : Team) (g : Group) (th : Thread) : Prop where
  bundle : s.issue.bundle = [r]
  team : s.team? r.team = some tm
  group : tm.groups[r.tid / 32]? = some g
  thread : g.threads[r.tid % 32]? = some th
  fields : fieldCheck g.nreg i = true

/-- The same, with the word's predicate true for the thread. -/
structure Acting (i : Instr) (p : Nat) (s : State) (r : ThreadRef) (tm : Team) (g : Group) (th : Thread) : Prop where
  alone : Alone i s r tm g th
  pred : th.pred p = true

/-- No thread is left in the bundle. -/
def emptied (s : State) : State := { s with issue := { s.issue with bundle := [] } }

/-- The thread goes to a place outside any run, its latches zero (R60, R61), and issues no later word of the group. -/
def movedTo (s : State) (r : ThreadRef) (p : Pc) (f : Thread → Thread) : State :=
  emptied (s.updThread r fun th =>
    { f th with
      pc := p, inRun := false, runStart := p, tail := none, latches := [0, 0, 0, 0], pushes := [], before := none, kept := none
      marking := false })

/-- The thread waits at the word. -/
def waiting (s : State) (r : ThreadRef) (w : WaitKind) : State :=
  emptied (s.updThread r fun th => { th with status := .waiting w, pc := s.issue.pc })

/-- The word of four bytes at an address, the lowest address least significant (R20). -/
def word4 (m : Memory) (a : Nat) : Word := (m.read (a + 3) ++ m.read (a + 2)) ++ (m.read (a + 1) ++ m.read a)

/-- What f does to a memory in canonical form: the bytes from a become those of the list, every other byte stands, and the form
is kept. -/
def Stores (f : Memory → Memory) (a : Nat) (bs : List Byte) : Prop :=
  ∀ m, m.wf = true → (f m).wf = true ∧ ∀ x, (f m).read x = if a ≤ x ∧ x < a + bs.length then bs.getD (x - a) 0 else m.read x

/-- The bytes of register words, low byte first. -/
def regBytes (th : Thread) (d k : Nat) : List Byte :=
  (List.range (4 * k)).map fun i => (th.reg (d + i / 4)).extractLsb' (8 * (i % 4)) 8

/-! ## Forms -/

/-- Words of format M with a guard. -/
def formsM : List (Bool → BitVec 6 → BitVec 6 → BitVec 3 → BitVec 9 → Instr) :=
  [.ldb, .ldh, .ldw, .ldd, .ldq, .stb, .sth, .stw, .std, .stq, .lsw, .lsq, .ssw, .ssq]

/-- Global atomics, with their function codes (R329). -/
def formsAmo : List ((Bool → BitVec 6 → BitVec 6 → BitVec 2 → BitVec 3 → BitVec 2 → Instr) × Nat) :=
  [(.amoAdd, 0), (.amoAnd, 1), (.amoOr, 2), (.amoXor, 3), (.amoMin, 4), (.amoMax, 5), (.amoUmin, 6), (.amoUmax, 7),
   (.amoXchg, 8), (.amoCas, 9), (.amoFadd, 10), (.amoBadd2, 11), (.amoAdd64, 12), (.amoXchg64, 13), (.amoCas64, 14)]

/-- Scratch atomics, with their function codes. -/
def formsSamo : List ((Bool → BitVec 6 → BitVec 6 → BitVec 2 → BitVec 3 → BitVec 2 → Instr) × Nat) :=
  [(.samoAdd, 0), (.samoAnd, 1), (.samoOr, 2), (.samoXor, 3), (.samoMin, 4), (.samoMax, 5), (.samoUmin, 6), (.samoUmax, 7),
   (.samoXchg, 8), (.samoCas, 9), (.samoFadd, 10), (.samoBadd2, 11), (.samoAdd64, 12), (.samoXchg64, 13), (.samoCas64, 14)]

/-- Words whose only operand is a register and a guard, or a scope, an object and a register. -/
def formsV : List (Bool → BitVec 6 → BitVec 3 → Instr) :=
  [.sysTrap, .sysCclr, .sysSleep, .sysHaltctx, .nobjCreate, .nobjOpen, .nobjClose, .nobjHand, .nobjDrop, .nobjQuery,
   .nobjMirror, .sendEmark]

/-- SYNC words with a register. -/
def formsSync : List (Bool → BitVec 3 → BitVec 6 → BitVec 6 → BitVec 3 → Instr) :=
  [.syncInit, .syncArrive, .syncWait, .syncArrw, .syncTest, .syncAcq, .syncBind, .syncUnbind, .syncExpect, .syncErr]

/-- Words with a guard and no other operand. -/
def formsP : List (Bool → BitVec 3 → Instr) := [.yield, .sysEret, .sysBkpt, .sysExit, .sysPyld, .fenceOprdy, .fenceTfence]

/-- Words with a 3-bit operand and a guard. -/
def forms3 : List (Bool → BitVec 3 → BitVec 3 → Instr) :=
  [.enrol, .rejoin, .strike, .fenceRel, .fenceAcq, .fenceFull, .taskEos]

/-- Words with a 3-bit operand, a register and a guard. -/
def forms36 : List (Bool → BitVec 3 → BitVec 6 → BitVec 3 → Instr) :=
  [.syncRel, .taskPush, .taskPop, .taskTrypop, .taskDone]

/-- The words with a guard that push nothing, with their guard. -/
inductive Guarded : Instr → Nat → Prop where
  | m (f) (h : f ∈ formsM) (c d a p o) : Guarded (f c d a p o) p.toNat
  | amo (f) (h : f ∈ formsAmo ++ formsSamo) (c d a o sc p) : Guarded (f.1 c d a o sc p) p.toNat
  | lock (f) (h : f = Instr.ldlk ∨ f = Instr.stul) (c d a o sc p) : Guarded (f c d a o sc p) p.toNat
  | cpy (c a s n t) (p : BitVec 3) : Guarded (.cpy c a s n t p) p.toNat
  | bra (f) (h : f = Instr.bra ∨ f = Instr.call) (p i) : Guarded (f p i) p.toNat
  | ret (p : BitVec 3) : Guarded (.ret p) p.toNat
  | jmpr (p : BitVec 3) (v) : Guarded (.jmpr p v) p.toNat
  | v (f) (h : f ∈ formsV) (c v p) : Guarded (f c v p) p.toNat
  | sync (f) (h : f ∈ formsSync) (c sc o v p) : Guarded (f c sc o v p) p.toNat
  | p (f) (h : f ∈ formsP) (c p) : Guarded (f c p) p.toNat
  | three (f) (h : f ∈ forms3) (c j p) : Guarded (f c j p) p.toNat
  | twk (f) (h : f ∈ [Instr.twkLoad, .twkStore, .twkGather, .twkScatteradd]) (c v cc sig p) : Guarded (f c v cc sig p) p.toNat
  | threeSix (f) (h : f ∈ forms36) (c s v p) : Guarded (f c s v p) p.toNat

/-! ## Special registers (R300 to R302) -/

/-- What SRD gives for the registers that hold one number, by number. -/
def specialValue (s : State) (r : ThreadRef) (tm : Team) (g : Group) (th : Thread) (la : Launch) (n : Nat) : Option Nat :=
  match n with
  | 0x000 => some r.tid
  | 0x001 => some (r.tid / 32)
  | 0x002 => some (r.tid % 32)
  | 0x003 => some tm.x
  | 0x004 => some tm.y
  | 0x005 => some tm.z
  | 0x006 => some tm.clx
  | 0x007 => some (la.grid.getD 0 1)
  | 0x008 => some (la.grid.getD 1 1)
  | 0x009 => some (la.grid.getD 2 1)
  | 0x00A => some tm.core
  | 0x00B => some tm.ctx
  | 0x00C => some g.role
  | 0x00D => some (if tm.pad then 1 else 0)
  | 0x010 => some (la.sh.getD 0 0).toNat
  | 0x017 => some (la.sh.getD 7 0).toNat
  | 0x018 => some la.bucket
  | 0x030 => some th.seltag.toNat
  | 0x031 => some th.selg.toNat
  | 0x032 => some g.dqbase.toNat
  | 0x033 => some g.dqlen.toNat
  | 0x034 => some g.dqcnt.toNat
  | 0x038 => some th.fflags.toNat
  | 0x039 => some th.fenable.toNat
  | 0x03A => some th.frm.toNat
  | 0x040 => some (g.causes.toNat % 2 ^ 32)
  | 0x047 => some (g.causes.toNat / 2 ^ 224)
  | 0x048 => some th.ecause.toNat
  | 0x049 => some th.epc.toNat
  | 0x04A => some th.stkp.toNat
  | 0x04B => some th.repc
  | 0x04C => some (min th.ackScr 1023 * 2 ^ 16 + th.ackAll)
  | 0x04D => if (s.core tm.core).preqs.any fun q => q.ctx = tm.ctx && q.req then none else some 0
  | 0x050 => some (la.args.toNat % 2 ^ 32)
  | 0x051 => some (la.args.toNat / 2 ^ 32)
  | _ => none

/-- SWR to a register of a thread: number, the values its map takes, the effect. -/
def threadRegs : List (Nat × (Word → Prop) × (Word → Thread → Thread)) :=
  [(0x030, fun v => v &&& 0xFFFF0000 = 0, fun v th => { th with seltag := v }),
   (0x031, fun _ => True, fun v th => { th with selg := v }),
   (0x038, fun v => v &&& 0xFFFFFF80 = 0, fun v th => { th with fflags := v }),
   (0x039, fun v => v &&& 0xFFFFFF80 = 0, fun v th => { th with fenable := v }),
   (0x03A, fun v => v &&& 0xFFFFFFFC = 0, fun v th => { th with frm := v }),
   (0x048, fun v => v &&& 0xFFFFF000 = 0 ∧ v.toNat / 512 % 4 ≠ 3,
      fun v th => { th with ecause := (th.ecause &&& 0xFFFFF9FF) ||| (v &&& 0x600) }),
   (0x049, fun _ => True, fun v th => { th with epc := v, repc := 0 }),
   (0x04A, fun v => v &&& 0x000C0000 = 0 ∧ v.toNat / 2 ^ 20 % 64 ≤ v.toNat / 2 ^ 26, fun v th => { th with stkp := v })]

/-- SWR to a register of a group. -/
def groupRegs : List (Nat × (Word → Prop) × (Word → Group → Group)) :=
  [(0x032, fun v => v &&& 0xFFE00007 = 0, fun v g => { g with dqbase := v }),
   (0x033, fun v => v &&& 0xFFFF0000 = 0, fun v g => { g with dqlen := v }),
   (0x034, fun v => v &&& 0xFFFF0000 = 0, fun v g => { g with dqcnt := v })]

end Sys2Proof.Claims

/-! ## NOP, guards, special registers -/

/-- R56: NOP changes nothing. -/
def Sys2Proof.Claims.NopDoesNothing : Prop :=
  ∀ (c : Bool) (s : State), Issuing (.nop c) s → exec (.nop c) s = .next s

/-- R45: a memory, control, system, synchronisation, object or task word changes nothing for a bundle whose threads all have
its predicate false. -/
def Sys2Proof.Claims.PredicatedOffDoesNothing : Prop :=
  ∀ (i : Instr) (p : Nat) (s : State), Guarded i p → Issuing i s →
    (∀ r ∈ s.issue.bundle, ∀ th, s.thread? r = some th → th.pred p = false) → exec i s = .next s

/-- R45, R56: NOP changes nothing, and neither does a word of another pipe whose threads all have its predicate false. -/
def Obligations.NopAndPredicatedOffDoNothing : Prop :=
  NopDoesNothing ∧ PredicatedOffDoesNothing

/-- R299 to R302: SRD writes its register with the special register's value and pushes it; nothing else changes.  CYCL
gives the low half of the core's cycle count at the front cycle in which the word issues (off cycles after the issue group began, the
model's own bookkeeping) and latches the high half, which CYCH gives.  That the ten bits of %ACKN.SCR show 1,023 when 1,024 scratch
writes are outstanding is the model's reading (log entry 35). -/
def Sys2Proof.Claims.SrdReadsSpecialRegisters : Prop :=
  ∀ (c : Bool) (d : BitVec 6) (n : BitVec 12) (s : State) (r : ThreadRef) (tm : Team) (g : Group) (th : Thread) (la : Launch),
    Alone (.srd c d n) s r tm g th → s.launch? tm.launch = some la →
      (∀ v, specialValue s r tm g th la n.toNat = some v →
        exec (.srd c d n) s = .next (s.updThread r (put false d (BitVec.ofNat 32 v)))) ∧
      (∀ k, s.ctx? tm.ctx = some k → k.capture = false → k.replay = none →
        let cyc := (s.core tm.core).cyc + s.issue.off
        (n = 0x020 → exec (.srd c d n) s = .next (s.updThread r fun th =>
          put false d (BitVec.ofNat 32 (cyc % 2 ^ 32)) { th with cycSnap := BitVec.ofNat 32 (cyc / 2 ^ 32) })) ∧
        (n = 0x021 → exec (.srd c d n) s = .next (s.updThread r (put false d th.cycSnap))))

/-- R299: SWR writes a register of its thread or its group and nothing else: of %ECAUSE the ESLOT field alone, and %REPC is cleared with
%EPC; a deferral register waits while an MMA of the group is pending; a value that the register's map does not take raises
ILLEGAL_FIELD. -/
def Sys2Proof.Claims.SwrWritesSpecialRegisters : Prop :=
  ∀ (c : Bool) (v : BitVec 6) (n : BitVec 12) (s : State) (r : ThreadRef) (tm : Team) (g : Group) (th : Thread),
    Alone (.swr c v n) s r tm g th →
      let x := th.reg v.toNat
      (∀ q ∈ threadRegs, n.toNat = q.1 → q.2.1 x → exec (.swr c v n) s = .next (s.updThread r (q.2.2 x))) ∧
      (∀ q ∈ groupRegs, n.toNat = q.1 → q.2.1 x →
        ((s.core tm.core).deferPending r.team (r.tid / 32) = false →
          exec (.swr c v n) s = .next (s.updGroup r.team (r.tid / 32) (q.2.2 x))) ∧
        ((s.core tm.core).deferPending r.team (r.tid / 32) = true → exec (.swr c v n) s = .next (waiting s r .deferMma))) ∧
      (∀ q ∈ threadRegs.map (fun q => (q.1, q.2.1)) ++ groupRegs.map (fun q => (q.1, q.2.1)), n.toNat = q.1 → ¬ q.2 x →
        ∃ t, exec (.swr c v n) s = .next t ∧ (r, cILLEGAL_FIELD) ∈ t.issue.raised ∧ t.issue.bundle = [])

/-- R299 to R302: SRD reads and SWR writes the special registers. -/
def Obligations.SpecialRegistersAreReadAndWritten : Prop :=
  SrdReadsSpecialRegisters ∧ SwrWritesSpecialRegisters

/-! ## Control -/

/-- R348: BRA goes to slot 0 of its own packet plus a signed distance, JMPR to the packet in a register; the thread leaves the
issue group and its latches read zero. -/
def Sys2Proof.Claims.BranchesSetThePlace : Prop :=
  ∀ (s : State) (r : ThreadRef) (tm : Team) (g : Group) (th : Thread),
    (∀ (p : BitVec 3) (i : BitVec 21), Acting (.bra p i) p.toNat s r tm g th →
      exec (.bra p i) s = .next (movedTo s r ⟨BitVec.ofInt 32 (s.issue.pc.pkt.toNat + i.toInt), 0⟩ id)) ∧
    (∀ (p : BitVec 3) (v : BitVec 6), Acting (.jmpr p v) p.toNat s r tm g th →
      exec (.jmpr p v) s = .next (movedTo s r ⟨th.reg v.toNat, 0⟩ id))

/-- R349, R350: CALL stores the place after it, as packet and slot in eight bytes, below SP in the team's window, and RET
takes the place stored there; each moves SP and DEPTH by one.  A full or an empty stack raises STACK_OVERFLOW. -/
def Sys2Proof.Claims.CallAndReturn : Prop :=
  ∀ (s : State) (r : ThreadRef) (tm : Team) (g : Group) (th : Thread) (limit depth sp : Nat),
    th.stkp.toNat = limit * 2 ^ 26 + depth * 2 ^ 20 + sp → depth < 64 → sp < 2 ^ 18 → s.coreGone tm.core = false →
      (∀ (p : BitVec 3) (i : BitVec 21), Acting (.call p i) p.toNat s r tm g th →
        (depth < limit → 0 < sp → 8 * sp ≤ tm.scrsz →
          (s.core tm.core).rangeBusy (tm.winBase + 8 * (sp - 1)) 8 = false →
          ∃ (f : Memory → Memory) (next : Pc), exec (.call p i) s = .next (movedTo
              (s.updCore tm.core fun k => { k with scratch := f k.scratch }) r
              ⟨BitVec.ofInt 32 (s.issue.pc.pkt.toNat + i.toInt), 0⟩
              fun th => { th with stkp := BitVec.ofNat 32 (limit * 2 ^ 26 + (depth + 1) * 2 ^ 20 + (sp - 1)) }) ∧
            next = (if s.issue.pc.slot < 2 then ⟨s.issue.pc.pkt, s.issue.pc.slot + 1⟩ else ⟨s.issue.pc.pkt + 1, 0⟩) ∧
            Stores f (tm.winBase + 8 * (sp - 1)) (leBytes (next.pkt.toNat + next.slot * 2 ^ 32) 8)) ∧
        (depth = limit ∨ sp = 0 →
          ∃ t, exec (.call p i) s = .next t ∧ (r, cSTACK_OVERFLOW) ∈ t.issue.raised ∧ t.issue.bundle = [])) ∧
      (∀ p : BitVec 3, Acting (.ret p) p.toNat s r tm g th →
        (∀ (pkt : Word) (slot : Nat), 0 < depth → 8 * sp + 8 ≤ tm.scrsz → slot < 3 → sp + 1 < 2 ^ 18 →
          (s.core tm.core).rangeBusy (tm.winBase + 8 * sp) 8 = false →
          word4 (s.core tm.core).scratch (tm.winBase + 8 * sp) = pkt →
          word4 (s.core tm.core).scratch (tm.winBase + 8 * sp + 4) = BitVec.ofNat 32 slot →
          exec (.ret p) s = .next (movedTo s r ⟨pkt, slot⟩
            fun th => { th with stkp := BitVec.ofNat 32 (limit * 2 ^ 26 + (depth - 1) * 2 ^ 20 + (sp + 1)) })) ∧
        (depth = 0 → ∃ t, exec (.ret p) s = .next t ∧ (r, cSTACK_OVERFLOW) ∈ t.issue.raised ∧ t.issue.bundle = []))

/-- R348 to R350: branches, calls and returns set the place; the call stack lies in the team's window. -/
def Obligations.BranchesCallsAndReturns : Prop :=
  BranchesSetThePlace ∧ CallAndReturn

/-- R88: ENROL adds the lane to its mask.  REJOIN does nothing for a lane that is not enrolled, waits while another enrolled
lane has not arrived, and as the last arrival clears the mask and lets the waiting lanes go on; STRIKE takes the lane
out, and releases the arrived lanes when no other is awaited. -/
def Obligations.RejoinMasks : Prop :=
  ∀ (s : State) (r : ThreadRef) (tm : Team) (g : Group) (th : Thread) (c : Bool) (j p : BitVec 3) (m : RejoinMask),
    g.masks[j.toNat]? = some m → th.grant = none →
      let lane : BitVec 32 := BitVec.ofNat 32 (2 ^ (r.tid % 32))
      let setMask (f : RejoinMask → RejoinMask) : State :=
        s.updGroup r.team (r.tid / 32) fun g => { g with masks := g.masks.modify j.toNat f }
      let freed (t : State) : Prop := t.issue = s.issue ∧ ∀ q u, s.thread? q = some u →
        t.thread? q = some (if q.team = r.team ∧ q.tid / 32 = r.tid / 32 ∧ m.arrived.getLsbD (q.tid % 32) ∧
            u.status = .waiting (.rejoin j.toNat) then { u with status := .ready, grant := some 0 } else u)
      (Acting (.enrol c j p) p.toNat s r tm g th →
        exec (.enrol c j p) s = .next (setMask fun m => { m with enrolled := m.enrolled ||| lane })) ∧
      (Acting (.rejoin c j p) p.toNat s r tm g th →
        (m.enrolled.getLsbD (r.tid % 32) = false → exec (.rejoin c j p) s = .next s) ∧
        (m.enrolled.getLsbD (r.tid % 32) = true → m.arrived ||| lane ≠ m.enrolled →
          exec (.rejoin c j p) s = .next (waiting (setMask fun k => { k with arrived := m.arrived ||| lane }) r (.rejoin j.toNat))) ∧
        (m.enrolled.getLsbD (r.tid % 32) = true → m.arrived ||| lane = m.enrolled → th.status = .ready →
          ∃ t, exec (.rejoin c j p) s = .next t ∧ freed t ∧
            ∃ g', t.group? r.team (r.tid / 32) = some g' ∧ g'.masks = g.masks.set j.toNat ⟨0, 0⟩)) ∧
      (Acting (.strike c j p) p.toNat s r tm g th →
        (m.enrolled.getLsbD (r.tid % 32) = false → exec (.strike c j p) s = .next s) ∧
        (m.enrolled.getLsbD (r.tid % 32) = true → m.enrolled &&& ~~~lane ≠ m.arrived ∨ m.arrived = 0 →
          exec (.strike c j p) s = .next (setMask fun k => { k with enrolled := m.enrolled &&& ~~~lane })) ∧
        (m.enrolled.getLsbD (r.tid % 32) = true → m.enrolled &&& ~~~lane = m.arrived → m.arrived ≠ 0 → th.status = .ready →
          ∃ t, exec (.strike c j p) s = .next t ∧ freed t ∧
            ∃ g', t.group? r.team (r.tid / 32) = some g' ∧ g'.masks = g.masks.set j.toNat ⟨0, 0⟩))

namespace Sys2Proof.Claims

/-- What the first part of taking a cause does (R102, R105): the cause's bit is set in the thread's group, the thread leaves the
bundle, and no other thread, no memory and no register elsewhere changes. -/
structure Taken (s t : State) (r : ThreadRef) (c : Cause) : Prop where
  rest : t = { s with teams := t.teams, cores := t.cores, issue := t.issue }
  cores : t.cores.map (fun k => { k with held := none }) = s.cores.map fun k => { k with held := none }
  issue : t.issue = { s.issue with bundle := s.issue.bundle.filter (· != r), raised := s.issue.raised ++ [(r, c)] }
  others : ∀ q, q ≠ r → t.thread? q = s.thread? q
  groups : ∀ a b, (t.group? a b).map (fun g => { g with threads := [] }) = (s.group? a b).map fun g =>
    { g with threads := [], causes := if a = r.team ∧ b = r.tid / 32 then g.causes ||| BitVec.ofNat 256 (2 ^ c.toNat) else g.causes }

/-- Where the run that holds a thread begins, or its own place (R111). -/
def runHead (th : Thread) : Pc := if th.inRun then th.runStart else th.pc

/-- R111: %EPC and %ECAUSE of handler entry: CAUSE in bits 7:0, INREC in bit 8, ESLOT in bits 10:9, ACTIVE in bit 11. -/
def entryWord (c : Cause) (inrec : Bool) (slot : Nat) : Word :=
  BitVec.ofNat 32 (c.toNat + (if inrec then 256 else 0) + 512 * slot + 2048)

/-- A thread after handler entry (R111), its issue group undone (R60); with INREC the record past its first entry is held aside. -/
def entered (h : Word) (c : Cause) (inrec : Bool) (th : Thread) : Thread :=
  { th.rollback with
    pc := ⟨h, 0⟩, inRun := false, runStart := ⟨h, 0⟩, tail := none, latches := [0, 0, 0, 0], pushes := [], before := none,
    kept := none, marking := false
    status := .ready, epc := (runHead th).pkt, ecause := entryWord c inrec (runHead th).slot
    record := if inrec then [] else th.record
    recCause := if inrec then 0 else th.recCause
    aside := if inrec then th.record.tail else th.aside }

/-- A thread after it has left its run, its issue group undone (R60). -/
def outOfRun (th : Thread) : Thread :=
  { th.rollback with
    pc := if th.inRun then th.tail.getD th.runStart else th.pc
    inRun := false, tail := none, latches := [0, 0, 0, 0], pushes := [], marking := false }

/-- In t a thread stands where it left its run; one that waits at its word is READY to issue it again. -/
def LeftRun (t : State) (r : ThreadRef) (th : Thread) : Prop :=
  ∃ u, t.thread? r = some u ∧ u = { outOfRun th with status := u.status } ∧ (th.status = .ready → u.status = .ready)

/-- The delivery that a cause gets for a thread (R103, R104, R109): PARK, HANDLER, KILL or FREEZE by the mode table; HANDLER turns
into KILL without a handler or inside one. -/
def deliveryOf (s : State) (tm : Team) (th : Thread) (c : Cause) : Nat :=
  let m := s.modeOf tm c
  if m = 1 ∧ (s.handlerOf tm = 0xFFFFFFFF ∨ th.ecause.getLsbD 11 = true) then 2 else min m 3

/-- A team that has been killed (R109): every thread EXITED, no record, no open object, one more killed team of its launch. -/
structure Killed (s t : State) (tm : Team) (c : Cause) : Prop where
  threads : ∀ q u, q.team = tm.id → t.thread? q = some u → u.status = .exited ∧ u.record = [] ∧ u.grant = none
  team : ∀ x, t.team? tm.id = some x → x.state = .killing ∧ x.opens = []
  launch : ∀ la, s.launch? tm.launch = some la → ∃ lb, t.launch? tm.launch = some lb ∧ lb.killed = la.killed + 1
  locks : ∀ k ∈ t.cores, ∀ l ∈ k.locks, l.holder.team ≠ tm.id
  record : ∀ la, s.launch? tm.launch = some la → ∃ bs, t.killRecs = s.killRecs ++ [(la.fn, la.q, bs)] ∧ bs.length = 64 ∧
    bs.getD 0 0 = 1 ∧ bs.getD 1 0 = c
  memory : t.mem = s.mem ∧ t.hostMem = s.hostMem

end Sys2Proof.Claims

/-! ## Causes, handlers, traps -/

/-- R102 to R112: what becomes of a thread on which a cause is raised, for each of the four deliveries. -/
def Sys2Proof.Claims.CausesAreDelivered : Prop :=
  ∀ (s : State) (r : ThreadRef) (tm : Team) (g : Group) (th : Thread) (c : Cause) (inrec : Bool),
    s.team? r.team = some tm → tm.groups[r.tid / 32]? = some g → g.threads[r.tid % 32]? = some th →
      let t := s.deliver r c inrec
      (deliveryOf s tm th c = 0 → Taken s t r c ∧
        t.thread? r = some { outOfRun th with status := .parked c, parkedAt := (s.core tm.core).cyc }) ∧
      (deliveryOf s tm th c = 1 → Taken s t r c ∧ t.thread? r = some (entered (s.handlerOf tm) c inrec th)) ∧
      (deliveryOf s tm th c = 2 → tm.state ≠ .killing → tm.state ≠ .ended → Killed s t tm c ∧ r ∉ t.issue.bundle) ∧
      (∀ k, deliveryOf s tm th c = 3 → s.ctx? tm.ctx = some k → k.state = .running →
        r ∉ t.issue.bundle ∧ LeftRun t r th ∧
        ∃ k', t.ctx? tm.ctx = some k' ∧ k'.state = .frozen ∧ k'.before = .running) ∧
      (c = cPAGE_PROT → deliveryOf s tm th c = 3)

/-- R358: TRAP n raises cause 0xC0 + n, by whatever mode that cause has. -/
def Sys2Proof.Claims.TrapRaisesItsCause : Prop :=
  ∀ (s : State) (r : ThreadRef) (tm : Team) (g : Group) (th : Thread) (c : Bool) (n : BitVec 6) (p : BitVec 3),
    Acting (.sysTrap c n p) p.toNat s r tm g th → ∃ (t : State) (v : Cause), exec (.sysTrap c n p) s = .next t ∧
      v.toNat = 0xC0 + n.toNat ∧ t = s.deliver r v false ∧
      (deliveryOf s tm th v = 1 → Taken s t r v ∧ t.thread? r = some (entered (s.handlerOf tm) v false th)) ∧
      (deliveryOf s tm th v = 0 → Taken s t r v ∧
        t.thread? r = some { outOfRun th with status := .parked v, parkedAt := (s.core tm.core).cyc })

/-- R102 to R112, R358: the four deliveries of a cause, and TRAP, which raises one. -/
def Obligations.CausesAndTraps : Prop :=
  CausesAreDelivered ∧ TrapRaisesItsCause

/-- R112: ERET inside a handler goes to the place in %EPC and ESLOT, clears ACTIVE and INREC, and puts the entries held aside
back in the record; outside one it raises PRIV. -/
def Sys2Proof.Claims.EretReturns : Prop :=
  ∀ (s : State) (r : ThreadRef) (tm : Team) (g : Group) (th : Thread) (c : Bool) (p : BitVec 3),
    Acting (.sysEret c p) p.toNat s r tm g th →
      (th.ecause.getLsbD 11 = true → exec (.sysEret c p) s = .next (emptied (s.updThread r fun th =>
        let back : Pc := ⟨th.epc, th.ecause.toNat / 512 % 4⟩
        { th with
          pc := back, inRun := false, runStart := back, tail := none, latches := [0, 0, 0, 0], pushes := [], before := none,
          kept := none, marking := false
          ecause := th.ecause &&& 0xFFFFF6FF
          record := th.aside ++ th.record, recCause := 0, aside := [] }))) ∧
      (th.ecause.getLsbD 11 = false → ∃ t, exec (.sysEret c p) s = .next t ∧ (r, cPRIV) ∈ t.issue.raised ∧ t.issue.bundle = [])

/-- A cause inside which %EPC and %ECAUSE stand as entry left them: entry and ERET bring the thread back to the head of the run it
was taken from, with its registers, predicates and record as they were before the issue group that met the cause (R60, R111, R112). -/
def Sys2Proof.Claims.EntryThenReturnRestores : Prop :=
  ∀ (h : Word) (c : Cause) (inrec : Bool) (old : Thread), let th := old.rollback
    (runHead th).slot < 3 → (inrec = false → th.aside = []) →
    let u := (old.enterHandler h c inrec).leaveHandler
    u.pc = runHead th ∧ u.inRun = false ∧ u.regs = th.regs ∧ u.preds = th.preds ∧ u.latches = [0, 0, 0, 0] ∧
    u.inHandler = false ∧ u.record = (if inrec then th.record.tail else th.record) ∧ u.fflags = th.fflags ∧
    u.fenable = th.fenable ∧ u.frm = th.frm ∧ u.stkp = th.stkp ∧ u.seltag = th.seltag ∧ u.selg = th.selg

/-- R111, R112: ERET, and that entry followed by it brings a thread back. -/
def Obligations.HandlersReturn : Prop :=
  EretReturns ∧ EntryThenReturnRestores

/-- R115, R106, R362: BKPT asks its group to stop only while a debugger is attached to the context; CCLR clears its cause's bit
unless a thread of the group is parked on it, or holds a record whose head met it (the model's reading, log entry 78); HALTCTX needs a SYS launch, else it raises PRIV, and freezes the context. -/
def Obligations.DebugAndSystemWords : Prop :=
  ∀ (s : State) (r : ThreadRef) (tm : Team) (g : Group) (th : Thread) (c : Bool) (v : BitVec 6) (p : BitVec 3),
    (Acting (.sysBkpt c p) p.toNat s r tm g th → exec (.sysBkpt c p) s =
      .next (if tm.ctx ∈ s.debuggers then s.updGroup r.team (r.tid / 32) fun g => { g with stopReq := true } else s)) ∧
    (Acting (.sysCclr c v p) p.toNat s r tm g th →
      let k := (th.reg v.toNat).toNat % 256
      ((∃ u ∈ g.threads, u.status = .parked (BitVec.ofNat 8 k) ∨ (u.record ≠ [] ∧ u.recCause = BitVec.ofNat 8 k)) →
        exec (.sysCclr c v p) s = .next s) ∧
      ((∀ u ∈ g.threads, u.status ≠ .parked (BitVec.ofNat 8 k) ∧ (u.record = [] ∨ u.recCause ≠ BitVec.ofNat 8 k)) →
        exec (.sysCclr c v p) s = .next (s.updGroup r.team (r.tid / 32) fun g =>
          { g with causes := g.causes &&& ~~~(BitVec.ofNat 256 (2 ^ k)) }))) ∧
    (Acting (.sysHaltctx c v p) p.toNat s r tm g th → ∀ la k, s.launch? tm.launch = some la → s.ctx? tm.ctx = some k →
      (la.recd.sys = false → ∃ t, exec (.sysHaltctx c v p) s = .next t ∧ (r, cPRIV) ∈ t.issue.raised ∧ t.issue.bundle = []) ∧
      (la.recd.sys = true → k.state = .running → ∃ t, exec (.sysHaltctx c v p) s = .next t ∧ t.issue.bundle = [] ∧
        LeftRun t r th ∧ (∃ k', t.ctx? tm.ctx = some k' ∧ k'.state = .frozen ∧ k'.before = .running) ∧
        ∃ n ∈ t.notices, n.args = [tm.ctx, r.team, r.tid, (th.reg v.toNat).toNat]))

/-! ## Waits and ends -/

/-- R352, R361, R336, R124: YIELD waits 16 front cycles and SLEEP the count in its register, at most 2^24; a wait that has ended
is taken and the thread goes on; SLEEP of 0, or under a request, does not wait.  PYLD stops the thread at the next word while
a request is pending, and does nothing otherwise.  CPW goes on when at most n copies of its tag are pending. -/
def Obligations.WaitsByTimeAndCount : Prop :=
  ∀ (s : State) (r : ThreadRef) (tm : Team) (g : Group) (th : Thread) (c : Bool) (v : BitVec 6) (p : BitVec 3) (n : BitVec 2),
    let now := (s.core s.issue.core).cyc
    let asked := ∃ q ∈ (s.core tm.core).preqs, q.ctx = tm.ctx ∧ q.req = true
    let taken := s.updThread r fun th => { th with grant := none }
    (Acting (.yield c p) p.toNat s r tm g th →
      (th.grant = none → exec (.yield c p) s = .next (waiting s r (.timer false (now + 16)))) ∧
      (th.grant ≠ none → exec (.yield c p) s = .next taken)) ∧
    (Acting (.sysSleep c v p) p.toNat s r tm g th →
      let k := (th.reg v.toNat).toNat
      (k = 0 ∨ (asked ∧ th.grant = none) → exec (.sysSleep c v p) s = .next s) ∧
      (k ≠ 0 → ¬ asked → th.grant = none →
        exec (.sysSleep c v p) s = .next (waiting s r (.timer true (now + min k (2 ^ 24))))) ∧
      (k ≠ 0 → th.grant ≠ none → exec (.sysSleep c v p) s = .next taken)) ∧
    (Acting (.sysPyld c p) p.toNat s r tm g th →
      (¬ asked → exec (.sysPyld c p) s = .next s) ∧
      (asked → exec (.sysPyld c p) s = .next (movedTo s r
        (if s.issue.pc.slot < 2 then ⟨s.issue.pc.pkt, s.issue.pc.slot + 1⟩ else ⟨s.issue.pc.pkt + 1, 0⟩)
        fun th => { th with status := .yielded }))) ∧
    (Acting (.cpw c n v) 0 s r tm g th →
      let left := th.cnt.getD n.toNat 0
      (v.toNat < left → exec (.cpw c n v) s = .next (waiting s r (.cpw n.toNat v.toNat))) ∧
      (left ≤ v.toNat → th.copyFault = false → exec (.cpw c n v) s = .next s) ∧
      (left ≤ v.toNat → th.copyFault = true →
        ∃ t, exec (.cpw c n v) s = .next t ∧ (r, cCOPY_FAULT) ∈ t.issue.raised ∧ t.issue.bundle = []))

/-- R360, R101: EXIT, its earlier writes all answered and no mirror to write, ends the thread: EXITED, out of the bundle, out of
every rejoin mask, its lock bits free.  While its team has another thread that is not EXITED, and no thread of the group waits at
a mask, a collective or a full-group word, no other thread changes; the last thread's exit ends the team. -/
def Obligations.ExitEndsThreadAndTeam : Prop :=
  ∀ (s : State) (r : ThreadRef) (tm : Team) (g : Group) (th : Thread) (c : Bool) (p : BitVec 3),
    Acting (.sysExit c p) p.toNat s r tm g th → th.ackAll = 0 → th.nackPending = false → s.remoteLoads r = false →
      s.dirtyBlocks tm = [] → tm.state = .resident → g.masks.length = 8 → (∀ h ∈ tm.groups, h.threads.length = 32) →
      (∀ u ∈ g.threads, ∀ w, u.status = .waiting w → (∀ j, w ≠ .rejoin j) ∧ (∀ m q, w ≠ .collective m q) ∧ ∀ q, w ≠ .fullGroup q) →
      ((∃ q u, q.team = r.team ∧ q ≠ r ∧ s.thread? q = some u ∧ u.status ≠ .exited) →
        ∃ t u, exec (.sysExit c p) s = .next t ∧ t.issue.bundle = [] ∧ t.thread? r = some u ∧ u.status = .exited ∧
          u.regs = th.rollback.regs ∧ (∀ q, q ≠ r → t.thread? q = s.thread? q) ∧
          (∀ k ∈ t.cores, ∀ l ∈ k.locks, l.holder ≠ r) ∧ t.mem = s.mem ∧ t.hostMem = s.hostMem ∧ t.launches = s.launches ∧
          ∃ g', t.group? r.team (r.tid / 32) = some g' ∧ ∀ m ∈ g'.masks, m.enrolled.getLsbD (r.tid % 32) = false) ∧
      ((∀ q u, q.team = r.team → q ≠ r → s.thread? q = some u → u.status = .exited) →
        ∃ t tm', exec (.sysExit c p) s = .next t ∧ t.team? r.team = some tm' ∧ tm'.state = .ended ∧ tm'.opens = [] ∧
          (∀ la, s.launch? tm.launch = some la → ∃ lb, t.launch? tm.launch = some lb ∧ lb.endedTeams = la.endedTeams + 1) ∧
          ((∀ k, s.ctx? tm.ctx = some k → k.state = .running) → t.mem = s.mem ∧ t.hostMem = s.hostMem))

/-- R104: a cause in HANDLER mode whose launch has no handler, or whose thread is inside a handler already, ends the team, and the kill
record and the group's bitmap name the cause that was raised. -/
def Obligations.HandlerModeWithoutHandlerKills : Prop :=
  ∀ (s : State) (r : ThreadRef) (tm : Team) (g : Group) (th : Thread) (c : Cause) (inrec : Bool),
    s.team? r.team = some tm → tm.groups[r.tid / 32]? = some g → g.threads[r.tid % 32]? = some th →
      s.modeOf tm c = 1 → s.handlerOf tm = 0xFFFFFFFF ∨ th.ecause.getLsbD 11 = true → tm.state ≠ .killing → tm.state ≠ .ended →
        Killed s (s.deliver r c inrec) tm c ∧
        ∀ g', (s.deliver r c inrec).group? r.team (r.tid / 32) = some g' → g'.causes.getLsbD c.toNat = true

/-! # Memory words -/

namespace Sys2Proof.Claims

/-- The 64-bit address of a global access of format M (R322). -/
def globalAddress (s : State) (th : Thread) (a : BitVec 6) (off : BitVec 9) (n : Nat) : DWord :=
  BitVec.ofInt 64 ((th.pair a.toNat).toNat + (off.toInt + s.issue.bump) * n)

/-- The scratch address of a scratch access of format M (R326). -/
def scratchAddress (s : State) (th : Thread) (a : BitVec 6) (off : BitVec 9) (n : Nat) : Word :=
  BitVec.ofInt 32 ((th.reg a.toNat).toNat + (off.toInt + s.issue.bump) * n)

/-- The access reaches a home by the first translation the core or its die holds, with no walk (R214, R215, R217): nothing holds
the address back, and the entry permits the access. -/
structure Reaches (s : State) (tm : Team) (va : Nat) (kind : AccKind) (h : Home) : Prop where
  canonical : va < 2 ^ 56
  free : s.vaHeld tm.ctx va = false
  entry : ∃ e, s.tlbHit tm.core tm.ctx va false = some e ∧ ptePermits kind e.pte = true ∧
    (kind.writes = true → pteDirty e.pte = true) ∧ s.leafHome tm.core tm.ctx va kind e.level e.pte = .home h

/-- A byte at a home of the package or of the host. -/
def homeByte (s : State) (h : Home) (k : Nat) : Byte :=
  match h with
  | .dev pa => s.mem.read (pa + k)
  | .host a => s.hostMem.read (a + k)
  | _ => 0

/-- A home in package or host memory. -/
def Home.isMemory : Home → Prop
  | .dev _ | .host _ => True
  | _ => False

/-- The registers that n loaded bytes give (R326): whole words, or one word zero-extended. -/
def loadedWords (byte : Nat → Byte) (n : Nat) : List Word :=
  if n = 1 then [(0 : BitVec 24) ++ byte 0]
  else if n = 2 then [(0 : BitVec 16) ++ (byte 1 ++ byte 0)]
  else (List.range (n / 4)).map fun k => (byte (4 * k + 3) ++ byte (4 * k + 2)) ++ (byte (4 * k + 1) ++ byte (4 * k))

/-- Only what L1, the store queues, the loads in flight and the Sluice counters hold has changed, whether answers under way still fill
a line of L1, and threads. -/
structure OnlyQueues (s t : State) : Prop where
  rest : t = { s with cores := t.cores, dies := t.dies, teams := t.teams, remotes := t.remotes }
  remotes : t.remotes.map (fun q => { q with fills := false }) = s.remotes.map fun q => { q with fills := false }
  dies : ∀ d, ({ t.die d with counts := [] } : Die) = { s.die d with counts := [] }
  teams : t.teams.map bare = s.teams.map bare
  cores : ∀ c, ({ t.core c with l1 := [], storeq := [], loads := [] } : Core) =
    { s.core c with l1 := [], storeq := [], loads := [] }

/-- An uncorrectable error has lost the 64-byte line at a home (R102). -/
def LineLost (s : State) (h : Home) : Prop := ∃ pa, h = .dev pa ∧ pa / 64 ∈ s.ecc

/-- No copy of the thread has still to read global memory (R206). -/
def NoCopies (s : State) (core : Nat) (r : ThreadRef) : Prop := ∀ k ∈ (s.core core).copies, k.ref ≠ r

/-- One more write awaits an acknowledgement: at a home of the package, of the host, or in another core's scratch (R196). -/
def counted (h : Home) (th : Thread) : Thread :=
  match h with
  | .dev _ => { th with ackAll := th.ackAll + 1, ackPkg := th.ackPkg + 1 }
  | .scratch _ _ => { th with ackAll := th.ackAll + 1, ackScr := th.ackScr + 1 }
  | _ => { th with ackAll := th.ackAll + 1 }

/-- R329: the 32-bit functions of two integer operands. -/
def amo32 (fn : Nat) (old v w : Word) : Word :=
  match fn with
  | 0 => BitVec.ofNat 32 (old.toNat + v.toNat)
  | 1 => old &&& v
  | 2 => old ||| v
  | 3 => old ^^^ v
  | 4 => BitVec.ofInt 32 (min old.toInt v.toInt)
  | 5 => BitVec.ofInt 32 (max old.toInt v.toInt)
  | 6 => BitVec.ofNat 32 (min old.toNat v.toNat)
  | 7 => BitVec.ofNat 32 (max old.toNat v.toNat)
  | 8 => v
  | 9 => if old = v then w else old
  | 10 => BitVec.ofNat 32 (fadd fmtF32 0 old.toNat v.toNat).1
  | _ =>
    let half (k : Nat) : Nat := (fadd fmtBF16 0 (old.toNat / 2 ^ k % 2 ^ 16) (v.toNat / 2 ^ k % 2 ^ 16)).1
    BitVec.ofNat 32 (half 16 * 2 ^ 16 + half 0)

/-- R329: the 64-bit functions. -/
def amo64 (fn : Nat) (old v w : DWord) : DWord :=
  match fn with
  | 12 => BitVec.ofNat 64 (old.toNat + v.toNat)
  | 13 => v
  | _ => if old = v then w else old

/-- The bytes an atomic leaves, from the bytes there and the operand registers from d. -/
def amoResult (fn : Nat) (old : Nat → Byte) (th : Thread) (d : Nat) : List Byte :=
  let w (k : Nat) : Word := (old (4 * k + 3) ++ old (4 * k + 2)) ++ (old (4 * k + 1) ++ old (4 * k))
  if 12 ≤ fn then leBytes (amo64 fn (w 1 ++ w 0) (th.pair d) (th.pair (d + 2))).toNat 8
  else leBytes (amo32 fn (w 0) (th.reg d) (th.reg (d + 1))).toNat 4

/-- Bytes an atomic acts on. -/
def amoBytesOf (fn : Nat) : Nat := if 12 ≤ fn then 8 else 4

/-- The dirty blocks of mirrored objects after a scratch write of n bytes at an offset of a core (R177): exactly the 256-byte
blocks it touched are new. -/
def MarksDirty (s t : State) (core o n : Nat) : Prop :=
  t.objs.length = s.objs.length ∧ ∀ (k : Nat) (ob : Obj), s.objs[k]? = some ob → ∃ ob' : Obj, t.objs[k]? = some ob' ∧
    ob' = { ob with dirty := ob'.dirty } ∧
    ∀ b, b ∈ ob'.dirty ↔ b ∈ ob.dirty ∨ (ob.holder = core ∧ ob.mirror.isSome = true ∧ 256 * b < ob.size ∧
      ob.base + 256 * b < o + n ∧ o < ob.base + 256 * (b + 1) ∧ o < ob.base + ob.size)

end Sys2Proof.Claims

/-! ## Scratch -/

/-- R323, R324: a scratch address names the team's own window, a member's window, or an object that the team has open; an address
with a reserved bit, with a member but no remote bit, or past the end of the window raises SCRATCH_RANGE, and one on a lost core MEMORY_LOST.  The window of a member that is swapped out or
being saved is waited for (the model's reading, log entry 11). -/
def Obligations.ScratchAddressesResolve : Prop :=
  ∀ (s : State) (tm : Team) (off n : Nat), 0 < n → off < 2 ^ 21 → s.coreGone tm.core = false →
    (s.resolveScratch tm (BitVec.ofNat 32 off) n =
      if off + n ≤ tm.scrsz then .at_ tm.core (tm.winBase + off) false else .cause cSCRATCH_RANGE) ∧
    (∀ high, 0 < high → high < 32 →
      s.resolveScratch tm (BitVec.ofNat 32 (off + high * 2 ^ 27)) n = .cause cSCRATCH_RANGE) ∧
    (∀ mem, 0 < mem → mem < 16 → s.resolveScratch tm (BitVec.ofNat 32 (off + mem * 2 ^ 21)) n = .cause cSCRATCH_RANGE) ∧
    (s.resolveScratch tm (BitVec.ofNat 32 (off + 2 ^ 26)) n =
      if ∃ ob ∈ s.objs, ob.ctx = tm.ctx ∧ ob.holder = tm.core ∧ (ob.state = .resident ∨ ob.state = .moving) ∧
          ob.base ≤ off ∧ off + n ≤ ob.base + ob.size ∧ ∃ o ∈ tm.opens, o.name = ob.name ∧ o.lost = false ∧ o.handed = false
      then .at_ tm.core off false else .cause cSCRATCH_RANGE) ∧
    (∀ la mem, s.launch? tm.launch = some la → mem < 16 →
      (la.recd.shx * la.recd.shy ≤ mem →
        s.resolveScratch tm (BitVec.ofNat 32 (off + mem * 2 ^ 21 + 2 ^ 25)) n = .cause cSCRATCH_RANGE) ∧
      (mem < la.recd.shx * la.recd.shy → mem = tm.clx →
        s.resolveScratch tm (BitVec.ofNat 32 (off + mem * 2 ^ 21 + 2 ^ 25)) n =
          s.resolveScratch tm (BitVec.ofNat 32 off) n) ∧
      (∀ cl, mem < la.recd.shx * la.recd.shy → mem ≠ tm.clx → s.cluster? tm.launch tm.cix = some cl →
        let far := cl.origin + mem % la.recd.shx + 8 * (mem / la.recd.shx)
        let to_ (obj : Nat) := s.resolveScratch tm (BitVec.ofNat 32 (off + mem * 2 ^ 21 + 2 ^ 25 + obj * 2 ^ 26)) n
        let there (x : Team) : Prop := x.launch = tm.launch ∧ x.cix = tm.cix ∧ x.clx = mem
        (s.coreGone far = true → to_ 0 = .cause cMEMORY_LOST ∧ to_ 1 = .cause cMEMORY_LOST) ∧
        (s.coreGone far = false →
          (to_ 1 = if ∃ ob ∈ s.objs, ob.ctx = tm.ctx ∧ ob.holder = far ∧ (ob.state = .resident ∨ ob.state = .moving) ∧
              ob.base ≤ off ∧ off + n ≤ ob.base + ob.size ∧ ∃ o ∈ tm.opens, o.name = ob.name ∧ o.lost = false ∧ o.handed = false
            then .at_ far off true else .cause cSCRATCH_RANGE) ∧
          ((∀ x ∈ s.teams, ¬ there x) → to_ 0 = .cause cSCRATCH_RANGE) ∧
          (∀ x ∈ s.teams, there x → (∀ y ∈ s.teams, there y → y = x) →
            to_ 0 = if x.state = .ended ∨ x.scrsz < off + n then .cause cSCRATCH_RANGE
              else if x.state = .resident ∨ x.state = .killing then .at_ far (x.winBase + off) true
              else .wait))))

/-- R327: LSW and LSQ take the bytes at their address into their registers, as a load in flight; nothing else changes. -/
def Sys2Proof.Claims.ScratchLoads : Prop :=
  ∀ q ∈ [(Instr.lsw, 4), (Instr.lsq, 16)], ∀ (c : Bool) (d a : BitVec 6) (p : BitVec 3) (off : BitVec 9) (s : State)
    (r : ThreadRef) (tm : Team) (g : Group) (th : Thread) (core o : Nat) (remote : Bool),
    Acting (q.1 c d a p off) p.toNat s r tm g th → th.record = [] →
      (¬ q.2 ∣ (scratchAddress s th a off q.2).toNat →
        ∃ t, exec (q.1 c d a p off) s = .next t ∧ (r, cALIGN) ∈ t.issue.raised ∧ t.issue.bundle = []) ∧
      (q.2 ∣ (scratchAddress s th a off q.2).toNat →
        s.resolveScratch tm (scratchAddress s th a off q.2) q.2 = .at_ core o remote →
        (if remote then (s.core tm.core).remoteBusy core o q.2 else (s.core core).rangeBusy o q.2) = false →
        exec (q.1 c d a p off) s = .next (s.updCore tm.core fun k => { k with
          loads := k.loads ++ [⟨r, d.toNat, loadedWords (fun i => (s.core core).scratch.read (o + i)) q.2, none, none, none, none⟩] }))

/-- R327: SSW and SSQ write their registers at their address: at once on the own core, and as a counted write in the store queue
toward another core.  Every byte outside the stored ones stands, and of the objects only the dirty blocks change. -/
def Sys2Proof.Claims.ScratchStores : Prop :=
  ∀ q ∈ [(Instr.ssw, 4), (Instr.ssq, 16)], ∀ (c : Bool) (d a : BitVec 6) (p : BitVec 3) (off : BitVec 9) (s : State)
    (r : ThreadRef) (tm : Team) (g : Group) (th : Thread) (core o : Nat),
    Acting (q.1 c d a p off) p.toNat s r tm g th → th.record = [] →
      let sa := scratchAddress s th a off q.2
      let data := regBytes th d.toNat (q.2 / 4)
      (¬ q.2 ∣ sa.toNat →
        ∃ t, exec (q.1 c d a p off) s = .next t ∧ (r, cALIGN) ∈ t.issue.raised ∧ t.issue.bundle = []) ∧
      (q.2 ∣ sa.toNat → s.resolveScratch tm sa q.2 = .at_ core o false → (s.core core).rangeBusy o q.2 = false →
        ∃ (t : State) (f : Memory → Memory), exec (q.1 c d a p off) s = .next t ∧ Stores f o data ∧ MarksDirty s t core o q.2 ∧
          { t with objs := s.objs } = s.updCore core fun k => { k with scratch := f k.scratch }) ∧
      (q.2 ∣ sa.toNat → s.resolveScratch tm sa q.2 = .at_ core o true → th.ackAll < 1024 →
        ∃ t, exec (q.1 c d a p off) s = .next t ∧ MarksDirty s t core o q.2 ∧
          { t with objs := s.objs } = (s.updCore tm.core fun k => { k with
              storeq := k.storeq ++ [⟨r, tm.ctx, sa.toNat, .scratch core o, data, false, none⟩] }).updThread r
            (counted (.scratch core o)))

/-- R323 to R327: scratch loads and stores. -/
def Obligations.ScratchLoadsAndStores : Prop :=
  ScratchLoads ∧ ScratchStores

/-! ## Global memory -/

/-- R102, R193, R322, R326, R327: the five loads, and the two non-faulting loads when their page is at hand (R218, R328): the bytes at the
home go into flight toward the registers (and the predicate), where no line of L1 holds them and the core has no write
queued; a line that an uncorrectable error has lost raises ECC_UNCORR. -/
def Sys2Proof.Claims.GlobalLoads : Prop :=
  (∀ q ∈ [(Instr.ldb, 1), (Instr.ldh, 2), (Instr.ldw, 4), (Instr.ldd, 8), (Instr.ldq, 16)],
    ∀ (c : Bool) (d a : BitVec 6) (p : BitVec 3) (off : BitVec 9) (s : State) (r : ThreadRef) (tm : Team) (g : Group)
      (th : Thread) (h : Home),
      Acting (q.1 c d a p off) p.toNat s r tm g th → th.record = [] →
        let va := (globalAddress s th a off q.2).toNat
        (¬ q.2 ∣ va → ∃ t, exec (q.1 c d a p off) s = .next t ∧ (r, cALIGN) ∈ t.issue.raised ∧ t.issue.bundle = []) ∧
        (q.2 ∣ va → Reaches s tm va .load h → Home.isMemory h → h.addr % 64 = va % 64 → (s.core tm.core).storeq = [] →
          (∀ ln ∈ (s.core tm.core).l1, ¬ (ln.ctx = tm.ctx ∧ ln.va = va / 64 * 64)) →
          (LineLost s h → ∃ t, exec (q.1 c d a p off) s = .next t ∧ (r, cECC_UNCORR) ∈ t.issue.raised ∧ t.issue.bundle = []) ∧
          (¬ LineLost s h → ∃ t, exec (q.1 c d a p off) s = .next t ∧ OnlyQueues s t ∧ t.teams = s.teams ∧
            (t.core tm.core).loads = (s.core tm.core).loads ++
              [⟨r, d.toNat, loadedWords (homeByte s h) q.2, none, none, none, none⟩]))) ∧
  (∀ q ∈ [(Instr.ldwn, 4), (Instr.ldqn, 16)],
    ∀ (c : Bool) (d a : BitVec 6) (k : BitVec 3) (off : BitVec 9) (s : State) (r : ThreadRef) (tm : Team) (g : Group)
      (th : Thread) (h : Home),
      Alone (q.1 c d a k off) s r tm g th → th.record = [] →
        let va := (globalAddress s th a off q.2).toNat
        (q.2 ∣ va → Reaches s tm va .load h → Home.isMemory h → h.addr % 64 = va % 64 → (s.core tm.core).storeq = [] →
          (∀ ln ∈ (s.core tm.core).l1, ¬ (ln.ctx = tm.ctx ∧ ln.va = va / 64 * 64)) → ¬ LineLost s h →
          ∃ t, exec (q.1 c d a k off) s = .next t ∧ OnlyQueues s t ∧ t.teams = s.teams ∧
            (t.core tm.core).loads = (s.core tm.core).loads ++
              [⟨r, d.toNat, loadedWords (homeByte s h) q.2, some (k.toNat, true), none, none, none⟩]) ∧
        (q.2 ∣ va → va < 2 ^ 56 → s.vaHeld tm.ctx va = false → s.tlbHit tm.core tm.ctx va false = none →
          ∃ t, exec (q.1 c d a k off) s = .next t ∧ t.teams = s.teams ∧ t.mem = s.mem ∧
            (t.core tm.core).loads = (s.core tm.core).loads ++
              [⟨r, d.toNat, List.replicate (q.2 / 4) 0, some (k.toNat, false), none, none, none⟩]))

/-- R193, R196, R327: the five stores put their bytes at the tail of the core's store queue and count one write that awaits its
acknowledgement; memory itself changes only when the queue performs it. -/
def Sys2Proof.Claims.GlobalStores : Prop :=
  ∀ q ∈ [(Instr.stb, 1), (Instr.sth, 2), (Instr.stw, 4), (Instr.std, 8), (Instr.stq, 16)],
    ∀ (c : Bool) (d a : BitVec 6) (p : BitVec 3) (off : BitVec 9) (s : State) (r : ThreadRef) (tm : Team) (g : Group)
      (th : Thread) (h : Home),
      Acting (q.1 c d a p off) p.toNat s r tm g th → th.record = [] →
        let va := (globalAddress s th a off q.2).toNat
        (¬ q.2 ∣ va → ∃ t, exec (q.1 c d a p off) s = .next t ∧ (r, cALIGN) ∈ t.issue.raised ∧ t.issue.bundle = []) ∧
        (q.2 ∣ va → Reaches s tm va .store h → Home.isMemory h → th.ackAll < 1024 → NoCopies s tm.core r →
          ∃ t, exec (q.1 c d a p off) s = .next t ∧ OnlyQueues s t ∧ t.teams = (s.updThread r (counted h)).teams ∧
            (t.core tm.core).loads = (s.core tm.core).loads ∧
            (t.core tm.core).storeq = (s.core tm.core).storeq ++
              [⟨r, tm.ctx, va, h, (regBytes th d.toNat ((q.2 + 3) / 4)).take q.2, false, none⟩])

/-- R57, R193, R194, R322, R325, R326, R328: global loads, non-faulting loads and stores. -/
def Obligations.GlobalLoadsAndStores : Prop :=
  GlobalLoads ∧ GlobalStores

/-- R329, R330: a relaxed global atomic acts at its home at once: the old value goes into flight toward its registers, the new one
stands in memory, every other byte of memory stands, and one write is counted. -/
def Obligations.GlobalAtomics : Prop :=
  ∀ q ∈ formsAmo, ∀ (c : Bool) (d a : BitVec 6) (sc : BitVec 3) (p : BitVec 2) (s : State) (r : ThreadRef) (tm : Team) (g : Group)
    (th : Thread) (h : Home),
    Acting (q.1 c d a 0 sc p) p.toNat s r tm g th → th.record = [] →
      let n := amoBytesOf q.2
      let va := (th.pair a.toNat).toNat
      (¬ n ∣ va → ∃ t, exec (q.1 c d a 0 sc p) s = .next t ∧ (r, cALIGN) ∈ t.issue.raised ∧ t.issue.bundle = []) ∧
      (n ∣ va → Reaches s tm va .store h → Home.isMemory h → th.ackAll < 1024 → NoCopies s tm.core r → s.ecc = [] →
        (s.core tm.core).storeq = [] →
        (∀ k ∈ s.dies, k.replicas = []) → s.mem.wf = true → s.hostMem.wf = true →
        ∃ t, exec (q.1 c d a 0 sc p) s = .next t ∧
          OnlyQueues s { t with mem := s.mem, hostMem := s.hostMem } ∧ t.teams = (s.updThread r (counted h)).teams ∧
          (t.core tm.core).storeq = [] ∧
          (t.core tm.core).loads = (s.core tm.core).loads ++
            [⟨r, d.toNat, loadedWords (homeByte s h) n, none, some (match h with | .dev _ => .pkg | _ => .host), none, some va⟩] ∧
          let new := amoResult q.2 (homeByte s h) th d.toNat
          ∀ x, t.mem.read x = (match h with
              | .dev pa => if pa ≤ x ∧ x < pa + n then new.getD (x - pa) 0 else s.mem.read x
              | _ => s.mem.read x) ∧
            t.hostMem.read x = (match h with
              | .host b => if b ≤ x ∧ x < b + n then new.getD (x - b) 0 else s.hostMem.read x
              | _ => s.hostMem.read x))

/-! ## Locks and copies -/

/-- R196, R331, R332: on the own core, each counted until its answer lands, a relaxed SAMO changes its bytes and returns the old ones; LDLK loads and takes the lock bit of
its address; STUL stores and frees the bit its thread holds; STUL without the bit, and SAMO or LDLK by its holder, raise
LOCK_NEST; a bit that another thread holds makes the word wait. -/
def Obligations.ScratchAtomicsAndLocks : Prop :=
  ∀ (c : Bool) (d a : BitVec 6) (sc : BitVec 3) (p : BitVec 2) (s : State) (r : ThreadRef) (tm : Team) (g : Group) (th : Thread)
    (core o : Nat), th.record = [] →
    let sa := th.reg a.toNat
    let lock (o : Nat) : Nat × Nat := (o / 8 % 64, (sa.toNat / 2 ^ 9 % 8) ^^^ (sa.toNat / 2 ^ 12 % 8) ^^^
      (sa.toNat / 2 ^ 15 % 8) ^^^ (sa.toNat / 2 ^ 18 % 8))
    let free (n : Nat) : Prop := n ∣ sa.toNat ∧ s.resolveScratch tm sa n = .at_ core o false ∧ (s.core core).rangeBusy o n = false
    let old (i : Nat) : Byte := (s.core core).scratch.read (o + i)
    let holder := s.lockHolder core (lock o)
    let answer (u : State) (d : Nat) (ws : List Word) : State := (u.updCore tm.core fun k =>
      { k with loads := k.loads ++ [⟨r, d, ws, none, some .host, none, none⟩] }).updThread r fun th => { th with ackAll := th.ackAll + 1 }
    (∀ q ∈ formsSamo, Acting (q.1 c d a 0 sc p) p.toNat s r tm g th →
      let n := amoBytesOf q.2
      (free n → holder = none → th.ackAll < 1024 → ∃ (t : State) (f : Memory → Memory), exec (q.1 c d a 0 sc p) s = .next t ∧
        Stores f o (amoResult q.2 old th d.toNat) ∧ MarksDirty s t core o n ∧
        { t with objs := s.objs } =
          answer (s.updCore core fun k => { k with scratch := f k.scratch }) d.toNat (loadedWords old n)) ∧
      (free n → holder = some r →
        ∃ t, exec (q.1 c d a 0 sc p) s = .next t ∧ (r, cLOCK_NEST) ∈ t.issue.raised ∧ t.issue.bundle = []) ∧
      (∀ x, free n → holder = some x → x ≠ r → exec (q.1 c d a 0 sc p) s = .next (waiting s r .lock))) ∧
    (Acting (.ldlk c d a 0 sc p) p.toNat s r tm g th → free 4 →
      (holder = none → s.locksHeld r < 4 → th.ackAll < 1024 → exec (.ldlk c d a 0 sc p) s =
        .next (answer (s.updCore core fun k => { k with locks := ⟨(lock o).1, (lock o).2, r⟩ :: k.locks }) d.toNat
          (loadedWords old 4))) ∧
      (∀ x, holder = some x → x ≠ r → s.locksHeld r < 4 → exec (.ldlk c d a 0 sc p) s = .next (waiting s r .lock)) ∧
      (holder = some r ∨ 4 ≤ s.locksHeld r →
        ∃ t, exec (.ldlk c d a 0 sc p) s = .next t ∧ (r, cLOCK_NEST) ∈ t.issue.raised ∧ t.issue.bundle = [])) ∧
    (Acting (.stul c d a 0 sc p) p.toNat s r tm g th → free 4 →
      (holder = some r → th.ackAll < 1024 → ∃ (t : State) (f : Memory → Memory), exec (.stul c d a 0 sc p) s = .next t ∧
        Stores f o (regBytes th d.toNat 1) ∧ MarksDirty s t core o 4 ∧
        { t with objs := s.objs } = answer (s.updCore core fun k => { k with
          scratch := f k.scratch, locks := k.locks.filter fun l => !(l.bank = (lock o).1 && l.ix = (lock o).2) }) 0 []) ∧
      (holder ≠ some r →
        ∃ t, exec (.stul c d a 0 sc p) s = .next t ∧ (r, cLOCK_NEST) ∈ t.issue.raised ∧ t.issue.bundle = []))

/-- R334, R338: CPY of 32 bytes to the team's own scratch is counted under its tag and takes a scoreboard range of its own; the byte
count saturates to 0..32.  A misaligned address raises ALIGN, a remote one SCRATCH_RANGE. -/
def Obligations.CopiesStart : Prop :=
  ∀ (c : Bool) (a v n : BitVec 6) (tag : BitVec 2) (p : BitVec 3) (s : State) (r : ThreadRef) (tm : Team) (g : Group)
    (th : Thread) (core o k : Nat), Acting (.cpy c a v n tag p) p.toNat s r tm g th → th.record = [] →
    let ga := th.pair a.toNat
    let sa := th.reg v.toNat
    (¬ (4 ∣ ga.toNat ∧ 32 ∣ sa.toNat) →
      ∃ t, exec (.cpy c a v n tag p) s = .next t ∧ (r, cALIGN) ∈ t.issue.raised ∧ t.issue.bundle = []) ∧
    (4 ∣ ga.toNat → 32 ∣ sa.toNat → sa.getLsbD 25 = true →
      ∃ t, exec (.cpy c a v n tag p) s = .next t ∧ (r, cSCRATCH_RANGE) ∈ t.issue.raised ∧ t.issue.bundle = []) ∧
    (4 ∣ ga.toNat → 32 ∣ sa.toNat → sa.getLsbD 25 = false → s.resolveScratch tm sa 32 = .at_ core o false →
      th.cnt.getD tag.toNat 0 = k → k < 63 → (∀ q ∈ (s.core core).ranges, q.cpy = false) →
      (s.core core).rangeBusy o 32 = false → (s.core core).ranges.length < 32 →
      ∃ t, exec (.cpy c a v n tag p) s = .next t ∧
        t = { s with cores := t.cores, teams := t.teams } ∧
        t.teams = (s.updThread r fun th => { th with cnt := th.cnt.set tag.toNat (k + 1) }).teams ∧
        (∀ x, x ≠ core → t.core x = s.core x) ∧
        t.core core = { s.core core with
          ranges := ⟨o, 32, 1, true⟩ :: (s.core core).ranges
          copies := (s.core core).copies ++
            [⟨r, tag.toNat, ga, o, (max 0 (min (th.reg n.toNat).toInt 32)).toNat, none, false, none, [], false⟩] })

/-! # Synchronisation, fences, collectives -/

namespace Sys2Proof.Claims

/-- The thread's earlier accesses are all performed, none was refused, and no mirror waits to be written: a release at any scope
does nothing (R195, R197). -/
structure Settled (s : State) (r : ThreadRef) (tm : Team) (th : Thread) : Prop where
  acks : th.ackAll = 0 ∧ th.ackScr = 0 ∧ th.ackPkg = 0
  nack : th.nackPending = false
  queue : s.writesQueued r = false
  remote : s.remoteLoads r = false
  mirrors : s.dirtyBlocks tm = []

/-- A token has passed (R183). -/
def PassedBy (phase : Nat) (t : Word) : Prop :=
  t.toNat < 2 ^ 31 ∧ ∃ d, 1 ≤ d ∧ d < 2 ^ 30 ∧ (t.toNat + d) % 2 ^ 31 = phase % 2 ^ 31

/-- A token is invalid (R183): its top bit is set, or it is not at most 2^30 - 1 phases old. -/
def InvalidFor (phase : Nat) (t : Word) : Prop :=
  2 ^ 31 ≤ t.toNat ∨ ∃ d, 2 ^ 30 ≤ d ∧ d < 2 ^ 31 ∧ (t.toNat + d) % 2 ^ 31 = phase % 2 ^ 31

/-- An object's phase has just completed (R184). -/
def stepped (ob : SyncObj) : SyncObj := { ob with phase := (ob.phase + 1) % 2 ^ 31, arr := 0, xtra := 0 }

/-- A core's answers under way fill no line of its L1 any more, so that a later load asks again (R198). -/
def unfilled (core : Nat) (s : State) : State :=
  { s with remotes := s.remotes.map fun q => if q.core = core then { q with fills := false } else q }

/-- Only L1 lines and lines under way, the register v of the thread and its grant have changed, and no line that overlaps one of the
ranges is left in the thread's core (R198). -/
structure AcquiredWith (s t : State) (r : ThreadRef) (tm : Team) (ranges : List (DWord × Nat)) (v : BitVec 6) (x : Word) (wait : Bool) :
    Prop where
  rest : t = { s with cores := t.cores, teams := t.teams, remotes := (unfilled tm.core s).remotes }
  teams : t.teams = (s.updThread r fun th => { setTo v.toNat x th with grant := if wait then none else th.grant,
                                                                        kept := if wait then none else th.kept }).teams
  cores : ∀ c, ({ t.core c with l1 := [] } : Core) = { s.core c with l1 := [] }
  lines : ∀ ln, ln ∈ (t.core tm.core).l1 ↔ ln ∈ (s.core tm.core).l1 ∧ (ln.ctx = tm.ctx → ∀ q ∈ ranges, q.2 ≠ 0 →
    q.1.toNat + q.2 ≤ ln.va ∨ ln.va + 64 ≤ q.1.toNat)

/-- What a release at a scope waits for (R195): the answers of remote loads and atomics, and of the writes that the scope names; from
cluster scope on the thread's writes have left the store queue as well (the model's reading of R201, log entry 73). -/
def Unperformed (s : State) (r : ThreadRef) (th : Thread) (scope : Nat) : Prop :=
  s.remoteLoads r = true ∨ match scope with
    | 0 | 1 => False
    | 2 => th.ackScr ≠ 0 ∨ s.writesQueued r = true
    | 3 | 4 => th.ackPkg ≠ 0 ∨ th.ackScr ≠ 0 ∨ s.writesQueued r = true
    | _ => th.ackAll ≠ 0

/-- The flags of %FFLAGS, by bit, and the cause of each, in ascending order of cause (R27). -/
def flagCause : List (Nat × Cause) := [(4, 0x40), (3, 0x41), (2, 0x42), (1, 0x43), (0, 0x44), (5, 0x46), (6, 0x47)]

/-- The causes that a TFENCE raises for a thread: a refused write's, and those of the flags that are set and enabled (R114). -/
def fenceCauses (th : Thread) : List Cause :=
  (if th.nackPending then [cSTORE_NACK] else []) ++
    (flagCause.filter fun q => th.fflags.getLsbD q.1 && th.fenable.getLsbD q.1).map Prod.snd

/-- The word raised a cause for the thread. -/
def Raised (i : Instr) (s : State) (r : ThreadRef) (c : Cause) : Prop :=
  ∃ t, exec i s = .next t ∧ (r, c) ∈ t.issue.raised ∧ t.issue.bundle = []

/-- Lanes a mask names, ascending. -/
def lanes (m : Word) : List Nat := (List.range 32).filter fun l => m.getLsbD l

/-- R354: the rank a shuffle reads, from its own rank and the number in register d. -/
def sourceRank (fn rank k : Nat) : Int :=
  match fn with
  | 0 => k
  | 1 => (rank : Int) - k
  | 2 => (rank : Int) + k
  | _ => ((rank ^^^ k : Nat) : Int)

/-- What a collective gives the member of a rank: ls are the members' lanes, xs the values of register s, ks those of d. -/
abbrev Gives := List Nat → List Word → List Word → Nat → Word → Prop

/-- R354. -/
def shuffled (fn : Nat) : Gives := fun _ xs ks rank v =>
  let k := sourceRank fn rank (ks.getD rank 0).toNat
  v = if 0 ≤ k ∧ k < xs.length then xs.getD k.toNat 0 else xs.getD rank 0

/-- R355: one number for all members. -/
def reduced (p : List Word → Word → Prop) : Gives := fun _ xs _ _ v => p xs v

/-- The collectives (R353 to R355). -/
def collectives : List ((Bool → BitVec 6 → BitVec 6 → BitVec 6 → Instr) × Gives) :=
  [(.shflIdx, shuffled 0), (.shflUp, shuffled 1), (.shflDn, shuffled 2), (.shflXor, shuffled 3),
   (.voteAll, reduced fun xs v => v = if ∀ x ∈ xs, x ≠ 0 then 1 else 0),
   (.voteAny, reduced fun xs v => v = if ∃ x ∈ xs, x ≠ 0 then 1 else 0),
   (.voteBallot, fun ls xs _ _ v => ∀ l < 32, v.getLsbD l = true ↔ ∃ k, ls[k]? = some l ∧ xs.getD k 0 ≠ 0),
   (.voteEq, reduced fun xs v => v = if ∀ x ∈ xs, ∀ y ∈ xs, x = y then 1 else 0),
   (.reduxAdd, reduced fun xs v => v = BitVec.ofNat 32 (xs.map BitVec.toNat).sum),
   (.reduxMin, reduced fun xs v => v ∈ xs ∧ ∀ x ∈ xs, v.toInt ≤ x.toInt),
   (.reduxMax, reduced fun xs v => v ∈ xs ∧ ∀ x ∈ xs, x.toInt ≤ v.toInt),
   (.reduxUmin, reduced fun xs v => v ∈ xs ∧ ∀ x ∈ xs, v.toNat ≤ x.toNat),
   (.reduxUmax, reduced fun xs v => v ∈ xs ∧ ∀ x ∈ xs, x.toNat ≤ v.toNat),
   (.reduxAnd, reduced fun xs v => ∀ k < 32, v.getLsbD k = xs.all fun x => x.getLsbD k),
   (.reduxOr, reduced fun xs v => ∀ k < 32, v.getLsbD k = xs.any fun x => x.getLsbD k),
   (.reduxXor, reduced fun xs v => ∀ k < 32, v.getLsbD k = ((xs.countP fun x => x.getLsbD k) % 2 == 1)),
   (.match, fun ls xs _ rank v => ∀ l < 32, v.getLsbD l = true ↔ ∃ k, ls[k]? = some l ∧ xs.getD k 0 = xs.getD rank 0)]

end Sys2Proof.Claims

/-! ## SYNC -/

/-- R183, R184: INIT, BIND, UNBIND, ERR and EXPECT set their fields of the object; a value outside its range, and every word but INIT on
an UNINIT object, raises SYNC_ERROR. -/
def Obligations.SyncObjectsAreSetUp : Prop :=
  ∀ (s : State) (r : ThreadRef) (tm : Team) (g : Group) (th : Thread) (c : Bool) (sc p : BitVec 3) (o v : BitVec 6) (ob : SyncObj),
    s.syncObj tm o.toNat = ob → o.toNat < 48 →
      let x := (th.reg v.toNat).toNat
      (Acting (.syncInit c sc o v p) p.toNat s r tm g th →
        (x = 0 ∨ 2 ^ 31 ≤ x → Raised (.syncInit c sc o v p) s r cSYNC_ERROR) ∧
        (0 < x → x < 2 ^ 31 →
          (ob.state = .uninit → exec (.syncInit c sc o v p) s =
            .next (s.setSync tm o.toNat { ob with state := .active, exp := x, phase := 0 })) ∧
          (ob.state = .error → exec (.syncInit c sc o v p) s =
            .next (s.setSync tm o.toNat { ob with state := .active, exp := x, arr := 0, xtra := 0, ecode := 0 })) ∧
          (ob.state = .active → ob.arr ≠ 0 → Raised (.syncInit c sc o v p) s r cSYNC_ERROR) ∧
          (ob.state = .active → ob.arr = 0 → (∀ q u m w, s.thread? q = some u → u.status = .waiting (.sync m w) → m ≠ o.toNat) →
            exec (.syncInit c sc o v p) s = .next (s.setSync tm o.toNat { ob with exp := x })))) ∧
      (∀ f ∈ formsSync.tail ++ [fun c s o _ p => Instr.syncRel c s o p], Acting (f c sc o v p) p.toNat s r tm g th →
        ob.state = .uninit → Raised (f c sc o v p) s r cSYNC_ERROR) ∧
      (ob.state ≠ .uninit →
        (Acting (.syncBind c sc o v p) p.toNat s r tm g th →
          let base := th.pair v.toNat
          let len := th.reg (v.toNat + 2)
          let k := (th.reg (v.toNat + 3)).toNat
          (64 ∣ base.toNat → 64 ∣ len.toNat → k ≤ 3 → exec (.syncBind c sc o v p) s =
            .next (s.setSync tm o.toNat { ob with ranges := ob.ranges.set k (base, len.toNat) })) ∧
          (¬ (64 ∣ base.toNat ∧ 64 ∣ len.toNat ∧ k ≤ 3) → Raised (.syncBind c sc o v p) s r cSYNC_ERROR)) ∧
        (Acting (.syncUnbind c sc o v p) p.toNat s r tm g th →
          (3 < x → Raised (.syncUnbind c sc o v p) s r cSYNC_ERROR) ∧
          (∀ q, x ≤ 3 → ob.ranges[x]? = some q → exec (.syncUnbind c sc o v p) s =
            .next (s.setSync tm o.toNat { ob with ranges := ob.ranges.set x (q.1, 0) }))) ∧
        (Acting (.syncExpect c sc o v p) p.toNat s r tm g th →
          (x = 0 ∨ 65535 < x ∨ 2 ^ 32 ≤ ob.xtra + x → Raised (.syncExpect c sc o v p) s r cSYNC_ERROR) ∧
          (0 < x → x ≤ 65535 → ob.xtra + x < 2 ^ 32 → ob.state = .active → ob.arr ≠ ob.exp + (ob.xtra + x) →
            exec (.syncExpect c sc o v p) s = .next (s.setSync tm o.toNat { ob with xtra := ob.xtra + x })) ∧
          (0 < x → x ≤ 65535 → ob.xtra + x < 2 ^ 32 → ob.state = .error → exec (.syncExpect c sc o v p) s = .next s)) ∧
        (Acting (.syncErr c sc o v p) p.toNat s r tm g th →
          (x = 0 ∨ 256 ≤ x → Raised (.syncErr c sc o v p) s r cSYNC_ERROR) ∧
          (0 < x → x < 256 → o.toNat < 32 → o.toNat < tm.syncs.length → ob.state = .active → ∃ t tm', exec (.syncErr c sc o v p) s = .next t ∧
            t.team? tm.id = some tm' ∧
            t.syncObj tm' o.toNat = { stepped ob with state := .error, ecode := BitVec.ofNat 8 x } ∧ t.mem = s.mem)))

/-- R184, R195, R198: ARRIVE and REL, their release satisfied: the arrival counts, the register takes the phase before it, and the last
expected arrival completes the phase. -/
def Obligations.SyncArrivals : Prop :=
  ∀ (s : State) (r : ThreadRef) (tm : Team) (g : Group) (th : Thread) (c : Bool) (sc p : BitVec 3) (o v : BitVec 6) (ob : SyncObj),
    s.syncObj tm o.toNat = ob → o.toNat < 48 → Settled s r tm th →
      let took (t : State) : State := t.updThread r (setTo v.toNat (BitVec.ofNat 32 ob.phase))
      (Acting (.syncArrive c sc o v p) p.toNat s r tm g th →
        (ob.state = .active → ob.arr + 1 ≠ ob.exp + ob.xtra →
          exec (.syncArrive c sc o v p) s = .next (took (s.setSync tm o.toNat { ob with arr := ob.arr + 1 }))) ∧
        (ob.state = .error → exec (.syncArrive c sc o v p) s = .next (took (s.setSync tm o.toNat ob))) ∧
        (o.toNat < 32 → o.toNat < tm.syncs.length → ob.state = .active → ob.arr + 1 = ob.exp + ob.xtra → ob.phase < 2 ^ 31 →
          ∃ t tm', exec (.syncArrive c sc o v p) s = .next t ∧ t.team? tm.id = some tm' ∧
            t.syncObj tm' o.toNat = stepped ob ∧ t.issue = s.issue ∧ t.mem = s.mem ∧ t.hostMem = s.hostMem ∧
            ∀ q u, s.thread? q = some u → q ≠ r → ∃ u', t.thread? q = some u' ∧
              (∀ w, q.team = tm.id → u.status = .waiting (.sync o.toNat w) → PassedBy (ob.phase + 1) w →
                u' = { u with status := .ready, grant := some (u.grant.getD 0) }) ∧
              ((∀ w, u.status ≠ .waiting (.sync o.toNat w)) → u' = u))) ∧
      (Acting (.syncRel c sc o p) p.toNat s r tm g th → ob.state ≠ .uninit → exec (.syncRel c sc o p) s = .next s)

/-- R183, R184, R198: WAIT, ARRW, TEST and ACQ: a passed token gives 0 and an object in ERROR its cause, with an acquire of the bound
ranges (none for TEST); a token that has not passed makes WAIT and ARRW wait, their acquire to cover what is bound when the wait begins; an invalid one raises
SYNC_ERROR.  An ARRW of a thread that arrived before it restarted only waits, on the token it took then (the model's reading of R117 and R131,
log entry 59). -/
def Obligations.SyncWaits : Prop :=
  ∀ (s : State) (r : ThreadRef) (tm : Team) (g : Group) (th : Thread) (c : Bool) (sc p : BitVec 3) (o v : BitVec 6) (ob : SyncObj),
    s.syncObj tm o.toNat = ob → o.toNat < 48 → ob.state ≠ .uninit →
      let w := th.reg v.toNat
      let waits (t : Word) : State := waiting (s.updThread r fun th => { th with bound := ob.ranges }) r (.sync o.toNat t)
      (Acting (.syncWait c sc o v p) p.toNat s r tm g th →
        (∀ x, th.grant = some x → ∃ t, exec (.syncWait c sc o v p) s = .next t ∧ AcquiredWith s t r tm th.bound v x true) ∧
        (th.grant = none → InvalidFor ob.phase w → Raised (.syncWait c sc o v p) s r cSYNC_ERROR) ∧
        (th.grant = none → ¬ InvalidFor ob.phase w →
          (ob.state = .error →
            ∃ t, exec (.syncWait c sc o v p) s = .next t ∧ AcquiredWith s t r tm ob.ranges v (ob.ecode.setWidth 32) true) ∧
          (ob.state = .active → PassedBy ob.phase w →
            ∃ t, exec (.syncWait c sc o v p) s = .next t ∧ AcquiredWith s t r tm ob.ranges v 0 true) ∧
          (ob.state = .active → ¬ PassedBy ob.phase w → exec (.syncWait c sc o v p) s = .next (waits w)))) ∧
      (Acting (.syncTest c sc o v p) p.toNat s r tm g th →
        (InvalidFor ob.phase w → Raised (.syncTest c sc o v p) s r cSYNC_ERROR) ∧
        (¬ InvalidFor ob.phase w → ∃ x : Word, (ob.state = .error → x = ob.ecode.setWidth 32) ∧
          (ob.state = .active → PassedBy ob.phase w → x = 0) ∧ (ob.state = .active → ¬ PassedBy ob.phase w → x = 0xFFFFFFFF) ∧
          exec (.syncTest c sc o v p) s = .next (s.updThread r (setTo v.toNat x)))) ∧
      (Acting (.syncAcq c sc o v p) p.toNat s r tm g th →
        ∃ t, exec (.syncAcq c sc o v p) s = .next t ∧ AcquiredWith s t r tm ob.ranges v (BitVec.ofNat 32 ob.phase) false) ∧
      (Acting (.syncArrw c sc o v p) p.toNat s r tm g th →
        (∀ x, th.grant = some x → ∃ t, exec (.syncArrw c sc o v p) s = .next t ∧ AcquiredWith s t r tm th.bound v x true) ∧
        (∀ x, th.grant = none → th.kept = some (o.toNat, x) →
          (ob.state = .error →
            ∃ t, exec (.syncArrw c sc o v p) s = .next t ∧ AcquiredWith s t r tm th.bound v (ob.ecode.setWidth 32) true) ∧
          (ob.state = .active → PassedBy ob.phase x →
            ∃ t, exec (.syncArrw c sc o v p) s = .next t ∧ AcquiredWith s t r tm th.bound v 0 true) ∧
          (ob.state = .active → ¬ PassedBy ob.phase x → exec (.syncArrw c sc o v p) s =
            .next (waiting (s.updThread r fun th => { th with kept := none }) r (.sync o.toNat x)))) ∧
        (th.grant = none → (∀ x, th.kept ≠ some (o.toNat, x)) → Settled s r tm th → ob.state = .error →
          ∃ t, exec (.syncArrw c sc o v p) s = .next t ∧ AcquiredWith s t r tm ob.ranges v (ob.ecode.setWidth 32) true) ∧
        (th.grant = none → (∀ x, th.kept ≠ some (o.toNat, x)) → Settled s r tm th → ob.state = .active → ob.arr + 1 ≠ ob.exp + ob.xtra →
          exec (.syncArrw c sc o v p) s = .next ((waits (BitVec.ofNat 32 ob.phase)).setSync tm o.toNat
            { ob with arr := ob.arr + 1 })) ∧
        (th.grant = none → (∀ x, th.kept ≠ some (o.toNat, x)) → Settled s r tm th → ob.state = .active → ob.arr + 1 = ob.exp + ob.xtra → ob.phase < 2 ^ 31 →
          o.toNat < 32 → o.toNat < tm.syncs.length → th.status = .ready → ∃ t tm' u, exec (.syncArrw c sc o v p) s = .next t ∧
            t.team? tm.id = some tm' ∧ t.syncObj tm' o.toNat = stepped ob ∧ t.thread? r = some u ∧
            u = { setTo v.toNat 0 th with kept := none } ∧ t.issue = s.issue ∧ t.mem = s.mem))

/-! ## Fences -/

/-- R195 to R199: a REL waits while something that its scope names is unperformed (from cluster scope on also while its writes are queued, log entry 73), raises STORE_NACK once for a refused write, and
otherwise goes on, with no mirror to write; an ACQ waits for the thread's remote loads and atomics and empties its core's L1; FULL is
REL, then OPRDY, then ACQ; OPRDY waits while a load or atomic of the thread is in flight.  Nothing else changes. -/
def Sys2Proof.Claims.FencesOrder : Prop :=
  ∀ (s : State) (r : ThreadRef) (tm : Team) (g : Group) (th : Thread) (c : Bool) (sc p : BitVec 3),
    let noLines := unfilled tm.core (s.updCore tm.core fun k => { k with l1 := [] })
    let inFlight := ∃ l ∈ (s.core tm.core).loads, l.ref = r ∧ l.words ≠ []
    let released (i : Instr) (next : Prop) : Prop :=
      (Unperformed s r th sc.toNat → exec i s = .next (waiting s r (.release sc.toNat))) ∧
      (¬ Unperformed s r th sc.toNat → th.nackPending = true → Raised i s r cSTORE_NACK) ∧
      (¬ Unperformed s r th sc.toNat → th.nackPending = false → sc = 0 ∨ s.dirtyBlocks tm = [] → next)
    (Acting (.fenceRel c sc p) p.toNat s r tm g th →
      released (.fenceRel c sc p) (exec (.fenceRel c sc p) s = .next s)) ∧
    (Acting (.fenceAcq c sc p) p.toNat s r tm g th →
      (s.remoteLoads r = true → exec (.fenceAcq c sc p) s = .next (waiting s r (.release 0))) ∧
      (s.remoteLoads r = false → exec (.fenceAcq c sc p) s = .next noLines)) ∧
    (Acting (.fenceFull c sc p) p.toNat s r tm g th → released (.fenceFull c sc p)
      ((inFlight → exec (.fenceFull c sc p) s = .next (waiting s r .operand)) ∧
        (¬ inFlight → exec (.fenceFull c sc p) s = .next noLines))) ∧
    (Acting (.fenceOprdy c p) p.toNat s r tm g th →
      (inFlight → exec (.fenceOprdy c p) s = .next (waiting s r .operand)) ∧
      (¬ inFlight → exec (.fenceOprdy c p) s = .next s))

/-- R27, R108, R114: TFENCE changes nothing for a thread without an enabled flag and without a refused write; else every cause's bit is set,
and with a handler the thread enters it with the lowest-numbered cause in HANDLER mode, when no cause has a stronger mode; it clears no
flag, and the refused write is noted no longer. -/
def Sys2Proof.Claims.TfenceRaisesEnabledFlags : Prop :=
  ∀ (s : State) (r : ThreadRef) (tm : Team) (g : Group) (th : Thread) (c : Bool) (p : BitVec 3),
    Acting (.fenceTfence c p) p.toNat s r tm g th →
      let i := Instr.fenceTfence c p
      let cs := fenceCauses th
      (cs = [] → exec i s = .next s) ∧
      (cs ≠ [] → ∃ t, exec i s = .next t ∧ t.issue.bundle = [] ∧ t.mem = s.mem ∧ (∃ c0 ∈ cs, (r, c0) ∈ t.issue.raised) ∧
        (∃ g', t.group? r.team (r.tid / 32) = some g' ∧ ∀ k < 256, g'.causes.getLsbD k = true ↔
          g.causes.getLsbD k = true ∨ BitVec.ofNat 8 k ∈ cs) ∧
        (∀ c0 ∈ cs, deliveryOf s tm th c0 = 1 → (∀ x ∈ cs, deliveryOf s tm th x ≤ 1) →
          (∀ x ∈ cs, x.toNat < c0.toNat → deliveryOf s tm th x ≠ 1) →
          t.thread? r = some (entered (s.handlerOf tm) c0 false { th with nackPending := false })) ∧
        ((∀ x ∈ cs, deliveryOf s tm th x = 0) → ∃ c0 ∈ cs, t.thread? r = some { outOfRun { th with nackPending := false } with
          status := .parked c0, parkedAt := (s.core tm.core).cyc }))

/-- R27, R108, R114, R195 to R199: what the five fences wait for, order and raise. -/
def Obligations.Fences : Prop :=
  FencesOrder ∧ TfenceRaisesEnabledFlags

/-! ## Collectives -/

/-- R89, R353 to R355: when the threads that a mask names meet, each holding that mask, every member's register d takes the collective's
value for its rank among them, computed from the registers as they were; nothing else changes. -/
def Sys2Proof.Claims.CollectivesCombineLanes : Prop :=
  ∀ q ∈ collectives, ∀ (c : Bool) (d v m : BitVec 6) (s : State) (t gi : Nat) (mask : Word) (th : Nat → Thread),
    let ref (l : Nat) : ThreadRef := ⟨t, 32 * gi + l⟩
    let ls := lanes mask
    mask ≠ 0 → s.issue.bundle = ls.map ref → Issuing (q.1 c d v m) s →
      (∀ l ∈ ls, s.thread? (ref l) = some (th l) ∧ (th l).reg m.toNat = mask ∧ (th l).status = .ready) →
      (∀ l < 32, ∀ u, s.thread? (ref l) = some u → ∀ w, u.status ≠ .waiting (.collective w s.issue.pc)) →
        ∃ s', exec (q.1 c d v m) s = .next s' ∧ OnlyThreads s s' ∧
          (∀ r, r ∉ s.issue.bundle → s'.thread? r = s.thread? r) ∧
          ∀ rank l, ls[rank]? = some l →
            ∃ x, q.2 ls (ls.map fun l => (th l).reg v.toNat) (ls.map fun l => (th l).reg d.toNat) rank x ∧
              s'.thread? (ref l) = some { setTo d.toNat x (th l) with lastIssue := (s.core s.issue.core).cyc }

/-- R89: a thread whose mask does not name its own lane raises ILLEGAL_MASK, and one whose mask names a lane that has exited MEMBER_GONE;
one that arrives before the others waits. -/
def Sys2Proof.Claims.CollectivesWaitOrFail : Prop :=
  ∀ q ∈ collectives, ∀ (c : Bool) (d v m : BitVec 6) (s : State) (r : ThreadRef) (tm : Team) (g : Group) (th : Thread),
    Alone (q.1 c d v m) s r tm g th → th.status = .ready →
      ((th.reg m.toNat).getLsbD (r.tid % 32) = false → Raised (q.1 c d v m) s r cILLEGAL_MASK) ∧
      ((th.reg m.toNat).getLsbD (r.tid % 32) = true →
        (∃ l u, l < 32 ∧ (th.reg m.toNat).getLsbD l = true ∧ g.threads[l]? = some u ∧ u.status = .exited) →
        Raised (q.1 c d v m) s r cMEMBER_GONE) ∧
      ((th.reg m.toNat).getLsbD (r.tid % 32) = true → (∀ u ∈ g.threads, u = th ∨ u.status = .ready) →
        (∃ l < 32, l ≠ r.tid % 32 ∧ (th.reg m.toNat).getLsbD l = true) →
        exec (q.1 c d v m) s = .next (waiting s r (.collective (th.reg m.toNat) s.issue.pc)))

/-- R89, R353 to R357: what collectives give, and when they wait or fail. -/
def Obligations.Collectives : Prop :=
  CollectivesCombineLanes ∧ CollectivesWaitOrFail

/-! # The matrix engine, the tile walker, copies -/

namespace Sys2Proof.Claims

/-- All 32 threads of a group are at the word, ready, and keep its field rules; no load in flight is to write one of the registers
that the word waits for, or predicate 7. -/
structure WholeGroup (i : Instr) (regs : List Nat) (s : State) (t gi : Nat) (tm : Team) (g : Group) : Prop where
  core : s.issue.core = tm.core
  there : ∀ ld ∈ (s.core tm.core).loads, ld.ref.team = t → ld.ref.tid / 32 = gi →
    (∀ n ∈ regs, n < ld.d ∨ ld.d + ld.words.length ≤ n) ∧ ∀ k b, ld.pk = some (k, b) → k ≠ 7
  bundle : s.issue.bundle = (List.range 32).map fun l => ⟨t, 32 * gi + l⟩
  issuing : Issuing i s
  team : s.team? t = some tm
  group : tm.groups[gi]? = some g
  threads : g.threads.length = 32 ∧ ∀ u ∈ g.threads, u.status = .ready

/-- Only the core's own record has changed: no thread, no memory, no other core. -/
structure OnlyCore (s t : State) (core : Nat) : Prop where
  rest : t = { s with cores := t.cores, teams := t.teams, issue := t.issue }
  issue : t.issue = s.issue
  threads : ∀ r, t.thread? r = s.thread? r
  teams : t.teams.map bare = s.teams.map bare
  cores : ∀ c, c ≠ core → t.core c = s.core c

/-- The same, but the threads of the bundle note the core's count as that of their last issue. -/
structure OnlyCoreIssued (s t : State) (core : Nat) : Prop where
  rest : t = { s with cores := t.cores, teams := t.teams }
  threads : ∀ r, t.thread? r = (s.thread? r).map fun u =>
    if r ∈ s.issue.bundle then { u with lastIssue := (s.core core).cyc } else u
  teams : t.teams.map bare = s.teams.map bare
  cores : ∀ c, c ≠ core → t.core c = s.core c

/-- A load in flight is to write register n of a thread. -/
def Pends (s : State) (core : Nat) (r : ThreadRef) (n : Nat) : Prop :=
  ∃ ld ∈ (s.core core).loads, ld.ref = r ∧ ld.d ≤ n ∧ n < ld.d + ld.words.length

/-- What an MMA notes of n operand registers from a base at its issue: how often each has been written, and none for a register that
a load is to write (R204). -/
def Notes (s : State) (core : Nat) (r : ThreadRef) (u : Thread) (base n : Nat) (noted : List (Option Nat)) : Prop :=
  noted.length = n ∧ ∀ j < n, (Pends s core r (base + j) → noted[j]? = some none) ∧
    (¬ Pends s core r (base + j) → noted[j]? = some (some (u.writes.getD (base + j) 0)))

/-- The bank a tag hits (R241): the lowest one that is LOADING or RESIDENT under the tag; tag 0xFF hits none. -/
def Hits (banks : List Bank) (tag : BitVec 8) (h : Option Nat) : Prop :=
  let match_ (b : Nat) : Prop := ∃ k, banks[b]? = some k ∧ k.id = tag ∧ (k.state = .loading ∨ k.state = .resident)
  match h with
  | none => tag = 0xFF ∨ ∀ b, ¬ match_ b
  | some b => tag ≠ 0xFF ∧ match_ b ∧ ∀ k < b, ¬ match_ k

/-- An object after one arrival of engine work (R184, R186). -/
def oneArrival (ob : SyncObj) : SyncObj :=
  if ob.state = .active then (if ob.arr + 1 = ob.exp + ob.xtra then stepped { ob with arr := ob.arr + 1 } else { ob with arr := ob.arr + 1 })
  else ob

/-- The sig object of a team has had one arrival. -/
def ArrivedOn (t : State) (tm : Team) (sig : Nat) : Prop :=
  ∃ tm', t.team? tm.id = some tm' ∧ ∀ ob, sig < 32 → tm.syncs[sig]? = some ob → tm'.syncs[sig]? = some (oneArrival ob)

/-- The sig object of a team is not UNINIT. -/
def SigSet (tm : Team) (sig : Nat) : Prop := ∃ ob, tm.syncs[sig]? = some ob ∧ ob.state ≠ .uninit

/-- MMA words that write scratch, with their function. -/
def formsMma : List ((Bool → BitVec 2 → Bool → BitVec 6 → Bool → BitVec 3 → BitVec 5 → BitVec 2 → Instr) × Nat) :=
  [(.mmaFwd, 0), (.mmaFwd2, 1), (.mmaFwdk, 2), (.mmaBwd, 3)]

/-- BANK words with a scratch register: function, bytes, alignment, and whether scratch is written (R237). -/
def formsBank : List ((Bool → BitVec 2 → BitVec 6 → BitVec 8 → BitVec 5 → Instr) × Nat × Nat × Nat × Bool) :=
  [(.bankLd, 0, 4096, 256, false), (.bankLdq, 1, 2304, 64, false), (.bankGdrain, 4, 8192, 256, true), (.bankQuery, 5, 16, 16, true)]

/-- BANK words without one. -/
def formsBank0 : List ((Bool → BitVec 2 → BitVec 8 → BitVec 5 → Instr) × Nat) := [(.bankEvict, 2), (.bankGzero, 3)]

/-- A code of symmetric INT8 (R19): 0x80 is reserved and counts as 0. -/
def int8 (b : BitVec 8) : Int := if b = 0x80 then 0 else b.toInt

end Sys2Proof.Claims

/-- R204, R235, R248, R338, R368: an MMA of a whole group, its region aligned, its objects set up and the queue not full, joins the core's
engine queue with its fields, the %SELTAG and %SELG of every lane, and a note of every operand register as it stands; one that
keeps A takes a collector unless its group holds one; one that writes scratch takes a scoreboard range of 4,096 bytes.  Nothing else changes. -/
def Sys2Proof.Claims.MmaWordsAreQueued : Prop :=
  ∀ (c k x : Bool) (a m : BitVec 2) (o : BitVec 6) (f : BitVec 3) (sig : BitVec 5) (s : State) (t gi : Nat) (tm : Team) (g : Group)
    (out : Nat), SigSet tm sig.toNat → (s.core tm.core).engq.length < 16 →
    let co := s.core tm.core
    let shows (i : Instr) (fn : Nat) (keep acc held : Bool) (ranges : List SbRange) : Prop :=
      ∃ (s' : State) (op : MmaOp), exec i s = .next s' ∧ OnlyCoreIssued s s' tm.core ∧ s'.core tm.core = { co with
          engq := co.engq ++ [.mma op], ranges := ranges
          collectors := if keep && !held then co.collectors ++ [⟨t, gi, []⟩] else co.collectors } ∧
        op.team = t ∧ op.grp = gi ∧ op.fn = fn ∧ op.fmt = f.toNat ∧ op.abase = 16 * a.toNat ∧ op.o = o.toNat ∧ op.keep = keep ∧
        op.acc = acc ∧ op.sig = sig.toNat ∧ op.miss = m.toNat ∧ op.useCol = held ∧ (fn ≠ 4 → op.out = out) ∧
        ∀ l u, l < 32 → s.thread? ⟨t, 32 * gi + l⟩ = some u → op.tags[l]? = some u.seltag ∧ op.gates[l]? = some u.selg ∧
          ∃ av ov, op.seen[l]? = some (av ++ ov) ∧ Notes s tm.core ⟨t, 32 * gi + l⟩ u (16 * a.toNat) 16 av ∧
            if fn = 4 then Notes s tm.core ⟨t, 32 * gi + l⟩ u o.toNat 16 ov else ov = []
    (∀ q ∈ formsMma, WholeGroup (q.1 c a k o x f sig m) [o.toNat] s t gi tm g →
      (∀ u, s.thread? ⟨t, 32 * gi⟩ = some u → 128 ∣ (u.reg o.toNat).toNat ∧ (u.reg o.toNat).getLsbD 25 = false ∧
        s.resolveScratch tm (u.reg o.toNat) 4096 = .at_ tm.core out false) →
      (m = 0 → q.2 ≠ 2 → g.dqlen.toNat % 2 ^ 16 = 0 ∨ ∃ e,
        s.resolveScratch tm (g.dqbase &&& 0x001FFFF8) (8 * (g.dqlen.toNat % 2 ^ 16)) = .at_ tm.core e false) →
      (k = true → co.holdsCollector t gi = false → co.collectors.length < 4) →
      co.rangeBusy out 4096 = false → co.ranges.length < 32 →
      shows (q.1 c a k o x f sig m) q.2 k x (co.holdsCollector t gi) (⟨out, 4096, 1, false⟩ :: co.ranges)) ∧
    (WholeGroup (.mmaGrad c a o f sig m) [] s t gi tm g →
      (m = 0 → g.dqlen.toNat % 2 ^ 16 = 0 ∨ ∃ e,
        s.resolveScratch tm (g.dqbase &&& 0x001FFFF8) (8 * (g.dqlen.toNat % 2 ^ 16)) = .at_ tm.core e false) →
      shows (.mmaGrad c a o f sig m) 4 false false false co.ranges)

/-- R235, R370, R372: BANK and TOPK words join the engine queue; a BANK word that will write scratch takes its range; TOPK.READ makes its
group wait for its start.  A misaligned region raises ALIGN. -/
def Sys2Proof.Claims.BankAndTopkWordsAreQueued : Prop :=
  ∀ (c k : Bool) (b : BitVec 2) (v d : BitVec 6) (id : BitVec 8) (sig : BitVec 5) (s : State) (r : ThreadRef) (tm : Team) (g : Group)
    (th : Thread) (off : Nat),
    let co := s.core tm.core
    (∀ q ∈ formsBank, Alone (q.1 c b v id sig) s r tm g th →
      (¬ q.2.2.2.1 ∣ (th.reg v.toNat).toNat → Raised (q.1 c b v id sig) s r cALIGN) ∧
      (q.2.2.2.1 ∣ (th.reg v.toNat).toNat → (th.reg v.toNat).getLsbD 25 = false →
        s.resolveScratch tm (th.reg v.toNat) q.2.2.1 = .at_ tm.core off false → SigSet tm sig.toNat → co.engq.length < 16 →
        co.rangeBusy off q.2.2.1 = false → co.ranges.length < 32 →
        ∃ s', exec (q.1 c b v id sig) s = .next s' ∧ OnlyCore s s' tm.core ∧ s'.core tm.core = { co with
          engq := co.engq ++ [.bank r.team (r.tid / 32) q.2.1 b.toNat off id sig.toNat]
          ranges := if q.2.2.2.2 then ⟨off, q.2.2.1, 1, false⟩ :: co.ranges else co.ranges })) ∧
    (∀ q ∈ formsBank0, Alone (q.1 c b id sig) s r tm g th → SigSet tm sig.toNat → co.engq.length < 16 →
      ∃ s', exec (q.1 c b id sig) s = .next s' ∧ OnlyCore s s' tm.core ∧ s'.core tm.core = { co with
        engq := co.engq ++ [.bank r.team (r.tid / 32) q.2 b.toNat 0 id sig.toNat] }) ∧
    (Alone (.topkInit c k b) s r tm g th → co.engq.length < 16 →
      ∃ s', exec (.topkInit c k b) s = .next s' ∧ OnlyCore s s' tm.core ∧ s'.core tm.core = { co with
        engq := co.engq ++ [.topkInit r.team (r.tid / 32) (if k then 2 else 1) b.toNat] }) ∧
    (∀ t gi, WholeGroup (.topkRead c b d) [d.toNat, d.toNat + 1] s t gi tm g → co.engq.length < 16 → (∀ u ∈ g.threads, u.grant = none) →
      ∃ s', exec (.topkRead c b d) s = .next s' ∧ s'.issue.bundle = [] ∧ s'.core tm.core = { co with
          engq := co.engq ++ [.topkRead t gi b.toNat d.toNat] } ∧
        ∀ l u, l < 32 → s.thread? ⟨t, 32 * gi + l⟩ = some u →
          s'.thread? ⟨t, 32 * gi + l⟩ = some { u with
            status := .waiting .engine, pc := s.issue.pc, lastIssue := co.cyc })

/-- R235 to R237, R365 to R372: engine words are checked, capture their operands and are queued. -/
def Obligations.EngineWordsAreQueued : Prop :=
  MmaWordsAreQueued ∧ BankAndTopkWordsAreQueued

/-- R235, R239, R241, R249, R250: ENGINE_WORD_START takes the head of the queue when its condition holds: an MMA resolves its tags against
the table, LD and LDQ make their bank LOADING under the new tag, EVICT empties it, GZERO zeroes its accumulators, a GDRAIN is DRAINING,
TOPK.INIT clears its set, TOPK.READ gives each waiting lane the values and tags of its two entries.  With its condition false nothing
changes. -/
def Sys2Proof.Claims.EngineWordsStart : Prop :=
  ∀ (s : State) (core : Nat) (op : EngOp) (rest : List EngOp) (tm : Team),
    let co := s.core core
    co.engq = op :: rest → co.banks.length = 4 →
      (co.mayStart op = false → exec (.engineWordStart core) s = .next s) ∧
      (co.mayStart op = true → ∃ s', exec (.engineWordStart core) s = .next s' ∧ (s'.core core).engq = rest ∧
        s'.mem = s.mem ∧ (s'.core core).scratch = co.scratch ∧
        (∀ m, op = .mma m → OnlyCore s s' core ∧ ∃ e, (s'.core core).engRun = co.engRun ++ [e] ∧ e.op = op ∧
          ∀ (l : Nat) (tag : Word), m.tags[l]? = some tag → ∃ h, e.hits[l]? = some h ∧ Hits co.banks (tag.extractLsb' 0 8) h.1 ∧
            Hits co.banks (if m.fn = 1 then tag.extractLsb' 8 8 else 0xFF) h.2) ∧
        (∀ t gi fn b sa id sig (old : Bank), op = .bank t gi fn b sa id sig → co.banks[b]? = some old → old.gacc = false →
          ∃ new, (s'.core core).banks[b]? = some new ∧
            (fn < 2 → new = { old with state := .loading, id := id, quant := fn = 1, lost := false }) ∧
            (fn = 2 → new = { old with state := .empty, id := 0xFF }) ∧
            (fn = 3 → new = { old with acc := [], gacc := false }) ∧
            (fn = 4 → new = { old with before := old.state, state := .draining }) ∧
            (4 < fn → new = old) ∧
            ((fn = 2 ∨ fn = 3) → s.team? t = some tm → tm.state = .resident → ArrivedOn s' tm sig)) ∧
        (∀ t gi k set, op = .topkInit t gi k set → set < co.sedge.length → OnlyCore s s' core ∧
          (s'.core core).sedge[set]? = some ⟨k, some t, List.replicate 32 []⟩) ∧
        (∀ t gi set d l u, op = .topkRead t gi set d → l < 32 → s.thread? ⟨t, 32 * gi + l⟩ = some u →
          u.status = .waiting .engine → ∃ u', s'.thread? ⟨t, 32 * gi + l⟩ = some u' ∧ u'.status = .ready ∧
            ∀ (q : Sedge) (row : List (Word × BitVec 16)), co.sedge[set]? = some q → q.rows[l]? = some row → d + 1 < u.regs.length →
              let value (j : Nat) (v : Word) (tag : BitVec 8) : Prop := match row[j]? with
                | some e => v = e.1 ∧ tag = if e.2.toNat ≤ 254 then e.2.setWidth 8 else 0xFF
                | none => v = 0xFF800000 ∧ tag = 0xFF
              value 0 (u'.reg d) (u'.seltag.extractLsb' 0 8) ∧ value 1 (u'.reg (d + 1)) (u'.seltag.extractLsb' 8 8)))

/-- R237, R239, R240: the engine's completions: a load's bank becomes RESIDENT, with its 2,048 cells from the bytes read by LD, a drain writes its
8,192 bytes and empties the accumulators, a QUERY writes its 16 bytes; each arrives once on its sig object. -/
def Sys2Proof.Claims.BankFunctionsComplete : Prop :=
  ∀ (s : State) (core b sa t gi fn : Nat) (id : BitVec 8) (sig : Nat) (data : List Byte) (tm : Team) (old : Bank),
    let co := s.core core
    co.engRun = [⟨.bank t gi fn b sa id sig, [], data⟩] → co.banks[b]? = some old → s.team? t = some tm → tm.state = .resident →
      SigSet tm sig →
      (fn < 2 → ∃ s' new, exec (.bankLoadComplete core b) s = .next s' ∧ ArrivedOn s' tm sig ∧ (s'.core core).engRun = [] ∧
        (s'.core core).scratch = co.scratch ∧ (s'.core core).banks[b]? = some new ∧ new.state = .resident ∧ new.id = old.id ∧
        ∀ j < 2048, fn = 0 → new.cells[j]? = some (data.getD (2 * j + 1) 0 ++ data.getD (2 * j) 0)) ∧
      (fn = 4 → data.length = 8192 → co.scratch.wf = true → ∃ s' f, exec (.bankDrainComplete core b) s = .next s' ∧
        ArrivedOn s' tm sig ∧ Stores f sa data ∧ (s'.core core).scratch = f co.scratch ∧ (s'.core core).engRun = [] ∧
        (s'.core core).banks[b]? = some { old with acc := [], gacc := false, state := old.before }) ∧
      (fn = 5 → data.length = 16 → co.scratch.wf = true → ∃ s' f, exec (.bankQueryComplete core) s = .next s' ∧
        ArrivedOn s' tm sig ∧ Stores f sa data ∧ (s'.core core).scratch = f co.scratch ∧ (s'.core core).engRun = [])

/-- R235 to R242: queued engine words start, and bank functions complete. -/
def Obligations.EngineWordsStartAndComplete : Prop :=
  EngineWordsStart ∧ BankFunctionsComplete

/-- R31, R243, R251: MMA_COMPLETE of a FWD of format INT8 without ACC, no operand register pending at its issue or written since: each output word of a row that hits a
bank is the sum over 64 positions of the row's byte times the bank's byte, a row that hits none gives 0, the word stands at 128 bytes a
row in scratch, no byte outside the 4,096 changes, and the sig object has its arrival. -/
def Obligations.IntegerMmaWritesItsProducts : Prop :=
  ∀ (s : State) (core : Nat) (m : MmaOp) (hits : List (Option Nat × Option Nat)) (tm : Team) (x : Nat → Nat → Word),
    let co := s.core core
    co.engRun = [⟨.mma m, hits, []⟩] → m.fn = 0 → m.fmt = 2 → m.acc = false → m.keep = false → m.useCol = false → m.miss = 1 →
      s.team? m.team = some tm → tm.state = .resident → SigSet tm m.sig → m.abase + 16 ≤ 64 → co.scratch.wf = true →
      (∀ b ∈ co.banks, b.quant = false) → (∀ h ∈ hits, ∀ b, h.1 = some b → b < co.banks.length) →
      (∀ l < 32, ∃ u regs, s.thread? ⟨m.team, 32 * m.grp + l⟩ = some u ∧ m.seen[l]? = some regs ∧ regs.length = 16 ∧
        ∀ j < 16, regs[j]? = some (some (u.writes.getD (m.abase + j) 0)) ∧ u.reg (m.abase + j) = x l j) →
      ∃ s', exec (.mmaComplete core) s = .next s' ∧ ArrivedOn s' tm m.sig ∧ (s'.core core).engRun = [] ∧
        (∀ a, a < m.out ∨ m.out + 4096 ≤ a → (s'.core core).scratch.read a = co.scratch.read a) ∧
        ∀ l n, l < 32 → n < 32 →
          word4 (s'.core core).scratch (m.out + 128 * l + 4 * n) = match (hits.getD l (none, none)).1 with
            | none => 0
            | some b => BitVec.ofInt 32 ((List.range 64).map fun k =>
                int8 ((x l (k / 4)).extractLsb' (8 * (k % 4)) 8) *
                int8 (((co.banks.getD b Bank.scrubbed).cells.getD (32 * k + n) 0).extractLsb' 0 8)).sum

/-- R337, R340, R341: TWK reads its 64-byte record as it stands at issue and queues a job with its four coordinate registers; a misaligned
record raises ALIGN, a remote one SCRATCH_RANGE, a sig object that is UNINIT SYNC_ERROR. -/
def Sys2Proof.Claims.TileWordsQueueJobs : Prop :=
  ∀ q ∈ [(Instr.twkLoad, 0), (Instr.twkStore, 1), (Instr.twkGather, 2), (Instr.twkScatteradd, 3)],
    ∀ (c : Bool) (v cc : BitVec 6) (sig : BitVec 5) (p : BitVec 3) (s : State) (r : ThreadRef) (tm : Team) (g : Group) (th : Thread)
      (off : Nat), Acting (q.1 c v cc sig p) p.toNat s r tm g th →
      let co := s.core tm.core
      let sa := th.reg v.toNat
      (¬ 64 ∣ sa.toNat → Raised (q.1 c v cc sig p) s r cALIGN) ∧
      (64 ∣ sa.toNat → sa.getLsbD 25 = true → Raised (q.1 c v cc sig p) s r cSCRATCH_RANGE) ∧
      (64 ∣ sa.toNat → sa.getLsbD 25 = false → s.resolveScratch tm sa 64 = .at_ tm.core off false →
        (¬ SigSet tm sig.toNat → Raised (q.1 c v cc sig p) s r cSYNC_ERROR) ∧
        (SigSet tm sig.toNat → co.rangeBusy off 64 = false → co.twq.countP (fun j => !j.running) < 16 →
          ∃ s' job, exec (q.1 c v cc sig p) s = .next s' ∧ OnlyCore s s' tm.core ∧
            s'.core tm.core = { co with twq := co.twq ++ [job] } ∧ job.team = r.team ∧ job.tid = r.tid ∧ job.fn = q.2 ∧
            job.sig = sig.toNat ∧ job.tile = 0 ∧ job.running = false ∧ job.paused = none ∧ job.ranged = none ∧ job.recd.length = 64 ∧
            (∀ j < 64, job.recd[j]? = some (co.scratch.read (off + j))) ∧
            (∀ j < 4, job.coords[j]? = some (th.reg (cc.toNat + j)))))

/-- R216, R334, R335, R342, R343: a walker job starts while fewer than four run, and nothing else of its core changes but a scoreboard range
and what walking ahead fills (a job whose object is closed fails instead, log entry 85); a LOAD tile that lies wholly outside its tensor
writes FILL over its elements that are still to be done; a job
whose tiles are done leaves and arrives; a copy writes its k bytes and zeros to 32, its count falls and its range's write ends. -/
def Sys2Proof.Claims.TileJobsAndCopiesComplete : Prop :=
  ∀ (s : State) (core : Nat) (tm : Team),
    let co := s.core core
    (∀ ix j, co.twq[ix]? = some j → j.running = false → (∀ k < ix, ∀ x, co.twq[k]? = some x → x.running = true) →
      (co.twq.countP TwkJob.running < 4 →
        (∀ x, s.team? j.team = some x → j.error = true ∨ (s.jobPlace x j).isSome = true) →
        ∃ s' k, exec (.twkJobStart core) s = .next s' ∧ s'.teams = s.teams ∧ (s'.core core).twq = co.twq.set ix k ∧
        k = { j with running := true, ranged := k.ranged, at_ := k.at_, elem := k.elem } ∧
        (j.fn = 1 ∨ j.fn = 3 → k.ranged = j.ranged ∧ (s'.core core).ranges = co.ranges) ∧
        { s'.core core with twq := [], ranges := [], wtlb := [] } = { co with twq := [], ranges := [], wtlb := [] } ∧
        ∀ k, k ≠ core → s'.core k = s.core k) ∧
      (4 ≤ co.twq.countP TwkJob.running → exec (.twkJobStart core) s = .next s)) ∧
    (∀ ix j, co.twq[ix]? = some j → s.team? j.team = some tm → tm.state = .resident → SigSet tm j.sig → j.running = true →
      j.error = false → (Shape.of j.recd).nt ≤ j.tile →
      ∃ s', exec (.twkJobComplete core ix) s = .next s' ∧ (s'.core core).twq = co.twq.eraseIdx ix ∧ ArrivedOn s' tm j.sig) ∧
    (∀ ix j p, co.twq[ix]? = some j → s.team? j.team = some tm → tm.state = .resident → j.running = true → j.error = false →
      (j.at_ = none ∧ s.jobPlace tm j = some p ∨ j.at_ = some p) → j.paused = none → j.fn = 0 → j.ranged.isSome = true → j.tile + 1 = (Shape.of j.recd).nt → co.scratch.wf = true →
      let h := Shape.of j.recd
      let row (i : Nat) : Nat := p.1 + (j.tile * h.tile1 + i) * h.rowb
      let done := if j.at_ = none then 0 else j.elem
      ((h.dims.getD 0 1 : Int) ≤ (j.coords.getD 0 0).toInt) → 1 ≤ h.tile0 → h.tile0 * h.esz ≤ h.rowb →
      ∃ s', exec (.twkTileDone core ix) s = .next s' ∧
        ((s'.core core).twq[ix]?).map TwkJob.tile = some (j.tile + 1) ∧
        (∀ i n k, i < h.tile1 → n < h.tile0 → k < h.esz → done ≤ i * h.tile0 + n →
          (s'.core core).scratch.read (row i + n * h.esz + k) = (leBytes h.fill h.esz).getD k 0) ∧
        (∀ a, (∀ i, i < h.tile1 → a < row i ∨ row i + h.tile0 * h.esz ≤ a) →
          (s'.core core).scratch.read a = co.scratch.read a)) ∧
    (∀ ix c h, co.copies[ix]? = some c → s.team? c.ref.team = some tm → tm.core = core → c.held = none → c.failed = false →
      (∀ k < ix, ∀ x, co.copies[k]? = some x → x.ref ≠ c.ref ∨ x.tag ≠ c.tag) → 0 < c.k → c.k ≤ 32 →
      c.ga.toNat % 65536 + c.k ≤ 65536 → Reaches s tm c.ga.toNat .copy h → Home.isMemory h → (∀ pa, h = .dev pa → ∀ b ∈ s.ecc, 64 * b + 64 ≤ pa ∨ pa + c.k ≤ 64 * b) → co.storeq = [] →
      co.scratch.wf = true →
      ∃ s', exec (.cpyRetire core ix) s = .next s' ∧ (s'.core core).copies = co.copies.eraseIdx ix ∧
        (∀ u, s.thread? c.ref = some u → ∃ u', s'.thread? c.ref = some u' ∧ u'.regs = u.regs ∧
          u'.cnt = u.cnt.modify c.tag (· - 1) ∧ u'.copyFault = u.copyFault) ∧
        (∀ x, (s'.core core).scratch.read x =
          if c.dst ≤ x ∧ x < c.dst + c.k then homeByte s h (x - c.dst)
          else if c.dst ≤ x ∧ x < c.dst + 32 then 0 else co.scratch.read x))

/-- R337 to R346: tile words queue jobs, and jobs and copies complete. -/
def Obligations.TileJobsAndCopies : Prop :=
  TileWordsQueueJobs ∧ TileJobsAndCopiesComplete

/-! # Named objects, tasks, markers, REP -/

namespace Sys2Proof.Claims

/-- The answer of an NOBJ word goes to the register after the name's pair (R377). -/
def answered (s : State) (r : ThreadRef) (v : BitVec 6) (x : Word) : State :=
  s.updThread r (setTo (v.toNat + 2) x)

/-- No region in use on a core meets the span (R82, R167). -/
def FreeSpan (s : State) (core base size : Nat) : Prop :=
  base + size ≤ 2 ^ 21 ∧
  (∀ t ∈ s.teams, t.core = core → (t.state = .resident ∨ t.state = .saving ∨ t.state = .killing) → t.scrsz ≠ 0 →
    base + size ≤ t.winBase ∨ t.winBase + t.scrsz ≤ base) ∧
  (∀ o ∈ s.objs, o.holder = core → (o.state = .resident ∨ o.state = .moving ∨ o.state = .restoring) → o.size ≠ 0 →
    base + size ≤ o.base ∨ o.base + o.size ≤ base)

/-- The object is held on the team's core, resident, and neither doomed nor in a move. -/
structure Holds (s : State) (tm : Team) (name : DWord) (ob : Obj) : Prop where
  found : s.obj? tm.ctx name = some ob
  here : ob.state = .resident ∧ ob.doomed = false ∧ ob.holder = tm.core
  settled : s.rebuilding tm.ctx name = false

/-- A record of 64 bytes at an offset of a core's scratch. -/
def recordAt (s : State) (core off : Nat) : List Byte := (List.range 64).map fun i => (s.core core).scratch.read (off + i)

end Sys2Proof.Claims

/-- R169 to R171, R175, R177, R377: what CREATE, OPEN, CLOSE, HAND, DROP, QUERY and MIRROR answer and do to the directory. -/
def Obligations.NamedObjectWords : Prop :=
  ∀ (s : State) (r : ThreadRef) (tm : Team) (g : Group) (th : Thread) (c : Bool) (v : BitVec 6) (p : BitVec 3),
    let name := th.pair v.toNat
    let x := th.reg (v.toNat + 2)
    let isOpen := ∃ o ∈ tm.opens, o.name = name ∧ o.lost = false ∧ o.handed = false
    let absent : Word := 0xFFFFFFFF
    s.rebuilding tm.ctx name = false →
    (Acting (.nobjCreate c v p) p.toNat s r tm g th →
      (name = 0 ∨ ¬ 256 ∣ x.toNat ∨ x.toNat < 256 ∨ 1048576 < x.toNat →
        exec (.nobjCreate c v p) s = .next (answered s r v 0xFFFFFFFC)) ∧
      (name ≠ 0 → 256 ∣ x.toNat → 256 ≤ x.toNat → x.toNat ≤ 1048576 →
        (∀ ob, s.obj? tm.ctx name = some ob → exec (.nobjCreate c v p) s = .next (answered s r v 0xFFFFFFFE)) ∧
        (s.obj? tm.ctx name = none → s.objs.length < 4096 → s.objSpace tm.core x.toNat = none →
          exec (.nobjCreate c v p) s = .next (answered s r v 0xFFFFFFFD)) ∧
        (∀ base, s.obj? tm.ctx name = none → s.objs.length < 4096 → s.objSpace tm.core x.toNat = some base →
          FreeSpan s tm.core base x.toNat ∧ ∃ t ob, exec (.nobjCreate c v p) s = .next t ∧ t.objs = ob :: s.objs ∧
            ob.ctx = tm.ctx ∧ ob.name = name ∧ ob.state = .resident ∧ ob.k = 1 ∧ ob.holder = tm.core ∧ ob.base = base ∧
            ob.size = x.toNat ∧ ob.mirror = none ∧ t.mem = s.mem ∧
            (t.thread? r).map (fun u => u.regs) = some (th.regs.set (v.toNat + 2) (BitVec.ofNat 32 (2 ^ 26 + base))) ∧
            (∃ tm', t.team? tm.id = some tm' ∧ ⟨name, false, false⟩ ∈ tm'.opens) ∧
            ((s.core tm.core).scratch.wf = true → ∀ a, (t.core tm.core).scratch.read a =
              if base ≤ a ∧ a < base + x.toNat then 0 else (s.core tm.core).scratch.read a)))) ∧
    (Acting (.nobjOpen c v p) p.toNat s r tm g th →
      (s.obj? tm.ctx name = none → exec (.nobjOpen c v p) s = .next (answered s r v absent)) ∧
      (∀ ob, s.obj? tm.ctx name = some ob → ob.state = .lost → ob.doomed = false →
        exec (.nobjOpen c v p) s = .next (answered s r v 0xFFFFFFA0)) ∧
      (∀ ob, Holds s tm name ob → isOpen →
        exec (.nobjOpen c v p) s = .next (answered s r v (BitVec.ofNat 32 (2 ^ 26 + ob.base)))) ∧
      (∀ ob, Holds s tm name ob → ¬ isOpen → ob.k < 63 → ∃ t, exec (.nobjOpen c v p) s = .next t ∧
        t.obj? tm.ctx name = some { ob with k := ob.k + 1 } ∧
        (t.thread? r).map (fun u => u.regs) = some (th.regs.set (v.toNat + 2) (BitVec.ofNat 32 (2 ^ 26 + ob.base))) ∧
        (∃ tm', t.team? tm.id = some tm' ∧ ⟨name, false, false⟩ ∈ tm'.opens) ∧ t.mem = s.mem ∧ t.cores = s.cores)) ∧
    (Acting (.nobjClose c v p) p.toNat s r tm g th → Settled s r tm th → (∀ o ∈ tm.opens, o.lost = false) →
      (¬ isOpen → exec (.nobjClose c v p) s = .next (answered s r v 0xFFFFFFFB)) ∧
      (∀ ob, isOpen → Holds s tm name ob → ∃ t, exec (.nobjClose c v p) s = .next t ∧
        t.obj? tm.ctx name = some { ob with k := ob.k - 1 } ∧
        (t.thread? r).map (fun u => u.regs) = some (th.regs.set (v.toNat + 2) 0) ∧
        (∃ tm', t.team? tm.id = some tm' ∧ tm'.opens = tm.opens.filter (·.name != name)))) ∧
    (Acting (.nobjHand c v p) p.toNat s r tm g th → Settled s r tm th →
      (s.obj? tm.ctx name = none → exec (.nobjHand c v p) s = .next (answered s r v 0xFFFFFFFB)) ∧
      (∀ ob base, isOpen → Holds s tm name ob → s.coreUsable x.toNat = true → x.toNat ≠ ob.holder → ob.k = 1 →
        s.objSpace x.toNat ob.size = some base → ∃ t, exec (.nobjHand c v p) s = .next t ∧
          t.obj? tm.ctx name = some { ob with state := .moving, k := 0, target := x.toNat, targetBase := base } ∧
          (t.thread? r).map (fun u => u.regs) = some (th.regs.set (v.toNat + 2) 0))) ∧
    (Acting (.nobjDrop c v p) p.toNat s r tm g th →
      (s.obj? tm.ctx name = none → exec (.nobjDrop c v p) s = .next (answered s r v absent)) ∧
      (∀ ob, Holds s tm name ob → ob.k = 0 → ∃ t, exec (.nobjDrop c v p) s = .next t ∧ t.obj? tm.ctx name = none ∧
        (∀ a, ob.base ≤ a → a < ob.base + ob.size → (t.core ob.holder).scratch.read a = 0) ∧
        (t.thread? r).map (fun u => u.regs) = some (th.regs.set (v.toNat + 2) 0)) ∧
      (∀ ob, Holds s tm name ob → ob.k ≠ 0 → ∃ t, exec (.nobjDrop c v p) s = .next t ∧
        t.obj? tm.ctx name = some { ob with doomed := true } ∧
        (t.thread? r).map (fun u => u.regs) = some (th.regs.set (v.toNat + 2) 0))) ∧
    (Acting (.nobjQuery c v p) p.toNat s r tm g th →
      (s.obj? tm.ctx name = none → exec (.nobjQuery c v p) s = .next (answered s r v absent)) ∧
      (∀ ob, s.obj? tm.ctx name = some ob → exec (.nobjQuery c v p) s = .next (answered s r v (BitVec.ofNat 32
        ((match ob.state with
          | .resident => if ob.doomed then 4 else 1
          | .moving => 2
          | .spilled => 3
          | .lost => 5
          | .restoring => 6) + 2 ^ 8 * ob.holder + 2 ^ 22 * ob.k + if ob.mirror.isSome then 2 ^ 28 else 0))))) ∧
    (Acting (.nobjMirror c v p) p.toNat s r tm g th → Settled s r tm th →
      (¬ isOpen → exec (.nobjMirror c v p) s = .next (answered s r v 0xFFFFFFFB)) ∧
      (∀ ob, isOpen → Holds s tm name ob → ¬ 256 ∣ (th.pair (v.toNat + 2)).toNat →
        exec (.nobjMirror c v p) s = .next (answered s r v 0xFFFFFFFC)) ∧
      (∀ ob, isOpen → Holds s tm name ob → th.pair (v.toNat + 2) = 0 → ∃ t, exec (.nobjMirror c v p) s = .next t ∧
        t.obj? tm.ctx name = some { ob with mirror := none, dirty := [] } ∧
        (t.thread? r).map (fun u => u.regs) = some (th.regs.set (v.toNat + 2) 0)))

/-- R148 to R151, R378, R379, R266, R380: a task level is a queue of 64-byte records: PUSH appends the record at its scratch address, POP
and TRYPOP take the oldest into scratch, an empty queue makes POP wait and TRYPOP answer 0xFFFFFFFF, EOS appends an end record that
a pop leaves in its queue, DONE at address 0 does nothing, takes a counter that holds 0 no lower, counts a greater one down, and pushes the
record beside a counter that comes to 0 to the die queue.  EMARK to the own device is one arrival
on the object its descriptor names; a bad descriptor raises SYNC_ERROR. -/
def Obligations.TaskAndMarkerWords : Prop :=
  ∀ (s : State) (r : ThreadRef) (tm : Team) (g : Group) (th : Thread) (c : Bool) (l : BitVec 3) (v : BitVec 6) (p : BitVec 3) (off : Nat),
    let a := th.reg v.toNat
    let recs := s.taskRecs tm.ctx l.toNat tm.core
    let out (t : State) (x : Word) : Prop := (t.thread? r).map (fun u => u.regs) = some (th.regs.set v.toNat x)
    let region := 64 ∣ a.toNat ∧ a.getLsbD 25 = false ∧ s.resolveScratch tm a 64 = .at_ tm.core off false ∧
      (s.core tm.core).rangeBusy off 64 = false
    (Acting (.taskPush c l v p) p.toNat s r tm g th → Settled s r tm th → 1 ≤ l.toNat → l.toNat ≤ 3 →
      (¬ 64 ∣ a.toNat → Raised (.taskPush c l v p) s r cALIGN) ∧
      (region → recs.length < taskCap l.toNat → ∃ t, exec (.taskPush c l v p) s = .next t ∧ out t 0 ∧
        t.taskRecs tm.ctx l.toNat tm.core = recs ++ [(tm.launch, recordAt s tm.core off)] ∧ t.cores = s.cores ∧ t.mem = s.mem) ∧
      (region → l = 3 → recs.length = taskCap 3 → Raised (.taskPush c l v p) s r cTASK_OVERFLOW)) ∧
    (Acting (.taskEos c l p) p.toNat s r tm g th → Settled s r tm th → 1 ≤ l.toNat → l.toNat ≤ 3 → recs.length < taskCap l.toNat →
      ∃ t e, exec (.taskEos c l p) s = .next t ∧ t.taskRecs tm.ctx l.toNat tm.core = recs ++ [(tm.launch, e)] ∧ e.length = 64 ∧
        taskEos e = true ∧ t.cores = s.cores ∧ t.teams = s.teams) ∧
    (∀ f ∈ [Instr.taskPop, .taskTrypop], Acting (f c l v p) p.toNat s r tm g th → region → (s.core tm.core).scratch.wf = true →
      ∀ q rest, recs = q :: rest → q.2.length = 64 → ∃ t h, exec (f c l v p) s = .next t ∧ Stores h off q.2 ∧
        (t.core tm.core).scratch = h (s.core tm.core).scratch ∧ (t.core tm.core).l1 = [] ∧ t.mem = s.mem ∧
        (taskEos q.2 = false → out t 0 ∧ t.taskRecs tm.ctx l.toNat tm.core = rest) ∧
        (taskEos q.2 = true → out t 1 ∧ t.taskRecs tm.ctx l.toNat tm.core = rest ++ [q])) ∧
    ((∀ k, s.taskRecs tm.ctx k tm.core = []) → region →
      (Acting (.taskPop c l v p) p.toNat s r tm g th → exec (.taskPop c l v p) s = .next (waiting s r (.task l.toNat))) ∧
      (Acting (.taskTrypop c l v p) p.toNat s r tm g th →
        exec (.taskTrypop c l v p) s = .next (s.updThread r (setTo v.toNat 0xFFFFFFFF)))) ∧
    (Acting (.taskDone c l v p) p.toNat s r tm g th → Settled s r tm th →
      let va := (th.pair v.toNat).toNat
      (va = 0 → exec (.taskDone c l v p) s = .next s) ∧
      (¬ 64 ∣ va → Raised (.taskDone c l v p) s r cALIGN) ∧
      (∀ pa, va ≠ 0 → 64 ∣ va → Reaches s tm va .store (.dev pa) → 64 ∣ pa → ¬ LineLost s (.dev pa) → (s.core tm.core).storeq = [] →
        (∀ d ∈ s.dies, d.replicas = []) → s.mem.wf = true →
        let n := (word4 s.mem pa).toNat
        let only (t : State) : Prop := t = { s with mem := t.mem, dies := t.dies } ∧
          ∀ d, ({ t.die d with counts := [] } : Die) = { s.die d with counts := [] }
        (n = 0 → ∃ t, exec (.taskDone c l v p) s = .next t ∧ only t ∧ t.mem = s.mem) ∧
        (1 < n → ∃ t f, exec (.taskDone c l v p) s = .next t ∧ only t ∧ t.mem = f s.mem ∧ Stores f pa (leBytes (n - 1) 4)) ∧
        (∀ pb, n = 1 → Reaches s tm (va + 64) .load (.dev pb) → 64 ∣ pb → ¬ LineLost s (.dev pb) → pb ≠ pa →
          (s.taskRecs tm.ctx 3 tm.core).length < taskCap 3 → ∃ t f, exec (.taskDone c l v p) s = .next t ∧ t.mem = f s.mem ∧
            Stores f pa (leBytes 0 4) ∧ t.taskRecs tm.ctx 3 tm.core =
              s.taskRecs tm.ctx 3 tm.core ++ [(tm.launch, (List.range 64).map fun i => s.mem.read (pb + i))]))) ∧
    (Acting (.sendEmark c v p) p.toNat s r tm g th →
      let d := th.pair v.toNat
      let o := d.toNat / 2 ^ 12 % 64
      (o < 32 ∨ 56 ≤ o → Raised (.sendEmark c v p) s r cSYNC_ERROR) ∧
      (∀ cl ob, d.toNat % 2 ^ 12 = s.recDevice.toNat → 32 ≤ o → o < 48 → d.toNat / 2 ^ 18 % 2 ^ 14 = 0 → th.ackPkg = 0 →
        th.nackPending = false → s.remoteLoads r = false → s.cluster? tm.launch (d.toNat / 2 ^ 48) = some cl → cl.ended = false →
        cl.syncs[o - 32]? = some ob → ob.state = .active → ob.arr + 1 ≠ ob.exp + ob.xtra →
        ∃ t cl', exec (.sendEmark c v p) s = .next t ∧
          t = { s.updThread r (fun th => { th with marking := false }) with clusters := t.clusters } ∧
          t.cluster? tm.launch (d.toNat / 2 ^ 48) = some cl' ∧ cl'.syncs[o - 32]? = some { ob with arr := ob.arr + 1 }))

/-- R63 to R66: REP repeats the word after it N times (0 means 64), for one thread or many, each iteration with its stepped registers
raised by one stride, and leaves %REPC 0: every two-source integer word, its destination and its two sources stepped or not, and ADDI.
Nothing but the iterations' own effects remains. -/
def Sys2Proof.Claims.RepRepeatsItsTarget : Prop :=
  ∀ (s : State) (n : BitVec 6) (fd fs ft : Bool) (l : BitVec 2) (i : Instr),
    let count := if n = 0 then 64 else n.toNat
    let stride := 2 ^ l.toNat
    let idle (r : ThreadRef) : Prop := ∃ th nreg, s.thread? r = some th ∧ s.nregOf r = some nreg ∧ nreg ≤ 64 ∧ th.repc = 0 ∧
      th.record = [] ∧ th.nackPending = false ∧ th.acq = false ∧ ∀ ld ∈ (s.core s.issue.core).loads, ld.ref ≠ r
    let within (x : Nat) (on : Bool) : Prop := ∀ r ∈ s.issue.bundle, ∀ nreg, s.nregOf r = some nreg →
      (x + if on then (count - 1) * stride else 0) < nreg
    let step (on : Bool) (k : Nat) : Nat := if on then k * stride else 0
    let repeats (f : Nat → Thread → Thread) : Prop := ∃ t, exec (.rep n fd fs ft l) s = .next t ∧ t.issue = s.issue ∧ OnlyThreads s t ∧
      ∀ r, t.thread? r = (s.thread? r).map fun th =>
        if r ∈ s.issue.bundle then (List.range count).foldl (fun th k => f k th) th else th
    s.issue.bad = false → s.issue.pc.slot < 2 → s.issue.bump = 0 → s.issue.bundle.Nodup → (∀ r ∈ s.issue.bundle, idle r) →
      (encode i).head? = s.issue.next → s.issue.next ≠ none →
      (∀ a f, twoSource i = some (a, f) → Issuing i s → (∀ w, s.issue.next = some w → w.getLsbD 31 = false) →
        within a.d.toNat fd → (a.w = true → fd = true → count = 1) → (fs = true → a.s.toNat < 64 ∧ within a.s.toNat true) →
        (ft = true → a.t.toNat < 64 ∧ within a.t.toNat true) →
        repeats fun k => guarded a.p fun th => put a.w (a.d + BitVec.ofNat 6 (step fd k))
          (f (th.src (a.s + BitVec.ofNat 7 (step fs k))) (th.src (a.t + BitVec.ofNat 7 (step ft k)))) th) ∧
      (∀ d x k, i = .addi false d x k → ft = false → within d.toNat fd → within x.toNat fs →
        repeats fun j th => put false (d + BitVec.ofNat 6 (step fd j))
          (BitVec.ofInt 32 ((th.reg (x.toNat + step fs j)).toInt + k.toInt)) th)

/-- R66: a REP in slot 2, one whose group is at fault, and one whose target is no word of format A, I or M, is NOP, MOVK, a compare, PLOP or
another REP, has C set, has a latch or a constant in a field that is stepped, or is of format I under S2, raise REP_TARGET; a stepped
register that leaves the thread's registers in some iteration raises ILLEGAL_FIELD.  Nothing is repeated then. -/
def Sys2Proof.Claims.RepChecksItsTarget : Prop :=
  ∀ (s : State) (r : ThreadRef) (tm : Team) (g : Group) (th : Thread) (n : BitVec 6) (fd fs ft : Bool) (l : BitVec 2),
    let i := Instr.rep n fd fs ft l
    let latch (c : BitVec 7) : Prop := 0x40 ≤ c.toNat ∧ c.toNat < 0x7F
    Alone i s r tm g th →
      (s.issue.pc.slot = 2 ∨ s.issue.bad = true ∨ s.issue.next = none → Raised i s r cREP_TARGET) ∧
      (∀ w : Word, s.issue.pc.slot < 2 → s.issue.next = some w →
        let op := (w.extractLsb' 24 7).toNat
        (w.getLsbD 31 = true ∨ op ∈ [0x00, 0x48, 0x49, 0x1C, 0x1D, 0x26, 0x33, 0x7E] ∨ 0x60 ≤ op ∨
          (op < 0x3B ∧ fs = true ∧ latch (w.extractLsb' 10 7)) ∨ (op < 0x3B ∧ ft = true ∧ latch (w.extractLsb' 3 7)) ∨
          (0x40 ≤ op ∧ op < 0x4D ∧ ft = true) → Raised i s r cREP_TARGET) ∧
        (∀ d x k, some w = (encode (.addi false d x k)).head? → s.issue.bad = false → ft = false →
          let last (y : BitVec 6) (on : Bool) : Nat := y.toNat + if on then ((if n = 0 then 64 else n.toNat) - 1) * 2 ^ l.toNat else 0
          (g.nreg ≤ last d fd ∨ g.nreg ≤ last x fs) → Raised i s r cILLEGAL_FIELD))

/-- R63 to R66: what REP repeats, and the checks of its target. -/
def Obligations.RepRepeatsTheNextWord : Prop :=
  RepRepeatsItsTarget ∧ RepChecksItsTarget

/-! # Device events: the memory side -/

namespace Sys2Proof.Claims

/-- A translation of queues and firmware that changes nothing: the flags its entry would get are set (R214). -/
def Mapped (s : State) (ctx va : Nat) (write : Bool) (pa : Nat) : Prop := s.tableWalk ctx va write = (s, .home (.dev pa))

/-- No die holds a replica. -/
def NoReplicas (s : State) : Prop := ∀ d ∈ s.dies, d.replicas = []

/-- A wait of a thread is over when its core has counted cyc front cycles: the core has counted them, its instant is no earlier, and the
thread goes on with the result 0. -/
def GoesOnAt (i : Instr) (s : State) (r : ThreadRef) (core cyc : Nat) : Prop :=
  ∃ ns, (s.core core).ns ≤ ns ∧ (cyc ≤ (s.core core).cyc → ns = (s.core core).ns) ∧ exec i s =
    .next ((s.updCore core fun k => { k with cyc := max k.cyc cyc, ns := ns }).updThread r fun th =>
      { th with status := .ready, grant := some 0 })

/-- Registers after words have landed from register d upward. -/
def Landed (old new : List Word) (d : Nat) (ws : List Word) : Prop :=
  new.length = old.length ∧
    ∀ n, n < old.length → new[n]? = if d ≤ n ∧ n < d + ws.length then ws[n - d]? else old[n]?

end Sys2Proof.Claims

/-- R57, R101, R197: a load in flight lands in its registers, a non-faulting one in its predicate too, and leaves its core; an atomic's is
counted down; a thread that waits for an operand is READY once none of its loads is in flight; a queued write
that no older write and no page lock holds back is performed at its home and counted down, and one that is refused is not
performed and is noted. -/
def Sys2Proof.Claims.LoadsLandAndWritesAreAcknowledged : Prop :=
  ∀ (s : State) (core ix : Nat),
    (∀ l th, (s.core core).loads[ix]? = some l → l.txid = none → s.thread? l.ref = some th →
      ∃ t u, exec (.loadLand core ix) s = .next t ∧ t = { s with cores := t.cores, teams := t.teams } ∧
        t.core core = { s.core core with loads := (s.core core).loads.eraseIdx ix } ∧
        (∀ q, q ≠ l.ref → t.thread? q = s.thread? q) ∧ t.thread? l.ref = some u ∧ Landed th.regs u.regs l.d l.words ∧
        (l.pk = none → u.preds = th.preds) ∧
        (∀ k b, l.pk = some (k, b) → 0 < k → k < 8 → u.pred k = b ∧ ∀ n, n ≠ k → u.pred n = th.pred n) ∧
        (l.ack = none → u.ackAll = th.ackAll ∧ u.ackPkg = th.ackPkg ∧ u.ackScr = th.ackScr) ∧
        (l.ack = some .pkg → u.ackAll = th.ackAll - 1 ∧ u.ackPkg = th.ackPkg - 1) ∧
        (l.ack = some .host → u.ackAll = th.ackAll - 1) ∧
        (th.status ≠ .waiting .pending → u.status = th.status) ∧
        (th.status = .waiting .pending → (∀ k x, k ≠ ix → (s.core core).loads[k]? = some x → x.ref ≠ l.ref) → u.status = .ready) ∧
        u.pc = th.pc) ∧
    (∀ l x, (s.core core).loads[ix]? = some l → l.txid = some x → exec (.loadLand core ix) s = .next s) ∧
    (∀ w, (s.core core).storeq[ix]? = some w → w.txid = none →
      (∀ o ∈ (s.core core).storeq.take ix, o.overlaps w.home w.data.length = false) →
      let rest (s : State) : State := s.updCore core fun k => { k with storeq := k.storeq.eraseIdx ix }
      (∀ pa, w.home = .dev pa → (∀ m ∈ s.migrations, m.ctx ≠ w.ctx ∨ m.page ≠ w.va / 65536) → NoReplicas s →
        (s.dieFenced (paDie pa) = false → ∃ f, Stores f pa w.data ∧ exec (.ackReceive core ix false) s = .next
          ((rest { s with mem := f s.mem }).updThread w.ref fun th =>
            { th with ackAll := th.ackAll - 1, ackPkg := th.ackPkg - 1 })) ∧
        exec (.ackReceive core ix true) s = .next ((rest s).updThread w.ref fun th =>
          { th with ackAll := th.ackAll - 1, ackPkg := th.ackPkg - 1, nackPending := true })) ∧
      (∀ a, w.home = .host a → ∃ f, Stores f a w.data ∧ exec (.ackReceive core ix false) s = .next
        ((rest { s with hostMem := f s.hostMem }).updThread w.ref fun th => { th with ackAll := th.ackAll - 1 })) ∧
      (∀ c o, w.home = .scratch c o → s.coreGone c = false → s.objs = [] → ∃ f, Stores f o w.data ∧
        exec (.ackReceive core ix false) s = .next
          (((rest s).updCore c fun k => { k with scratch := f k.scratch }).updThread w.ref fun th =>
            { th with ackAll := th.ackAll - 1, ackScr := th.ackScr - 1 })))

/-- R332, R352, R361, R86, R67: a thread that waits for a lock tries again; YIELD and SLEEP end when their front cycles have passed; when
the age of a path of the core is past AGEMAX, and only then, the core's next pick is the oldest path; a reserved encoding raises its cause
for the bundle.  A thread in another state is not touched. -/
def Sys2Proof.Claims.WaitsEndAndEncodingsRaise : Prop :=
  ∀ (s : State) (r : ThreadRef) (tm : Team) (th : Thread) (u : Nat), s.team? r.team = some tm → s.thread? r = some th →
    (th.status = .waiting .lock →
      exec (.lockRetry r.team r.tid) s = .next (s.updThread r fun th => { th with status := .ready })) ∧
    (th.status ≠ .waiting .lock → exec (.lockRetry r.team r.tid) s = .next s) ∧
    (th.status = .waiting (.timer false u) → GoesOnAt (.yieldExpiry r.team r.tid) s r tm.core u) ∧
    (th.status = .waiting (.timer true u) → GoesOnAt (.sleepExpiry r.team r.tid) s r tm.core u ∧
      exec (.yieldExpiry r.team r.tid) s = .next s) ∧
    (let co := s.core tm.core
      let paths := pathsOf (s.stands tm.core)
      let late (p : List Stand) : Prop := ∃ x k, p.head? = some x ∧ s.ctx? x.ctx = some k ∧ k.agemax < pathAge co.cyc p
      ((∃ p ∈ paths, late p) →
        exec (.agemaxExceeded tm.core) s = .next (s.updCore tm.core fun k => { k with oldest := true })) ∧
      ((∀ p ∈ paths, ¬ late p) → exec (.agemaxExceeded tm.core) s = .next s) ∧
      (co.oldest = true → ∀ p, s.pickPath tm.core paths = some p → p ∈ paths ∧ ∀ q ∈ paths, pathAge co.cyc q ≤ pathAge co.cyc p)) ∧
    (s.issue.bundle = [r] → ∀ c ∈ [cILLEGAL_OPCODE, cILLEGAL_FIELD, cREP_TARGET],
      exec (.reservedEncoding c) s = .next (s.deliver r c false) ∧ r ∉ (s.deliver r c false).issue.bundle ∧
      (r, c) ∈ (s.deliver r c false).issue.raised)

/-- R89 to R91: when the limit passes at a place of a group at which some threads wait for one that has not arrived, no thread of the
group parked or stopped, the core has counted the cycles that were left of the limit, and the cause is raised for every thread that has
arrived there: CONVERGE_TIMEOUT at a collective, for threads of one mask, and ILLEGAL_CONVERGENCE at a full-group word.  A place
at which a member that is named is parked or stopped, or at which every one has arrived, is not counted. -/
def Sys2Proof.Claims.ConvergenceLimitPasses : Prop :=
  ∀ (s : State) (team gi : Nat) (tm : Team) (g : Group) (pc : Pc) (w : WaitKind) (here : Nat → Bool),
    s.team? team = some tm → tm.state = .resident → tm.groups[gi]? = some g → g.threads.length = 32 → g.stopped = false →
    (∀ l u, g.threads[l]? = some u → if here l then u.status = .waiting w
      else (∀ m, u.status ≠ .waiting (.collective m pc)) ∧ u.status ≠ .waiting (.fullGroup pc)) →
    (∃ l < 32, here l = true) →
      let i := Instr.convergenceTimeout team gi pc.pkt pc.slot
      let idle (u : Thread) : Prop := u.stopped = true ∨ ∃ c, u.status = .parked c
      let raises (full : Bool) (c : Cause) : Prop := ∃ n,
        (g.limits = [] → n = (s.core tm.core).counted + s.limitOf tm) ∧
        (∀ y, g.limits = [y] → y.pc = pc → y.full = full → (∃ l < 32, here l = true ∧ y.arrived.getLsbD l = true) →
          n = (s.core tm.core).counted + (s.limitOf tm - y.count)) ∧
        exec i s = .next (((List.range 32).filter here).foldl (fun s l => s.deliver ⟨team, 32 * gi + l⟩ c false)
          (s.countTo tm.core n))
      let named (l : Nat) : Prop := w = .fullGroup pc ∨ ∃ m, w = .collective m pc ∧ m.getLsbD l = true
      (∀ m, w = .collective m pc → (∀ u ∈ g.threads, ¬ idle u) → (∃ l < 32, named l ∧ here l = false) → raises false cCONVERGE_TIMEOUT) ∧
      (w = .fullGroup pc → (∀ u ∈ g.threads, ¬ idle u) → (∃ l < 32, named l ∧ here l = false) → raises true cILLEGAL_CONVERGENCE) ∧
      (w = .fullGroup pc ∨ (∃ m, w = .collective m pc) → (∃ l u, named l ∧ g.threads[l]? = some u ∧ idle u) ∨ (∀ l < 32, named l → here l = true) →
        exec i s = .next s)

/-- R57, R90, R91, R193 to R197, R332, R352, R361: what ends loads, writes and waits. -/
def Obligations.WorkInFlightEnds : Prop :=
  LoadsLandAndWritesAreAcknowledged ∧ WaitsEndAndEncodingsRaise ∧ ConvergenceLimitPasses

/-! # Device events: host queues -/

namespace Sys2Proof.Claims

/-- The record of one queue becomes new, and no other queue changes. -/
structure QueueIs (s t : State) (fn q : Nat) (new : HostQueue) : Prop where
  this : t.queue fn q = new
  others : ∀ f k, ¬ (f = fn ∧ k = q) → t.queue f k = s.queue f k

/-- The event makes a queue's record new and changes nothing else. -/
def Makes (i : Instr) (s : State) (fn q : Nat) (new : HostQueue) : Prop :=
  ∃ t, exec i s = .next t ∧ t = { s with queues := t.queues } ∧ QueueIs s t fn q new

/-- But for the Sluice counters the dies are as they were (R225). -/
def SameDies (s t : State) : Prop := ∀ d, ({ t.die d with counts := [] } : Die) = { s.die d with counts := [] }

/-- The event completes a packet: its STATUS word (R141) is written at pa in memory m and counted, the queue's record becomes new, and
nothing else changes. -/
def Completes (i : Instr) (s : State) (m : Memory) (pa status : Nat) (fn q : Nat) (new : HostQueue) : Prop :=
  ∃ t f, exec i s = .next t ∧ t = { s with mem := f m, queues := t.queues, dies := t.dies } ∧ SameDies s t ∧
    Stores f pa (leBytes status 4) ∧ QueueIs s t fn q new

/-- Virtual address of packet i of a queue (R139). -/
def packetVa (qu : HostQueue) (i : Word) : Nat := qu.qbase.toNat + 64 * (i.toNat % 2 ^ qu.log2n)

/-- The states in which a context's queues fetch and dispatch (R120, R143). -/
def Fetching (k : Ctx) : Prop := k.state = .ready ∨ k.state = .running ∨ k.state = .preempting ∨ k.state = .checkpointing

/-- A queue of a booted device whose context fetches and keeps no log. -/
structure Serves (s : State) (fn q : Nat) (qu : HostQueue) (k : Ctx) : Prop where
  place : s.booted = true ∧ fn < 256 ∧ q < 16
  queue : s.queue fn q = qu
  ctx : s.ctx? qu.ctxid = some k
  fetching : Fetching k
  log : k.capture = false ∧ k.replay = none
  open_ : qu.frozen = false ∧ qu.halted = false ∧ qu.accs = []
  noReplicas : NoReplicas s ∧ s.fwHeld = []

/-- The queue may fetch its next packet, at pa; every earlier one is complete (R140, R143). -/
structure Fetchable (s : State) (fn q : Nat) (qu : HostQueue) (k : Ctx) (pa : Nat) : Prop where
  serves : Serves s fn q qu k
  on : qu.en = true ∧ s.update = .none
  limit : ∃ n, qu.limit = some n ∧ n ≠ qu.qrd
  empty : qu.pkts = [] ∧ qu.qdone = qu.qrd
  ring : Mapped s qu.ctxid (packetVa qu qu.qrd) false pa

/-- One packet of the queue is not complete, and it is the oldest; the context it was fetched for dispatches. -/
structure Pending (s : State) (fn q : Nat) (qu : HostQueue) (k : Ctx) (p : Packet) : Prop where
  place : s.booted = true ∧ fn < 256 ∧ q < 16
  queue : s.queue fn q = qu
  ctx : s.ctx? p.ctx = some k
  fetching : Fetching k
  quiet : qu.accs = [] ∧ NoReplicas s ∧ s.fwHeld = []
  pkts : qu.pkts = [p]
  oldest : p.index = qu.qdone ∧ p.complete = false

/-- R118, R138, R139: what EN needs of a queue's registers and of its context. -/
def MayEnable (s : State) (qu : HostQueue) : Prop :=
  4 ≤ qu.log2n ∧ qu.log2n ≤ 16 ∧ 64 * 2 ^ qu.log2n ∣ qu.qbase.toNat ∧ 64 ∣ qu.evbase.toNat ∧
    ∃ k, s.ctx? qu.ctxid = some k ∧ (qu.fn = 0 ∨ qu.fn ∈ k.vfs) ∧ (Fetching k ∨ k.state = .saved)

/-- R142: COND of a WAITVAL. -/
def condMet (cond x v : Nat) : Prop :=
  match cond with
  | 0 => x = v
  | 1 => x ≠ v
  | 2 => v ≤ x
  | _ => x < v

end Sys2Proof.Claims

/-- R139, R140, R143: QNOTIFY and the four effects of a QCTL write.  A notify is accepted exactly under R140's conditions, and a refused
one only sets NOTERR; EN is set when the registers and the context allow it, with the other fields taken while EN is 0, and else the
write only sets NOTERR (that it takes no other field is the model's choice, log entry 36); EN = 0 discards the limit; RESUME and SKIP end a
halt, SKIP by completing the halting packet SKIPPED at the address it was fetched from, a limit that stood at it going on with QRD (the
model's choice too, log entry 36); both at once are refused. -/
def Sys2Proof.Claims.QueueControl : Prop :=
  ∀ (s : State) (fn q : Nat) (v : Word) (qu : HostQueue), s.booted = true → fn < 256 → q < 16 → s.queue fn q = qu →
    let fits := (v - qu.qrd).toNat ≤ 2 ^ qu.log2n ∧ (v - qu.qdone).toNat ≤ 2 ^ qu.log2n
    let fields (k : HostQueue) : HostQueue :=
      { k with log2n := v.toNat / 2 ^ 16 % 32, ctxid := v.toNat / 2 ^ 8 % 256, inbound := v.getLsbD 7 }
    (qu.en = true ∧ qu.inbound = false ∧ fits → Makes (.qnotify fn q v) s fn q { qu with limit := some v }) ∧
    (¬ (qu.en = true ∧ qu.inbound = false ∧ fits) → Makes (.qnotify fn q v) s fn q { qu with noterr := true }) ∧
    (v.getLsbD 5 = true → v.getLsbD 6 = true → ∀ i ∈ [Instr.qctlResume, Instr.qctlSkip],
      Makes (i fn q v) s fn q { qu with noterr := true }) ∧
    (v.getLsbD 5 = false → v.getLsbD 6 = false → v.getLsbD 4 = true →
      (qu.en = false → MayEnable s (fields qu) →
        Makes (.qctlEnable fn q v) s fn q { fields qu with en := true, limit := none }) ∧
      (qu.en = false → ¬ MayEnable s (fields qu) → Makes (.qctlEnable fn q v) s fn q { qu with noterr := true }) ∧
      (qu.en = true → Makes (.qctlEnable fn q v) s fn q qu)) ∧
    (v.getLsbD 5 = false → v.getLsbD 6 = false → v.getLsbD 4 = false →
      (qu.en = true → Makes (.qctlDisable fn q v) s fn q { qu with en := false, limit := none }) ∧
      (qu.en = false → Makes (.qctlDisable fn q v) s fn q { fields qu with limit := none })) ∧
    (v.getLsbD 5 = true → v.getLsbD 6 = false → v.getLsbD 4 = true → qu.en = true →
      Makes (.qctlResume fn q v) s fn q { qu with halted := false }) ∧
    (∀ pa, v.getLsbD 5 = false → v.getLsbD 6 = true → v.getLsbD 4 = true → qu.en = true → qu.halted = true → qu.pkts = [] →
      qu.qdone = qu.qrd → qu.accs = [] → NoReplicas s → s.fwHeld = [] → Mapped s qu.haltAt.1 (qu.haltAt.2 + 4) true pa →
      Completes (.qctlSkip fn q v) s s.mem pa 10 fn q { qu with
        halted := false, qrd := qu.qrd + 1, qdone := qu.qdone + 1
        limit := if qu.limit = some qu.qrd then some (qu.qrd + 1) else qu.limit })

/-- R141 to R144: fetching the next packet of a queue.  A NOP completes DONE; a LAUNCH whose record keeps R155 starts a launch with its
fields, and runs its context; SIGNAL and CHECKPOINT are held; a WAITVAL waits; a reserved TYPE is MALFORMED, halts the queue and is
told, QRD staying at it. -/
def Sys2Proof.Claims.PacketsAreFetched : Prop :=
  ∀ (s : State) (fn q : Nat) (qu : HostQueue) (k : Ctx) (pa : Nat), Fetchable s fn q qu k pa →
    let b := s.mem.readBytes pa 64
    let took (ty : Nat) (body : List Byte) (held : Bool) : HostQueue :=
      { qu with qrd := qu.qrd + 1, pkts := [⟨qu.ctxid, qu.qrd, packetVa qu qu.qrd, ty, body, held, false, s.now⟩] }
    (∀ st, Mapped s qu.ctxid (packetVa qu qu.qrd + 4) true st → fieldAt b 0 4 = 0 → zeroAt b 8 56 = true →
      Completes (.packetNop fn q) s s.mem st 1 fn q { qu with qrd := qu.qrd + 1, qdone := qu.qdone + 1 }) ∧
    (∀ ra, fieldAt b 0 4 = 1 → 256 ∣ fieldAt b 8 8 → Mapped s qu.ctxid (fieldAt b 8 8) false ra →
      let rb := s.mem.readBytes ra 256
      let rc := LaunchRec.of rb
      recordOk rb k.sysok = true → rc.cor = false → (rc.image + 65536) * rc.shx * rc.shy ≤ k.savesz →
      ∃ t la, exec (.packetLaunch fn q) s = .next t ∧
        t = { s with queues := t.queues, launches := s.launches ++ [la], ctxs := t.ctxs, serial := s.serial + 1 } ∧
        QueueIs s t fn q (took 1 (b ++ rb) false) ∧ la.recd = rc ∧ la.ctx = qu.ctxid ∧ la.fn = fn ∧ la.q = q ∧ la.pkt = qu.qrd ∧
        la.state = .running ∧ la.det = (rc.det || k.det) ∧ la.args.toNat = fieldAt b 16 8 ∧ la.sigval.toNat = fieldAt b 56 8 ∧
        la.sh = (List.range 8).map (fun i => BitVec.ofNat 32 (fieldAt b (24 + 4 * i) 4)) ∧
        la.next = 0 ∧ la.todo = [] ∧ la.endedTeams = 0 ∧ la.killed = 0 ∧
        (t.ctx? qu.ctxid).map Ctx.state = some (if k.state = .ready then .running else k.state) ∧
        ∀ c, c ≠ qu.ctxid → t.ctx? c = s.ctx? c) ∧
    (fieldAt b 0 4 = 2 → 8 ∣ fieldAt b 8 8 → fieldAt b 8 8 < 2 ^ 56 → fieldAt b 24 4 < 16 → 3 ≤ fieldAt b 24 4 % 8 → fieldAt b 24 4 % 8 ≤ 5 →
      zeroAt b 28 36 = true → Makes (.packetSignal fn q) s fn q (took 2 b true)) ∧
    (fieldAt b 0 4 = 3 → 8 ∣ fieldAt b 8 8 → fieldAt b 8 8 < 2 ^ 56 → fieldAt b 24 4 < 4 → zeroAt b 32 32 = true →
      Makes (.packetWaitval fn q) s fn q (took 3 b false)) ∧
    (fieldAt b 0 4 = 4 → fieldAt b 8 4 < 2 → zeroAt b 12 52 = true → Makes (.packetCheckpoint fn q) s fn q (took 4 b true)) ∧
    (∀ st, Mapped s qu.ctxid (packetVa qu qu.qrd + 4) true st → 5 ≤ fieldAt b 0 1 →
      ∃ t f, exec (.reservedTypePacket fn q) s = .next t ∧ Stores f st (leBytes 9 4) ∧
        SameDies s t ∧ t = { s with
          mem := f s.mem, queues := t.queues, dies := t.dies
          notices := s.notices ++ [⟨"MALFORMED_PACKET", [packetVa qu qu.qrd, fn, q]⟩] } ∧
        QueueIs s t fn q { qu with halted := true, haltAt := (qu.ctxid, packetVa qu qu.qrd) })

/-- R142, R143: the oldest packet of a queue: a held NOP completes; a SIGNAL stores its VALUE, or adds it to the 8 bytes at its ADDR, and
completes; a CHECKPOINT in a context without checkpoints completes NOCKPT; a WAITVAL completes once its word meets its condition, and
stays until then; a TIMEOUT other than 0 ends it. -/
def Sys2Proof.Claims.PacketsComplete : Prop :=
  ∀ (s : State) (fn q : Nat) (qu : HostQueue) (k : Ctx) (p : Packet), Pending s fn q qu k p →
    let b := p.body
    let done : HostQueue := { qu with pkts := [], qdone := qu.qdone + 1 }
    (∀ st, Mapped s p.ctx (p.addr + 4) true st →
      (p.type = 0 → p.held = true → Completes (.heldPacketDispatch fn q) s s.mem st 1 fn q done) ∧
      (p.type = 4 → k.ckpt = false → Completes (.heldPacketDispatch fn q) s s.mem st 8 fn q done) ∧
      (∀ pa, p.type = 3 → p.held = false → Mapped s p.ctx (fieldAt b 8 8) false pa → fieldAt b 24 4 < 4 →
        let x := leNat (s.mem.readBytes pa 8)
        (condMet (fieldAt b 24 4) x (fieldAt b 16 8) → Completes (.waitvalMet fn q) s s.mem st 1 fn q done) ∧
        (¬ condMet (fieldAt b 24 4) x (fieldAt b 16 8) → exec (.waitvalMet fn q) s = .next s)) ∧
      (p.type = 3 → p.held = false → fieldAt b 28 4 ≠ 0 → Completes (.waitvalTimeout fn q) s s.mem st 7 fn q done) ∧
      (p.type = 3 → p.held = false → fieldAt b 28 4 = 0 → exec (.waitvalTimeout fn q) s = .next s)) ∧
    (∀ pa st, p.type = 2 → Mapped s p.ctx (fieldAt b 8 8) true pa →
      let v := fieldAt b 16 8
      let x := if fieldAt b 24 4 / 8 % 2 = 1 then (leNat (s.mem.readBytes pa 8) + v) % 2 ^ 64 else v
      let m := s.mem.writeBytes pa (leBytes x 8)
      Mapped { s with mem := m } p.ctx (p.addr + 4) true st →
        ∃ t f, exec (.heldPacketDispatch fn q) s = .next t ∧ t = { s with mem := f m, queues := t.queues, dies := t.dies } ∧
          Stores f st (leBytes 1 4) ∧ QueueIs s t fn q done ∧ SameDies s t)

/-- R139 to R144: packets of a queue, from their fetch to their STATUS. -/
def Obligations.PacketsAreFetchedAndComplete : Prop :=
  PacketsAreFetched ∧ PacketsComplete

/-- R139, R146, R147, R152: register writes of a queue, a function-level reset without launches in progress, a thaw, and the
tenant table.  That the route table is written as register space 1 is the model's choice (log entry 24). -/
def Sys2Proof.Claims.QueueRegistersAndFunctions : Prop :=
  ∀ (s : State) (fn : Nat), s.booted = true → fn < 256 →
    (∀ q v qu, q < 16 → s.queue fn q = qu →
      let reg (off : Nat) : Instr := .registerWrite 0 fn (0x1000 + 256 * q + off) v
      (qu.en = false → Makes (reg 0x00) s fn q { qu with qbase := v } ∧ Makes (reg 0x20) s fn q { qu with evbase := v }) ∧
      (qu.en = true → Makes (reg 0x00) s fn q qu ∧ Makes (reg 0x20) s fn q qu) ∧
      Makes (reg 0x2C) s fn q { qu with evrd := v.extractLsb' 0 32 } ∧
      Makes (reg 0x18) s fn q { qu with noterr := qu.noterr && !v.getLsbD 3, evlost := qu.evlost && !v.getLsbD 4 }) ∧
    (∀ dst mask, dst < 4096 → exec (.registerWrite 1 fn dst mask) s =
      .next { s with routes := (dst, mask.extractLsb' 0 16) :: s.routes.filter fun r => r.1 != dst }) ∧
    ((∀ l ∈ s.launches, l.fn ≠ fn) → (∀ k ∈ s.queues, k.fn = fn → k.halted = false ∧ k.pkts = []) → s.updating = false →
      ∃ t, exec (.functionLevelReset fn) s = .next t ∧ t = { s with queues := t.queues, killRecs := t.killRecs } ∧
        (∀ q, t.queue fn q = HostQueue.blank fn q) ∧ (∀ f q, f ≠ fn → t.queue f q = s.queue f q) ∧
        ∀ x, x ∈ t.killRecs ↔ x ∈ s.killRecs ∧ x.1 ≠ fn) ∧
    (∀ x y, s.update = .handed x y → exec (.functionLevelReset fn) s = .next { s with heldResets := s.heldResets ++ [fn] }) ∧
    (∃ t, exec (.queueThaw fn) s = .next t ∧ t = { s with queues := t.queues } ∧
      (∀ q, t.queue fn q = { s.queue fn q with frozen := false, accs := (s.queue fn q).accs.filter fun a => !a.hold }) ∧
      ∀ f q, f ≠ fn → t.queue f q = s.queue f q) ∧
    (∀ (ix : Nat) (va fz : Bool) (sd : BitVec 12) (tag : BitVec 16) (lo hi : BitVec 56) (fu : BitVec 8) (qu : BitVec 4)
        (mx : BitVec 32), ix < 256 →
      ∃ t, exec (.tenantTableWrite ix va fz sd tag lo hi fu qu mx) s = .next t ∧ t = { s with tenants := t.tenants } ∧
        (∀ x, x.ix = ix → (x ∈ t.tenants ↔ x = ⟨ix, va, fz, sd, tag, lo, hi, fu, qu, mx⟩)) ∧
        ∀ x, x.ix ≠ ix → (x ∈ t.tenants ↔ x ∈ s.tenants))

/-- R139 to R147, R152: the registers of host queues and functions. -/
def Obligations.QueuesAreControlled : Prop :=
  QueueControl ∧ QueueRegistersAndFunctions

/-! # Device events: launches, objects, the loss of units -/

namespace Sys2Proof.Claims

/-- Heron may place clusters of a launch: it is RUNNING and so is its context (R120, R166). -/
def Placeable (s : State) (l : Launch) : Prop :=
  l.state = .running ∧ ∃ k, s.ctx? l.ctx = some k ∧ k.state = .running

/-- A fresh team stands at position p of cluster cix, placed at origin o (R82, R156, R159). -/
def PlacedAt (t : State) (l : Launch) (cix o p : Nat) (tm : Team) : Prop :=
  tm ∈ t.teams ∧ tm.launch = l.id ∧ tm.ctx = l.ctx ∧ tm.cix = cix ∧ tm.clx = p ∧ tm.core = o + p % l.recd.shx + 8 * (p / l.recd.shx) ∧
    tm.state = .resident ∧ tm.scrsz = l.recd.scrsz ∧ tm.opens = [] ∧ tm.syncs = List.replicate 32 SyncObj.fresh ∧
    (∀ a, tm.winBase ≤ a → a < tm.winBase + tm.scrsz → (t.core tm.core).scratch.read a = 0) ∧
    ∀ g ∈ tm.groups, g.causes = 0 ∧ g.threads.length = 32 ∧ ∀ th ∈ g.threads, th.status = .ready ∧ th.preds = 0 ∧
      th.regs = List.replicate g.nreg 0 ∧ th.seltag = 0x0000FFFF ∧ th.selg = 0x00003F80 ∧ th.record = []

/-- The object's record becomes ob, and no other object changes. -/
structure ObjectIs (s t : State) (ctx : Nat) (name : DWord) (ob : Obj) : Prop where
  this : t.obj? ctx name = some ob
  others : ∀ c n, ¬ (c = ctx ∧ n = name) → t.obj? c n = s.obj? c n

/-- Nothing is queued or in flight on a core. -/
def Emptied (k : Core) : Prop :=
  k.storeq = [] ∧ k.loads = [] ∧ k.copies = [] ∧ k.twq = [] ∧ k.engq = [] ∧ k.engRun = [] ∧ k.ranges = [] ∧ k.locks = [] ∧ k.l1 = []

end Sys2Proof.Claims

/-- R159 to R162, R166, R173: a die takes up to 16 consecutive clusters, unless the context is SAVED or FROZEN, and the master copies its
table; the lowest of them is placed on the first rectangle with room, its teams
fresh; a COR reservation that is complete places its clusters and starts a first step of them; a round in which a drawn cluster found no
room near its object is counted, and the next begins. -/
def Sys2Proof.Claims.ClustersAreDispatched : Prop :=
  ∀ (s : State) (id die : Nat) (l : Launch), s.launch? id = some l →
    (l.state = .running → l.recd.cor = false → l.det = false → l.draw = none → (∀ q ∈ l.todo, q.1 ≠ die) → l.next < l.ncl →
      s.launchHeld l = false → s.dieEligible l die = true → s.rectFor l die none false ≠ none →
      let n := min 16 (l.ncl - l.next)
      exec (.chunkRequest id die) s = .next (s.updLaunch id fun k => { k with
        next := k.next + n, chunks := k.chunks ++ [(die, l.next, n)], copyDie := s.dieAfter k.master
        copy := (k.chunks ++ [(die, l.next, n)], (s.clusters.filter fun c => c.launch = id && c.ended).map Cluster.cix)
        todo := k.todo ++ (List.range n).map (fun i => (die, l.next + i)), turn := k.turn + 1 })) ∧
    (∀ cix o, Placeable s l → l.recd.cor = false → l.plan = [] → l.draw = none →
      (s.die die).placedThisStep < (s.die die).stepSize (l.recd.shx * l.recd.shy) →
      (die, cix) ∈ l.todo → (∀ c, (die, c) ∈ l.todo → cix ≤ c) →
      s.rectFor l die none false = some o → s.imageRoom l (rectCores l.recd.shx l.recd.shy o) = true →
      ∃ t c, exec (.clusterPlace id die) s = .next t ∧ t.clusters = s.clusters ++ [c] ∧ c.launch = id ∧ c.cix = cix ∧ c.origin = o ∧
        c.ended = false ∧ c.syncs = List.replicate 16 SyncObj.fresh ∧ t.mem = s.mem ∧
        (t.launch? id).map Launch.todo = some (l.todo.filter fun q => q.2 != cix) ∧
        (l.recd.shx = 1 → l.recd.shy = 1 → ∃ tm, t.teams = s.teams ++ [tm] ∧ PlacedAt t l cix o 0 tm)) ∧
    (∀ o, Placeable s l → l.recd.cor = true → l.plan = [o] → l.started = [] → (∀ c ∈ s.clusters, c.launch ≠ id) →
      (∀ c ∈ rectCores l.recd.shx l.recd.shy o, s.room l c false ≠ none) →
      s.imageRoom l (rectCores l.recd.shx l.recd.shy o) = true →
      ∃ t c, exec (.corReservationComplete id) s = .next t ∧ t.clusters = s.clusters ++ [c] ∧ c.cix = 0 ∧ c.origin = o ∧
        (t.launch? id).map Launch.plan = some [] ∧ (t.launch? id).map Launch.started = some [0] ∧ t.mem = s.mem) ∧
    (∀ name h, Placeable s l → l.recd.cor = false → l.plan = [] → l.draw = some name → s.drawHolder l name = some h →
      (∃ c, (dieOf h, c) ∈ l.todo) → s.rectFor l (dieOf h) (some h) false = none → s.rectFor l (dieOf h) (some h) true = none →
      l.rounds + 1 < l.recd.waitmax →
      exec (.dispatchRoundExpiry id) s = .next (s.updLaunch id fun k => { k with
        rounds := k.rounds + 1, roundFrom := max 1 (s.cycAt h s.now) }))

/-- R109, R141, R164: when its last team has ended and its writes are performed, a launch stores SIGVAL, if it asks for it and no team was
killed, and then its packet completes DONE, or FAILED with the number of teams killed; it is gone with its teams.  A killed team whose
work has drained has ended, and its launch counts it. -/
def Sys2Proof.Claims.LaunchesAndKilledTeamsEnd : Prop :=
  ∀ (s : State),
    (∀ (id : Nat) (l : Launch) (qu : HostQueue) (p : Packet) (st sa : Nat), s.launch? id = some l → l.state = .running → s.launchHeld l = false →
      s.queue l.fn l.q = qu → qu.pkts = [p] → p.index = l.pkt → p.ctx = l.ctx → p.complete = false → qu.qdone = l.pkt → qu.accs = [] →
      s.killRecs = [] → s.fwHeld = [] → NoReplicas s → s.launchOver l = true → l.dieLost = false → s.launchDrained l = true →
      (∀ x ∈ s.teams, x.launch = id → x.state = .ended) →
      (l.killed = 0 → l.recd.sigaddr ≠ 0 → Mapped s l.ctx l.recd.sigaddr.toNat true sa) →
      let m := if l.killed = 0 ∧ l.recd.sigaddr ≠ 0 then s.mem.writeBytes sa (leBytes l.sigval.toNat 8) else s.mem
      Mapped { s with mem := m } l.ctx (p.addr + 4) true st →
      ∃ t f, exec (.launchComplete id) s = .next t ∧
        Stores f st (leBytes (if l.killed = 0 then 1 else 2 + 256 * l.killed) 4) ∧ t.mem = f m ∧ t.hostMem = s.hostMem ∧
        QueueIs s t l.fn l.q { qu with pkts := [], qdone := qu.qdone + 1 } ∧ t.launch? id = none ∧
        (∀ x ∈ t.teams, x.launch ≠ id) ∧ (∀ i, i ≠ id → t.launch? i = s.launch? i) ∧ t.cores = s.cores) ∧
    (∀ (id : Nat) (tm : Team) (la : Launch), s.team? id = some tm → tm.state = .killing → s.teamBusy id = false →
      s.launch? tm.launch = some la → la.state = .running →
      ∃ t x, exec (.teamKillDrained id) s = .next t ∧ t.team? id = some x ∧ x.state = .ended ∧ x.opens = [] ∧
        ((∀ k, s.ctx? tm.ctx = some k → k.state = .running) → t.mem = s.mem ∧ t.hostMem = s.hostMem) ∧ (∀ k ∈ t.cores, ∀ lk ∈ k.locks, lk.holder.team ≠ id) ∧
        (t.launch? tm.launch).map Launch.endedTeams = some (la.endedTeams + 1)) ∧
    (∀ (id : Nat) (tm : Team), s.team? id = some tm → (tm.state ≠ .killing ∨ s.teamBusy id = true) →
      exec (.teamKillDrained id) s = .next s)

/-- R98, R109, R156 to R161, R173: clusters are handed out and placed, and launches and killed teams end. -/
def Obligations.LaunchesRunAndEnd : Prop :=
  ClustersAreDispatched ∧ LaunchesAndKilledTeamsEnd

/-- R169, R174 to R177: a move's copy waits for what still writes into the object, takes its bytes to the target and zeroes the source; a restore takes them from the mirror,
or from the save area, whose copy of a spilled object the model keeps beside the object, in Obj.backing (log entry 33); the object is
then RESIDENT there, and a team that handed it on has it no more.  R168: The entries that a rebuilt die takes over are complete. -/
def Sys2Proof.Claims.ObjectCopiesComplete : Prop :=
  ∀ (s : State) (ctx : Nat) (name : DWord) (ob : Obj), s.obj? ctx name = some ob → ob.doomed = false →
    (∀ k ∈ s.cores, k.scratch.wf = true) →
    (ob.state = .moving → ob.forLaunch = none → ob.holder ≠ ob.target →
      let busy := (s.core ob.holder).rangeBusy ob.base ob.size = true ∨
        (∃ c ∈ s.cores, c.remoteBusy ob.holder ob.base ob.size = true) ∨
        ∃ x ∈ s.teams, x.ctx = ctx ∧ ∃ j ∈ (s.core ob.holder).twq ++ x.savedJobs, ob.jobWrites x j = true
      (busy → exec (.objectCopyComplete ctx name) s = .next s) ∧
      (¬ busy →
        ∃ t, exec (.objectCopyComplete ctx name) s = .next t ∧ t = { s with cores := t.cores, objs := t.objs, launches := t.launches, teams := t.teams } ∧
          (t.teams = s.teams.map fun x => if x.ctx = ctx then
            { x with opens := x.opens.filter fun q => !(q.name = name && q.handed) } else x) ∧
          (dieOf ob.target = dieOf ob.holder ∨ (∀ l ∈ s.launches, l.ctx = ctx → l.draw ≠ some name) → t.launches = s.launches) ∧
          ObjectIs s t ctx name { ob with
            state := .resident, holder := ob.target, base := ob.targetBase, target := 0, targetBase := 0, forLaunch := none } ∧
          (∀ i, i < ob.size → (t.core ob.target).scratch.read (ob.targetBase + i) = (s.core ob.holder).scratch.read (ob.base + i)) ∧
          (∀ i, i < ob.size → (t.core ob.holder).scratch.read (ob.base + i) = 0) ∧
          (∀ a, a < ob.targetBase ∨ ob.targetBase + ob.size ≤ a →
            (t.core ob.target).scratch.read a = (s.core ob.target).scratch.read a) ∧
          ∀ c, c ≠ ob.holder → c ≠ ob.target → t.core c = s.core c)) ∧
    (ob.state = .restoring → ∀ f : Nat → Byte,
      (ob.mirror = none → ob.backing.wf = true ∧ (∀ c ∈ ob.backing, c.1 < ob.size) ∧ ∀ i, i < ob.size → f i = ob.backing.read i) →
      (∀ m, ob.mirror = some m → ∃ n, ob.size = 256 * n ∧ ∀ b, b < n → ∃ pa, Mapped s ctx (m + 256 * b) false pa ∧
        ∀ j, j < 256 → f (256 * b + j) = s.mem.read (pa + j)) →
      ∃ t, exec (.objectRestoreComplete ctx name) s = .next t ∧ t = { s with cores := t.cores, objs := t.objs } ∧
        ObjectIs s t ctx name { ob with state := .resident, k := 0, backing := [], dirty := [], forLaunch := none } ∧
        (∀ i, i < ob.size → (t.core ob.holder).scratch.read (ob.base + i) = f i) ∧
        (∀ a, a < ob.base ∨ ob.base + ob.size ≤ a → (t.core ob.holder).scratch.read a = (s.core ob.holder).scratch.read a) ∧
        ∀ c, c ≠ ob.holder → t.core c = s.core c) ∧
    (∀ die, ∃ t, exec (.directoryRebuildComplete die) s = .next t ∧ t = { s with dies := t.dies } ∧
      ∀ d, t.die d = { s.die d with
        rebuilding := if (s.die d).fenced = true ∧ homeFrom (fun x => !s.dieFenced x) d = die then false else (s.die d).rebuilding })

/-- R18, R162, R163, R179, R230: a core or a die that is lost is fenced and noted in secure flash, and what it had in flight is gone; a team of a lost
core whose launch is not to be issued again ends with DIE_LOST and counts as killed; clusters handed to a lost die and not placed are
handed out again, a launch's master that was there gives way to the lowest live die with the copy of the chunk table, and the application
cores are told of the channels that are gone. -/
def Sys2Proof.Claims.UnitsAreLost : Prop :=
  ∀ (s : State), s.objs = [] → (∀ l ∈ s.launches, l.plan = []) →
    (∀ core, core < 64 * 256 → core % 256 < 48 → (s.core core).fenced = false →
      ((∀ x ∈ s.teams, x.core ≠ core ∨ x.state = .ended ∨ x.state = .swapped) →
        ∃ t, exec (.coreLost core) s = .next t ∧ t = { s with cores := t.cores, flash := t.flash } ∧
          t.flash.disabled = s.flash.disabled.filter (· != core) ++ [core] ∧ (t.core core).fenced = true ∧ Emptied (t.core core) ∧
          (t.core core).scratch = (s.core core).scratch ∧ ∀ c, c ≠ core → t.core c = s.core c) ∧
      (∀ tm la, s.team? tm.id = some tm → s.teams.filter (fun x => x.core = core) = [tm] → tm.state = .resident →
        s.launch? tm.launch = some la → la.recd.reissue = false →
        ∃ t x, exec (.coreLost core) s = .next t ∧ (t.core core).fenced = true ∧ Emptied (t.core core) ∧
          ((∀ k, s.ctx? tm.ctx = some k → k.state = .running) → t.mem = s.mem) ∧
          t.team? tm.id = some x ∧ x.state = .ended ∧ (∃ bs, t.killRecs = s.killRecs ++ [(la.fn, la.q, bs)] ∧ bs.getD 1 0 = cDIE_LOST) ∧
          ∃ lb, t.launch? tm.launch = some lb ∧ lb.killed = la.killed + 1 ∧ lb.endedTeams = la.endedTeams + 1)) ∧
    (∀ core, (s.core core).fenced = true → exec (.coreLost core) s = .next s) ∧
    (∀ die, die < 64 → (s.die die).fenced = false →
      ∃ t, exec (.dieFence die) s = .next t ∧ (t.die die).fenced = true ∧
        t.flash.disabled = s.flash.disabled.filter (· != 2 ^ 16 + die) ++ [2 ^ 16 + die] ∧
        ⟨"HOST_CHANNELS_LOST", [die, 44, 45, 46, 47]⟩ ∈ t.notices ∧
        (∀ f ∈ t.frames, paDie f ≠ die) ∧ (∀ m ∈ t.migrations, paDie m.src ≠ die ∧ paDie m.dst ≠ die) ∧
        (∀ k ∈ t.cores, dieOf k.id = die → Emptied k) ∧
        (s.ctxs = [] → s.pageReqs = [] → (s.launches.map Launch.id).Nodup →
          (∀ c ∈ s.clusters, c.ended = false → dieOf c.origin ≠ die) →
          t.mem = s.mem ∧ t.teams = s.teams ∧ (∀ c, dieOf c ≠ die → t.core c = s.core c) ∧
          (∀ id, s.launch? id = none → t.launch? id = none) ∧
          ∀ id l, s.launch? id = some l → ∃ lb, t.launch? id = some lb ∧ lb = { l with
              todo := l.todo.filter fun q => q.1 != die
              again := l.again ++ (l.todo.filter fun q => q.1 = die).map Prod.snd
              master := lb.master, copyDie := lb.copyDie, copy := lb.copy, chunks := lb.chunks } ∧
            (l.master ≠ die → lb.master = l.master ∧ lb.chunks = l.chunks) ∧
            (l.master = die → (l.copyDie ≠ none → lb.chunks = l.copy.1) ∧
              ∀ d, d < 64 → d ≠ die → (s.die d).fenced = false → lb.master ≤ d))) ∧
    (∀ die, (s.die die).fenced = true → exec (.dieFence die) s = .next s)

/-- R163, R172 to R179: copies of objects complete, and a core or a die is lost. -/
def Obligations.ObjectsMoveAndUnitsAreLost : Prop :=
  ObjectCopiesComplete ∧ UnitsAreLost

/-! # Device events: contexts -/

namespace Sys2Proof.Claims

/-- A context goes to a state, and no other context changes. -/
structure CtxGoes (s t : State) (ctx : Nat) (x : CtxState) : Prop where
  this : ∃ k, t.ctx? ctx = some k ∧ k.state = x
  others : ∀ c, c ≠ ctx → t.ctx? c = s.ctx? c

/-- %PREQ of a context on a core, as a request sets it (R123). -/
def requested (s : State) (ctx core : Nat) (ckpt : Bool) : Preq := ⟨ctx, true, ckpt, (s.core core).cyc⟩

/-- The registers of every thread of a team, group by group. -/
def teamRegs (tm : Team) : List (List (List Word)) := tm.groups.map fun g => g.threads.map Thread.regs

/-- The address lies in an entry of a leaf of the page table. -/
def InLeafEntry (ls : List (Nat × Nat × DWord × Nat)) (a : Nat) : Prop := ∃ q ∈ ls, q.2.2.2 ≤ a ∧ a < q.2.2.2 + 8

/-- The address lies in a frame of package memory that a leaf maps. -/
def InLeafFrame (ls : List (Nat × Nat × DWord × Nat)) (a : Nat) : Prop :=
  ∃ q ∈ ls, pteKind q.2.2.1 = 0 ∧ pteAddr q.2.2.1 ≤ a ∧ a < pteAddr q.2.2.1 + 2 ^ levelShift q.1

/-- No thread of the team is in the middle of an issue group. -/
def Between (tm : Team) : Prop := ∀ g ∈ tm.groups, ∀ th ∈ g.threads, th.before = none

/-- The team is resident again at a core and window base: its window's bytes and its registers are as they were saved (R98). -/
def BackAt (t : State) (id core base : Nat) (tm : Team) : Prop :=
  ∃ x, t.team? id = some x ∧ x.state = .resident ∧ x.core = core ∧ x.winBase = base ∧ teamRegs x = teamRegs tm ∧ x.forced = false ∧
    x.savedWin = [] ∧ ∀ i, i < tm.scrsz → (t.core core).scratch.read (base + i) = tm.savedWin.read i

end Sys2Proof.Claims

/-- R118, R119: a descriptor that keeps R118 and whose id is free binds a READY context with its fields; a configuration write is taken as a
whole when the descriptor it gives keeps R118, in any state for the limits and MODES and else only while READY or SAVED; CTXID never
changes; in a descriptor MODES of zero stand for the defaults (log entry 21), a write never leaves them zero, and the context's DET
counts for its launches.  Another descriptor or write is
refused and changes nothing. -/
def Sys2Proof.Claims.ContextsAreBoundAndConfigured : Prop :=
  ∀ (s : State),
    (∀ b : List Byte, s.booted = true → descOk b = true → s.ctx? (fieldAt b 0 4) = none →
      ∃ t k, exec (.contextCreate b) s = .next t ∧ t = { s with ctxs := s.ctxs ++ [k] } ∧ k.id = fieldAt b 0 4 ∧ k.state = .ready ∧
        k.ptroot = fieldAt b 8 8 ∧ k.codebase = fieldAt b 16 8 ∧ k.savebase = fieldAt b 24 8 ∧ k.savesz = fieldAt b 32 8 ∧
        k.agemax = (if fieldAt b 40 4 = 0 then 256 else fieldAt b 40 4) ∧
        k.convlim = (if fieldAt b 44 4 = 0 then 1048576 else fieldAt b 44 4) ∧
        k.swapfrac = (if fieldAt b 48 4 = 0 then 50 else fieldAt b 48 4) ∧
        k.swapcyc = (if fieldAt b 52 4 = 0 then 65536 else fieldAt b 52 4) ∧
        k.pdefault = (if fieldAt b 56 4 = 0 then 131072 else fieldAt b 56 4) ∧ k.ntag.toNat = fieldAt b 60 2 ∧
        k.capture = decide (fieldAt b 4 4 % 2 = 1) ∧ k.det = decide (fieldAt b 4 4 / 2 % 2 = 1) ∧
        k.sysok = decide (fieldAt b 4 4 / 4 % 2 = 1) ∧ k.ckpt = decide (fieldAt b 4 4 / 8 % 2 = 1) ∧
        (∀ c v, k.modes[c]? = some v →
          v = if zeroAt b 64 64 = true then defaultMode c else fieldAt b (64 + c / 4) 1 / 4 ^ (c % 4) % 4) ∧
        k.vfs = [] ∧ k.gens = [] ∧ k.replay = none) ∧
    (∀ b : List Byte, (s.booted = false ∨ descOk b = false ∨ s.ctx? (fieldAt b 0 4) ≠ none) →
      exec (.contextCreate b) s = .next (s.tell "CONTEXT_REFUSED" [fieldAt b 0 4])) ∧
    (∀ (ctx off : Nat) (bytes : List Byte) (k : Ctx), s.ctx? ctx = some k →
      let n := off + bytes.length
      let b := k.desc.take off ++ bytes ++ k.desc.drop n
      let allowed := n ≤ 512 ∧ ((40 ≤ off ∧ n ≤ 60) ∨ (64 ≤ off ∧ n ≤ 128) ∨ k.state = .ready ∨ k.state = .saved) ∧
        fieldAt b 0 4 = ctx ∧ zeroAt b 64 64 = false ∧ descOk b = true
      (allowed → ∃ t k', exec (.contextConfigWrite ctx off bytes) s = .next t ∧ t = { s with ctxs := t.ctxs, launches := t.launches } ∧
        t.ctx? ctx = some k' ∧ k'.desc = b ∧ k'.state = k.state ∧ k'.gens = k.gens ∧ k'.vfs = k.vfs ∧ k'.ptroot = fieldAt b 8 8 ∧
        k'.agemax = (if fieldAt b 40 4 = 0 then 256 else fieldAt b 40 4) ∧
        (∀ c v, k'.modes[c]? = some v → v = fieldAt b (64 + c / 4) 1 / 4 ^ (c % 4) % 4) ∧
        t.launches = s.launches.map (fun l => if l.ctx = ctx then { l with det := l.recd.det || k'.det } else l) ∧
        ∀ c, c ≠ ctx → t.ctx? c = s.ctx? c) ∧
      (¬ allowed → exec (.contextConfigWrite ctx off bytes) s = .next (s.tell "CONFIG_REFUSED" [ctx, off])))

/-- R120, R131, R137, R138, R128: assigning a context to a function and withdrawing it; a resume runs a SAVED context and clears its
requests; a thaw puts a FROZEN one back; a teardown of an idle context unmaps its pages and frees its id, those of package memory
cleared, or leaves it SCRUBBING while its cores are scrubbed, and an update holds it. -/
def Sys2Proof.Claims.ContextLife : Prop :=
  ∀ (s : State) (ctx : Nat) (k : Ctx), s.ctx? ctx = some k →
    (∀ fn, (1 ≤ fn → fn ≤ 255 →
        exec (.vfAssign ctx fn) s = .next (s.updCtx ctx fun k => { k with vfs := k.vfs.filter (· != fn) ++ [fn] })) ∧
      (fn = 0 ∨ 256 ≤ fn → exec (.vfAssign ctx fn) s = .next (s.tell "ASSIGN_REFUSED" [ctx, fn])) ∧
      ((∃ q ∈ s.queues, q.fn = fn ∧ q.en = true ∧ q.ctxid = ctx) →
        exec (.vfWithdraw ctx fn) s = .next (s.tell "WITHDRAW_REFUSED" [ctx, fn])) ∧
      ((∀ q ∈ s.queues, q.fn = fn → q.en = true → q.ctxid ≠ ctx) →
        exec (.vfWithdraw ctx fn) s = .next (s.updCtx ctx fun k => { k with vfs := k.vfs.filter (· != fn) }))) ∧
    (k.state = .saved → ∃ t, exec (.contextResume ctx) s = .next t ∧ CtxGoes s t ctx .running ∧ t.teams = s.teams ∧ t.mem = s.mem ∧
      ∀ c ∈ t.cores, ∀ p ∈ c.preqs, p.ctx ≠ ctx) ∧
    (k.state ≠ .saved → exec (.contextResume ctx) s = .next s) ∧
    (k.state = .frozen → k.before = .running → k.preemptPending = false →
      ∃ t, exec (.contextThaw ctx) s = .next t ∧ CtxGoes s t ctx .running ∧ t.mem = s.mem ∧ t.queues = s.queues ∧
        t.launches = s.launches ∧ ∀ c ∈ t.cores, ∀ p ∈ c.preqs, p.ctx ≠ ctx) ∧
    (k.state ≠ .frozen → exec (.contextThaw ctx) s = .next s) ∧
    (k.state ≠ .scrubbing → k.state ≠ .teardown → s.updating = false → (∀ l ∈ s.launches, l.ctx ≠ ctx) →
      (∀ q ∈ s.queues, ∀ p ∈ q.pkts, p.ctx ≠ ctx) → (∀ x ∈ s.teams, x.ctx ≠ ctx) → (∀ o ∈ s.objs, o.ctx = ctx) →
      ∃ t, exec (.contextTeardown ctx) s = .next t ∧ t.hostMem = s.hostMem ∧ t.teams = s.teams ∧ t.launches = s.launches ∧
        (∀ c, c ≠ ctx → t.ctx? c = s.ctx? c) ∧ (∀ o ∈ t.objs, o.ctx ≠ ctx) ∧ ctx ∉ t.debuggers ∧
        (∀ q ∈ t.queues, q.ctxid = ctx → q.en = false) ∧ (∀ m ∈ t.migrations, m.ctx ≠ ctx) ∧ (∀ x ∈ t.pageReqs, x.ctx ≠ ctx) ∧
        ((∀ c ∈ s.cores, c.owner ≠ some ctx ∧ c.departing ≠ some ctx) → t.ctx? ctx = none ∧
          ⟨"ENERGY", [ctx, k.energy / 1000000]⟩ ∈ t.notices ∧ ∀ a, (InLeafEntry (s.leaves k) a ∨ InLeafFrame (s.leaves k) a → t.mem.read a = 0) ∧
            (¬ InLeafEntry (s.leaves k) a → ¬ InLeafFrame (s.leaves k) a → t.mem.read a = s.mem.read a)) ∧
        ((∃ c ∈ s.cores, c.owner = some ctx) → CtxGoes s t ctx .scrubbing ∧
          ∀ a, (InLeafEntry (s.leaves k) a → t.mem.read a = 0) ∧ (¬ InLeafEntry (s.leaves k) a → t.mem.read a = s.mem.read a)) ∧
        ∀ c, (s.core c).owner = some ctx → (t.core c).scrubbing = true) ∧
    (k.state ≠ .scrubbing → k.state ≠ .teardown → s.updating = true →
      exec (.contextTeardown ctx) s = .next { s with heldTeardowns := s.heldTeardowns ++ [ctx] })

/-- R121, R122, R130, R137: a core without teams, objects or engine work passes from a context that is not FROZEN to another and is scrubbed;
the scrub leaves it as after reset but for its place in the package, and frees the id of a context in teardown that held no other core,
its pages cleared and its energy told.  A core on whose die the load falls too fast is held for the ramp (log entry 89). -/
def Sys2Proof.Claims.CoresPassBetweenContexts : Prop :=
  ∀ (s : State) (core ctx : Nat) (k : Ctx), s.ctx? ctx = some k → s.objs = [] →
    (∀ old, (s.core core).owner = some old → old ≠ ctx → (s.core core).scrubbing = false → (s.core core).engq = [] →
      (s.core core).engRun = [] → (∀ b ∈ (s.core core).banks, b.state ≠ .loading ∧ b.state ≠ .draining) →
      (∀ x ∈ s.teams, x.core ≠ core) →
      ((∀ ko, s.ctx? old = some ko → ko.state ≠ .frozen) →
        ∃ t, exec (.coreReassign core ctx) s = .next t ∧
          t.core core = { s.core core with
            scrubbing := true, ramp := (s.core core).ramp || s.rampAhead core, short := false, owner := some ctx, departing := some old } ∧
          (∀ c, c ≠ core → t.core c = s.core c) ∧ t.mem = s.mem ∧ t.teams = s.teams ∧ ∀ c, c ≠ old → t.ctx? c = s.ctx? c) ∧
      (∀ ko, s.ctx? old = some ko → ko.state = .frozen → ko.before ≠ .saved → exec (.coreReassign core ctx) s = .next s)) ∧
    ((s.core core).owner = some ctx → (s.core core).scrubbing = true → k.state ≠ .scrubbing →
      (∀ d kd, (s.core core).departing = some d → s.ctx? d = some kd → kd.state ≠ .scrubbing) →
      ∃ t, exec (.scrubComplete core) s = .next t ∧ (∀ c, c ≠ core → t.core c = s.core c) ∧ t.mem = s.mem ∧ t.ctxs = s.ctxs ∧
        let x := t.core core
        x.owner = some ctx ∧ x.scrubbing = false ∧ x.scratch = [] ∧ x.banks = List.replicate 4 Bank.scrubbed ∧
        x.sedge = List.replicate 4 Sedge.scrubbed ∧ x.collectors = [] ∧ x.l1 = [] ∧ x.l1tlb = [] ∧ x.wtlb = [] ∧ x.ranges = [] ∧ x.locks = [] ∧
        x.disabled = (s.core core).disabled ∧ x.fenced = (s.core core).fenced ∧ x.cyc = (s.core core).cyc ∧ x.ns = (s.core core).ns ∧ x.departing = none) ∧
    ((s.core core).departing = some ctx → (s.core core).scrubbing = true → k.state = .scrubbing → (∀ x ∈ s.teams, x.ctx ≠ ctx ∧ x.core ≠ core) →
      (∀ o ko, (s.core core).owner = some o → o ≠ ctx → s.ctx? o = some ko → ko.state ≠ .scrubbing) →
      (∀ c ∈ s.cores, c.id ≠ core → c.owner ≠ some ctx ∧ c.departing ≠ some ctx) →
      ∃ t, exec (.scrubComplete core) s = .next t ∧ t.ctx? ctx = none ∧ t.teams = s.teams ∧ t.hostMem = s.hostMem ∧
        ⟨"ENERGY", [ctx, k.energy / 1000000]⟩ ∈ t.notices ∧
        ∀ a, ((∃ q ∈ k.toClear, q.1 ≤ a ∧ a < q.1 + q.2) → t.mem.read a = 0) ∧
          ((∀ q ∈ k.toClear, a < q.1 ∨ q.1 + q.2 ≤ a) → t.mem.read a = s.mem.read a)) ∧
    ((s.core core).scrubbing = false → exec (.scrubComplete core) s = .next s)

/-- R118 to R122, R126, R128, R131: contexts are made, configured and ended, and cores pass between them. -/
def Obligations.ContextsAreHeldByCores : Prop :=
  ContextsAreBoundAndConfigured ∧ ContextLife ∧ CoresPassBetweenContexts

/-- R123 to R125: a request makes a RUNNING context with a resident team PREEMPTING and sets %PREQ on that team's core; one without teams is
SAVED at once; a checkpoint in progress keeps the request; a request withdrawn before a save begins lets the context and its
yielded threads go on; a team that has not yielded at its deadline is saved by force. -/
def Sys2Proof.Claims.PreemptionIsRequested : Prop :=
  ∀ (s : State) (ctx : Nat) (k : Ctx), s.ctx? ctx = some k →
    (k.state = .running → (∃ x ∈ s.teams, x.ctx = ctx ∧ x.state = .resident) →
      ∃ t, exec (.preemptRequest ctx) s = .next t ∧ CtxGoes s t ctx .preempting ∧
        (t.teams = s.teams.map fun x => if x.ctx = ctx ∧ x.state = .swapped then { x with preempted := false } else x) ∧
        ((∀ x ∈ s.teams, x.ctx = ctx → x.state ≠ .swapped) → t.mem = s.mem ∧ t.hostMem = s.hostMem) ∧
        ∀ x ∈ s.teams, x.ctx = ctx → x.state = .resident → requested s ctx x.core false ∈ (t.core x.core).preqs) ∧
    (k.state = .running → k.freezeAfter = none → (∀ x ∈ s.teams, x.ctx ≠ ctx) →
      ∃ t, exec (.preemptRequest ctx) s = .next t ∧ CtxGoes s t ctx .saved ∧ t.mem = s.mem ∧ t.teams = s.teams) ∧
    (k.state = .checkpointing →
      exec (.preemptRequest ctx) s = .next (s.updCtx ctx fun k => { k with preemptPending := true })) ∧
    (k.state = .preempting → k.ckptPending = false → (∀ x ∈ s.teams, x.ctx = ctx → x.preempted = false) →
      ∃ t, exec (.preemptWithdraw ctx) s = .next t ∧ CtxGoes s t ctx .running ∧ t.mem = s.mem ∧
        (∀ c ∈ t.cores, ∀ p ∈ c.preqs, p.ctx ≠ ctx) ∧
        ∀ x r th, s.team? r.team = some x → x.ctx = ctx → x.state ≠ .swapped → s.thread? r = some th →
          t.thread? r = some { th with status := if th.status = .yielded then .ready else th.status }) ∧
    ((∃ x ∈ s.teams, x.ctx = ctx ∧ x.preempted = true ∧ x.state = .swapped) → exec (.preemptWithdraw ctx) s = .next s) ∧
    (∀ tm p, s.team? tm.id = some tm → tm.ctx = ctx → tm.state = .resident → k.state = .preempting →
      (s.core tm.core).preqs.find? (fun p => p.ctx = tm.ctx && p.req) = some p →
      (∃ r ∈ tm.refs, ∃ th, s.thread? r = some th ∧ th.stopped = false ∧ th.status = .ready) →
      ∃ t x, exec (.preemptDeadline tm.id) s = .next t ∧ t.team? tm.id = some x ∧ x.state = .saving ∧ x.forced = true ∧
        x.preempted = true ∧ (Between tm → teamRegs x = teamRegs tm) ∧ p.since + s.deadlineOf tm ≤ (t.core tm.core).cyc ∧ t.mem = s.mem ∧
        ∀ i, i ≠ tm.id → t.team? i = s.team? i)

/-- R60, R96 to R98, R100: a team that meets the swap condition is saved; a save whose work has drained puts its window and its registers away and
frees its room, memory changing only as firmware writes the images in use into the save area (State.writeImages, log entry 33); a swapped team whose causes are resolved comes back where there is room, on its own core or, after its round, on
another. -/
def Sys2Proof.Claims.TeamsAreSwappedAndReturn : Prop :=
  ∀ (s : State) (id : Nat) (tm : Team) (k : Ctx), s.team? id = some tm → s.ctx? tm.ctx = some k →
    (∀ c ∈ s.cores, c.scratch.wf = true) →
    (s.swapMet tm = true → (∀ x ∈ s.teams, x.core = tm.core → x.id = id) →
      ∃ t x, exec (.teamSwap id) s = .next t ∧ t.team? id = some x ∧ x.state = .saving ∧ x.preempted = false ∧
        (Between tm → teamRegs x = teamRegs tm) ∧ t.mem = s.mem ∧ ∀ i, i ≠ id → t.team? i = s.team? i) ∧
    (s.swapMet tm = false → exec (.teamSwap id) s = .next s) ∧
    (tm.state = .saving → k.state = .running → tm.preempted = false → s.drained tm = true → s.saveAbsent tm.ctx = none →
      ∃ t x, exec (.teamSaveComplete id) s = .next t ∧ t.team? id = some x ∧ x.state = .swapped ∧ (Between tm → teamRegs x = teamRegs tm) ∧
        (∀ i, i < tm.scrsz → x.savedWin.read i = (s.core tm.core).scratch.read (tm.winBase + i)) ∧
        (∀ a, (t.core tm.core).scratch.read a =
          if tm.winBase ≤ a ∧ a < tm.winBase + tm.scrsz then 0 else (s.core tm.core).scratch.read a) ∧
        t.mem = (s.writeImages tm.ctx).mem ∧ t.hostMem = (s.writeImages tm.ctx).hostMem ∧ ∀ i, i ≠ id → t.team? i = s.team? i) ∧
    (∀ core base lent, tm.state = .swapped → k.state = .running → (∀ g ∈ tm.groups, ∀ th ∈ g.threads, (∀ c, th.status ≠ .parked c) ∧ th.record = []) →
      (∀ x ∈ s.teams, (x.id ≠ id → x.state ≠ .swapped) ∧ id ∉ x.lent) → s.teamCor tm = false → tm.savedWin.wf = true →
      (∀ c ∈ tm.savedWin, c.1 < tm.scrsz) →
      (s.returnCore tm = some (core, base, lent) → ∃ t, exec (.teamReadmit id) s = .next t ∧ BackAt t id core base tm ∧ t.mem = s.mem) ∧
      (tm.roundFailed = true → (s.updTeam id fun x => { x with anyCore := true }).returnCore { tm with anyCore := true } = some (core, base, lent) →
        ∃ t, exec (.readmitRoundExpiry id) s = .next t ∧ BackAt t id core base tm ∧ t.mem = s.mem)) ∧
    (tm.state ≠ .swapped ∨ tm.roundFailed = false → exec (.readmitRoundExpiry id) s = .next s)

/-- R96 to R100, R123 to R127: requests to yield, swaps, saves and returns. -/
def Obligations.TeamsLeaveAndReturn : Prop :=
  PreemptionIsRequested ∧ TeamsAreSwappedAndReturn

/-- R120, R132 to R134, R136: a checkpoint request, refused by a context without checkpoints, makes a RUNNING one CHECKPOINTING and is kept by
one in another state; a generation is recorded with its number, as a base where one is asked for or due, and told of where the buddy
has no copy, after which a CHECKPOINTING context runs on, and none where the checkpoint key is not released (log entry 92); a restore request discards what the context had; a restore brings back the
state of the last generation up to which every copy is good and leaves the context SAVED, or FAILED without one, telling why; a
replay runs a new context from a generation of another, under DET, with its log. -/
def Obligations.CheckpointsAndRestores : Prop :=
  ∀ (s : State) (ctx : Nat) (k : Ctx), s.ctx? ctx = some k →
    (∀ base, (k.ckpt = false → exec (.checkpointRequest ctx base) s = .next (s.tell "CHECKPOINT_REFUSED" [ctx])) ∧
      (k.ckpt = true → k.state = .running → ∃ t, exec (.checkpointRequest ctx base) s = .next t ∧
        CtxGoes s t ctx .checkpointing ∧ t.teams = s.teams ∧ t.mem = s.mem ∧
        ∀ x ∈ s.teams, x.ctx = ctx → x.state = .resident → requested s ctx x.core true ∈ (t.core x.core).preqs) ∧
      (k.ckpt = true → k.state = .ready ∨ k.state = .saved ∨ k.state = .preempting → exec (.checkpointRequest ctx base) s =
        .next (s.updCtx ctx fun k => { k with ckptPending := true, ckptBase := k.ckptBase || base })) ∧
      (k.ckpt = true → k.state = .checkpointing → exec (.checkpointRequest ctx base) s =
        .next (s.updCtx ctx fun k => { k with ckptBase := k.ckptBase || base }))) ∧
    (∀ ok, s.saveAbsent ctx = none → s.keyReleased = true →
      ((k.state = .ready ∨ k.state = .saved) ∧ k.ckptPending = true) ∨
        (k.state = .checkpointing ∧ s.quiet ctx = true ∧ k.preemptPending = false ∧ ∃ l ∈ s.launches, l.ctx = ctx) →
      ∃ t k' g, exec (.checkpointRecorded ctx ok) s = .next t ∧ t.ctx? ctx = some k' ∧ k'.gens = k.gens ++ [g] ∧
        k'.state = (if k.state = .checkpointing then .running else k.state) ∧ g.num = k.gen ∧ g.buddy = ok ∧
        (g.base = true ↔ k.ckptBase = true ∨ (∀ x ∈ k.gens, x.base = false) ∨
          15 ≤ (k.gens.reverse.takeWhile fun x => !x.base).length) ∧
        (ok = false → ⟨"CHECKPOINT_LOCAL_ONLY", [ctx, k.gen]⟩ ∈ t.notices) ∧
        k'.gen = (k.gen + 1) % 2 ^ 32 ∧ k'.ckptPending = false ∧ (k.state ≠ .checkpointing → t.teams = s.teams) ∧
        ∀ c, c ≠ ctx → t.ctx? c = s.ctx? c) ∧
    (∀ ok, s.saveAbsent ctx = none → s.keyReleased = false → (k.state = .ready ∨ k.state = .saved) → k.ckptPending = true →
      ∃ t k', exec (.checkpointRecorded ctx ok) s = .next t ∧ t.ctx? ctx = some k' ∧ k'.gens = k.gens ∧ k'.gen = k.gen ∧
        k'.state = k.state ∧ k'.ckptPending = false ∧ ⟨"CHECKPOINT_NO_KEY", [ctx, k.gen]⟩ ∈ t.notices ∧ t.teams = s.teams) ∧
    ((k.state = .ready ∨ k.state = .saved ∨ k.state = .frozen ∨ k.state = .failed) →
      ∃ t, exec (.restoreRequest ctx) s = .next t ∧ (∃ k', t.ctx? ctx = some k' ∧ k'.state = .restoring ∧ k'.gens = k.gens) ∧
        (∀ x ∈ t.teams, x.ctx ≠ ctx) ∧ (∀ l ∈ t.launches, l.ctx ≠ ctx) ∧ (∀ o ∈ t.objs, o.ctx ≠ ctx) ∧
        (∀ q ∈ t.taskqs, q.ctx ≠ ctx) ∧ ∀ q ∈ t.queues, ∀ p ∈ q.pkts, p.ctx ≠ ctx) ∧
    (∀ bad buddyBad tag, k.state = .restoring →
      let good (g : Generation) : Prop := g.num ∉ bad ∨ (g.buddy = true ∧ g.num ∉ buddyBad)
      let restored (g : Generation) : Prop :=
        ∃ t k', exec (.restoreComplete ctx (bad, buddyBad) tag) s = .next t ∧ t.ctx? ctx = some k' ∧ k'.state = .saved ∧
          k'.gens = k.gens.takeWhile (fun x => x.num != g.num) ++ [g] ∧ t.teams = s.teams ++ g.teams ∧
          t.launches = s.launches ++ g.launches ∧ t.clusters = s.clusters ++ g.clusters ∧ t.taskqs = s.taskqs ++ g.tasks ∧
          (∀ c, c ≠ ctx → t.ctx? c = s.ctx? c) ∧
          (k.gens = [g] → ∀ va m pte at_, g.pages = [(va, 65536, m)] → (s.walkLevels va 4 0 k.ptroot).2 = .leaf 3 pte at_ →
            pteKind pte = 0 → s.mem.wf = true → m.wf = true → (∀ c ∈ m, c.1 < 65536) → ∀ a, t.mem.read a =
              if pteAddr pte ≤ a ∧ a < pteAddr pte + 65536 then m.read (a - pteAddr pte) else s.mem.read a)
      (k.gens = [] → ∃ t, exec (.restoreComplete ctx (bad, buddyBad) tag) s = .next t ∧ CtxGoes s t ctx .failed ∧ t.mem = s.mem ∧
        t.teams = s.teams ∧ ⟨"RESTORE_FAILED", [ctx]⟩ ∈ t.notices) ∧
      (∀ g, k.gens = [g] → g.base = true → ¬ good g → ∃ t, exec (.restoreComplete ctx (bad, buddyBad) tag) s = .next t ∧
        CtxGoes s t ctx .failed ∧ t.mem = s.mem ∧ t.teams = s.teams ∧
        ⟨"RESTORE_FAILED", if tag = true then [ctx, 1] else [ctx, 0, 0x08]⟩ ∈ t.notices) ∧
      (∀ g, k.gens = [g] → g.base = true → good g → restored g) ∧
      (∀ g h, k.gens = [g, h] → g.base = true → h.base = false → g.num ≠ h.num → good g →
        (good h → restored h) ∧ (¬ good h → restored g))) ∧
    (∀ b g log, let id := fieldAt b 0 4
      (s.booted = true → descOk b = true → s.ctx? id = none → (∀ x ∈ s.teams, x.ctx ≠ id) → (∀ l ∈ s.launches, l.ctx ≠ id) →
        k.gens = [g] → g.base = true → ∃ t k', exec (.contextReplay b (ctx, g.num) log) s = .next t ∧ t.ctx? id = some k' ∧
          k'.state = .running ∧ k'.det = true ∧ k'.replay = some log ∧ (∀ c, c ≠ id → t.ctx? c = s.ctx? c) ∧
          (t.teams.filter fun x => x.ctx = id).map teamRegs = g.teams.map teamRegs ∧
          (t.launches.filter fun l => l.ctx = id).length = g.launches.length ∧ ∀ l ∈ t.launches, l.ctx = id → l.det = true) ∧
      (∀ n, s.booted = false ∨ descOk b = false ∨ s.ctx? id ≠ none ∨ (∀ g ∈ k.gens, g.num ≠ n) →
        exec (.contextReplay b (ctx, n) log) s = .next (s.tell "REPLAY_REFUSED" [id, ctx, n])))

/-! # Device events: pages and frames -/

namespace Sys2Proof.Claims

/-- The request of a context for a page is open (R220). -/
def Requested (s : State) (ctx page : Nat) : Prop := ∃ q ∈ s.pageReqs, q.ctx = ctx ∧ q.page = page

/-- A thread of a live team of the context is parked on the page, its access at the head of its record (R92). -/
structure ParkedOn (s : State) (ctx page : Nat) (r : ThreadRef) (tm : Team) (th : Thread) : Prop where
  team : s.team? r.team = some tm ∧ tm.ctx = ctx ∧ tm.state ≠ .ended ∧ tm.state ≠ .killing
  thread : s.thread? r = some th
  status : th.status = .parked cPAGE_ABSENT ∧ th.recCause = cPAGE_ABSENT
  head : ∃ a rest, th.record = a :: rest ∧ a.va / 65536 = page

/-- No translation of the context in a range is held anywhere, and no line of it (R224). -/
def Dropped (t : State) (ctx base len : Nat) : Prop :=
  (∀ c ∈ t.cores, (∀ e ∈ c.l1tlb ++ c.wtlb, e.ctx = ctx →
      base + len ≤ e.page * 2 ^ levelShift e.level ∨ (e.page + 1) * 2 ^ levelShift e.level ≤ base) ∧
    ∀ ln ∈ c.l1, ln.ctx = ctx → base + len ≤ ln.va ∨ ln.va + 64 ≤ base) ∧
  ∀ d ∈ t.dies, ∀ e ∈ d.tlb ++ d.walkCache, e.ctx = ctx →
    base + len ≤ e.page * 2 ^ levelShift e.level ∨ (e.page + 1) * 2 ^ levelShift e.level ≤ base

/-- The words of a record of the ring, low byte first. -/
def recordBytes (ws : List Word) : List Byte := ws.flatMap fun w => leBytes w.toNat 4

/-- The ABSENT record of a request (R220). -/
def absentRecord (q : PageReq) : List Word :=
  [BitVec.ofNat 32 (1 + q.ctx * 2 ^ 8 + q.kinds.toNat * 2 ^ 16), 0, BitVec.ofNat 32 (q.page * 65536),
    BitVec.ofNat 32 (q.page * 65536 / 2 ^ 32), BitVec.ofNat 32 q.core, 0, BitVec.ofNat 32 q.level, 0]

/-- No write to a page of the context is queued on any core. -/
def NoQueued (s : State) (ctx page : Nat) : Prop := ∀ c ∈ s.cores, ∀ w ∈ c.storeq, w.ctx ≠ ctx ∨ w.va / 65536 ≠ page

/-- A frame is in the pool, or holds a replica, or is the target of a copy. -/
def FrameTaken (s : State) (f : Nat) : Prop :=
  f ∈ s.frames ∨ (∃ d ∈ s.dies, ∃ q ∈ d.replicas, q.2.2 = f) ∨ ∃ m ∈ s.migrations, m.dst = f

end Sys2Proof.Claims

/-- R220, R221: firmware writes the oldest held record to its place in the ring, 32 bytes, unless the ring is full or an update holds
requests; a reply acts only on an open request, which it closes.  RESOLVED lets threads parked on the page issue their record, those of a swapped team when it is back;
REFUSE_KILL ends their teams; REFUSE_FREEZE freezes their context. -/
def Sys2Proof.Claims.PageRequestsAreAnswered : Prop :=
  ∀ (s : State),
    ((s.prqwr - s.prqrd).toNat = 256 ∨ s.updating = true ∨ s.prqHeld = [] → exec .pageRequestPost s = .next s) ∧
    (∀ ws rest, (s.prqwr - s.prqrd).toNat ≠ 256 → s.updating = false → s.prqHeld = .words ws :: rest →
      ∃ f, Stores f (s.prqbase.toNat + 32 * (s.prqwr.toNat % 256)) (recordBytes ws) ∧
        exec .pageRequestPost s = .next { s with mem := f s.mem, prqwr := s.prqwr + 1, prqHeld := rest }) ∧
    (∀ q rest, (s.prqwr - s.prqrd).toNat ≠ 256 → s.updating = false → s.prqHeld = .absent q.ctx q.page :: rest → s.pageReqs = [q] →
      q.posted = false →
      ∃ f, Stores f (s.prqbase.toNat + 32 * (s.prqwr.toNat % 256)) (recordBytes (absentRecord q)) ∧
        exec .pageRequestPost s = .next { s with
          mem := f s.mem, prqwr := s.prqwr + 1, prqHeld := rest, pageReqs := [{ q with posted := true }] }) ∧
    (∀ (ctx : Nat) (va : BitVec 56), let page := va.toNat / 65536
      (∀ f ∈ [Instr.resolveResolved, Instr.resolveRefuseKill, Instr.resolveRefuseFreeze],
        (¬ Requested s ctx page → exec (f ctx va) s = .next s) ∧
        (Requested s ctx page → ∃ t, exec (f ctx va) s = .next t ∧ ∀ q, q ∈ t.pageReqs → q ∈ s.pageReqs → ¬ (q.ctx = ctx ∧ q.page = page))) ∧
      (Requested s ctx page → ∃ t, exec (.resolveResolved ctx va) s = .next t ∧ t.mem = s.mem ∧ t.queues = s.queues ∧
        t.pageReqs = s.pageReqs.filter (fun q => !(q.ctx = ctx && q.page = page)) ∧
        (∀ r tm th, ParkedOn s ctx page r tm th → t.thread? r = some (if tm.state = .swapped then th else
          { th with recCause := 0, waitPage := none, status := .ready })) ∧
        ∀ r th, s.thread? r = some th → th.record = [] → th.status ≠ .parked cPAGE_ABSENT → t.thread? r = some th) ∧
      (∀ r tm th k, Requested s ctx page → ParkedOn s ctx page r tm th → s.ctx? ctx = some k → k.state = .running →
        (∃ t, exec (.resolveRefuseKill ctx va) s = .next t ∧ ∀ u, t.thread? r = some u → u.status = .exited) ∧
        ∃ t k', exec (.resolveRefuseFreeze ctx va) s = .next t ∧ t.mem = s.mem ∧ t.ctx? ctx = some k' ∧ k'.state = .frozen ∧
          k'.before = .running))

/-- R218, R224: a range invalidation of whole pages drops every translation and line of the context in its range at once while fewer than 64
are pending, and waits behind 64; it completes once no access through a dropped entry is under way, and is told; another request is
refused.  A background walk that finds a valid entry puts it, with ACC, into both TLBs. -/
def Sys2Proof.Claims.RangesAndBackgroundWalks : Prop :=
  ∀ (s : State),
    (∀ (ctx : Nat) (base len : BitVec 64) (k : Ctx), s.ctx? ctx = some k →
      let ask := Instr.rangeInvalidateRequest ctx base len
      let n := s.rangeInvs.countP RangeInv.active
      (65536 ∣ base.toNat → 65536 ∣ len.toNat → len.toNat ≤ 2 ^ 56 → n < 64 → ∃ t, exec ask s = .next t ∧
        Dropped t ctx base.toNat len.toNat ∧ t.rangeInvs = s.rangeInvs ++ [⟨ctx, base.toNat, len.toNat, true⟩] ∧ t.mem = s.mem ∧
        t.teams = s.teams ∧ ∀ core, ∀ e ∈ (s.core core).l1tlb, e.ctx ≠ ctx → e ∈ (t.core core).l1tlb) ∧
      (65536 ∣ base.toNat → 65536 ∣ len.toNat → len.toNat ≤ 2 ^ 56 → 64 ≤ n →
        exec ask s = .next { s with rangeInvs := s.rangeInvs ++ [⟨ctx, base.toNat, len.toNat, false⟩] }) ∧
      (¬ (65536 ∣ base.toNat ∧ 65536 ∣ len.toNat ∧ len.toNat ≤ 2 ^ 56) →
        exec ask s = .next (s.tell "RANGE_REFUSED" [ctx, base.toNat, len.toNat]))) ∧
    (∀ ix q, s.rangeInvs[ix]? = some q → q.active = true → (∀ x ∈ s.rangeInvs, x.active = true) →
      (s.rangeBusy q = true → exec (.rangeInvalidateComplete ix) s = .next s) ∧
      (s.rangeBusy q = false → exec (.rangeInvalidateComplete ix) s = .next
        (({ s with rangeInvs := s.rangeInvs.eraseIdx ix } : State).tell "RANGE_DONE" [q.ctx, q.base, q.len]))) ∧
    (∀ (die ix ctx page core : Nat) (k : Ctx), (s.die die).bgWalks[ix]? = some (ctx, page, core) → dieOf core = die →
      s.ctx? ctx = some k → s.vaHeld ctx (page * 65536) = false → (s.die die).walkCache = [] →
      (∀ level pte at_, (s.walkLevels (page * 65536) 4 0 k.ptroot).2 = .leaf level pte at_ → s.mem.wf = true →
        ∃ t e f, exec (.backgroundWalkComplete die ix) s = .next t ∧ e ∈ (t.die die).tlb ∧ e ∈ (t.core core).l1tlb ∧
          e.covers ctx (page * 65536) = true ∧ e.pte = pte ||| 0x40 ∧ (t.die die).bgWalks = (s.die die).bgWalks.eraseIdx ix ∧
          Stores f at_ [s.mem.read at_ ||| 0x40] ∧ t.mem = f s.mem) ∧
      (∀ level, (s.walkLevels (page * 65536) 4 0 k.ptroot).2 = .absent level →
        ∃ t, exec (.backgroundWalkComplete die ix) s = .next t ∧ (t.die die).tlb = (s.die die).tlb ∧ t.cores = s.cores ∧
          (t.die die).bgWalks = (s.die die).bgWalks.eraseIdx ix ∧ t.mem = s.mem))

/-- R217 to R224: page requests, range invalidations and background walks. -/
def Obligations.RequestsAndRanges : Prop :=
  PageRequestsAreAnswered ∧ RangesAndBackgroundWalks

/-- R226, R229: once the package has booted, GRANT adds a frame of the package that is not in use; RECLAIM takes a free one back, drops the
replica that a frame holds, or abandons the copy whose target it is, and then holds the frame's RECLAIMED record for the ring; other
values, and OP 2 and 3, set the error bit and change nothing else. -/
def Sys2Proof.Claims.FramesAreGrantedAndReclaimed : Prop :=
  ∀ (s : State),
    (s.booted = false → ∀ v, exec (.frameopGrant v) s = .next s ∧ exec (.frameopReclaim v) s = .next s) ∧
    (s.booted = true → ∀ v : BitVec 64, let f := v.toNat / 65536 * 65536
      let good := v.toNat < 2 ^ 52 ∧ v.toNat % 65536 / 4 = 0 ∧ paOk f = true
      let refused : State := { s with frameErr := true }
      let told := s.prqHeld ++ [.words [4, 0, BitVec.ofNat 32 f, BitVec.ofNat 32 (f / 2 ^ 32), 0, 0, 0, 0]]
      let replica := ∃ d ∈ s.dies, ∃ q ∈ d.replicas, q.2.2 = f
      (2 ≤ v.toNat % 4 → exec (.frameopGrant v) s = .next refused ∧ exec (.frameopReclaim v) s = .next refused) ∧
      (good → v.toNat % 4 = 0 → ¬ FrameTaken s f → exec (.frameopGrant v) s = .next { s with frames := s.frames ++ [f] }) ∧
      (v.toNat % 4 = 0 → (¬ good ∨ FrameTaken s f) → exec (.frameopGrant v) s = .next refused) ∧
      (good → v.toNat % 4 = 1 → f ∈ s.frames → exec (.frameopReclaim v) s = .next { s with
        frames := s.frames.filter (· != f), prqHeld := told }) ∧
      (good → v.toNat % 4 = 1 → f ∉ s.frames → replica → (s.dies.map Die.id).Nodup →
        s.dies.countP (fun d => d.replicas.any fun q => q.2.2 = f) = 1 →
        ∃ t, exec (.frameopReclaim v) s = .next t ∧ (∀ d ∈ t.dies, ∀ q ∈ d.replicas, q.2.2 ≠ f) ∧ t.frames = s.frames ∧
          t.prqHeld = told ∧ t.mem = s.mem ∧ t.teams = s.teams) ∧
      (good → v.toNat % 4 = 1 → f ∉ s.frames → ¬ replica → (∃ m ∈ s.migrations, m.dst = f) →
        ∃ t, exec (.frameopReclaim v) s = .next t ∧ t.migrations = s.migrations.filter (fun m => m.dst != f) ∧ t.frames = s.frames ∧
          t.prqHeld = told ∧ t.mem = s.mem ∧ ((∀ m ∈ s.migrations, m.dst = f → NoQueued s m.ctx m.page) → t.teams = s.teams ∧
            t.cores = s.cores)) ∧
      (v.toNat % 4 = 1 → (¬ good ∨ ¬ FrameTaken s f) → exec (.frameopReclaim v) s = .next refused))

/-- R225, R227: at the end of an epoch every count of the die is reset.  Where no page scores THRESH, nothing moves; a page that one far die
alone requested at THRESH or more is copied to that die: as a replica where the page may be replicated and no write reached it, else
as a migration, into a frame of the die's target channel, which leaves the pool. -/
def Sys2Proof.Claims.SluiceCopiesFarPages : Prop :=
  ∀ (s : State) (die : Nat) (depths : List Nat),
    ((∀ q ∈ (s.die die).counts, q.2.2.2.1 * hops q.2.2.1 die < s.sluiceThresh) →
      exec (.sluiceEpochEnd die depths) s = .next (s.updDie die fun d => { d with counts := [], epochAt := d.q0 / s.sluiceEpoch })) ∧
    (∀ ctx page r n st k pte at_, (s.die die).counts = [(ctx, page, r, n, st)] → s.ctx? ctx = some k → k.state ≠ .frozen →
      (s.walkLevels (page * 65536) 4 0 k.ptroot).2 = .leaf 3 pte at_ → pteKind pte = 0 → paDie (pteAddr pte) = die →
      (∀ m ∈ s.migrations, m.ctx ≠ ctx ∨ m.page ≠ page) → s.sluiceThresh ≤ n * hops r die →
      depths.getD r 0 ≤ s.sluiceQmax → s.frameRoom r = true → r ≠ die →
      ((pteRepl pte = false ∨ st = true) → ∃ t f, exec (.sluiceEpochEnd die depths) s = .next t ∧ f ∈ s.frames ∧ paDie f = r ∧
        paChan f = s.targetChannel r ∧ f ∉ t.frames ∧
        t.migrations = s.migrations ++ [⟨ctx, page, pteAddr pte, f, at_, pte, none⟩] ∧ (t.die die).counts = [] ∧ t.mem = s.mem) ∧
      (pteRepl pte = true → st = false → (∀ d ∈ s.dies, ∀ q ∈ d.replicas, q.1 ≠ ctx ∨ q.2.1 ≠ page) → 0 < s.sluiceMaxrepl →
        (s.die r).replicas.length + (s.migrations.countP fun m => m.replica = some r) < 1024 →
        ∃ t f, exec (.sluiceEpochEnd die depths) s = .next t ∧ f ∈ s.frames ∧ paDie f = r ∧ paChan f = s.targetChannel r ∧ f ∉ t.frames ∧
          t.migrations = s.migrations ++ [⟨ctx, page, pteAddr pte, f, at_, pte, some r⟩] ∧ (t.die die).counts = [] ∧ t.mem = s.mem))

/-- R228, R229: a migration that completes has copied the page to its new frame, put the new address into its entry and carried the entry's
other bits over, dropped the page's translations, freed the old frame and held its MOVED record.  One whose entry has changed is
abandoned: the target frame is free again, nothing else changes, and a write that waited goes to the page's home as it then stands.
A replica that completes is a copy of the page in the die's replica table, and the entry stays as it was. -/
def Sys2Proof.Claims.MigrationsComplete : Prop :=
  ∀ (s : State) (ix : Nat) (m : Migration), s.migrations[ix]? = some m →
    let copied (t : State) := ∀ i, i < 65536 → t.mem.read (m.dst + i) = s.mem.read (m.src + i)
    (m.replica = none → s.readPte m.pteAt ≠ m.pte →
      ∃ t, exec (.migrationComplete ix) s = .next t ∧ t.migrations = s.migrations.eraseIdx ix ∧ t.frames = s.frames ++ [m.dst] ∧
        t.mem = s.mem ∧
        (NoQueued s m.ctx m.page → t = { s with migrations := s.migrations.eraseIdx ix, frames := s.frames ++ [m.dst] }) ∧
        ∀ k core w a p at_, s.ctx? m.ctx = some k → (s.cores.map Core.id).Nodup → w ∈ (s.core core).storeq → w.done = false →
          w.ctx = m.ctx → w.va / 65536 = m.page → w.home = .dev a →
          (s.walkLevels w.va 4 0 k.ptroot).2 = .leaf 3 p at_ → pteKind p = 0 → pteAddr p % 65536 = 0 →
          s.dieFenced (paDie (pteAddr p)) = false →
          { w with home := .dev (pteAddr p + w.va % 65536), txid := none } ∈ (t.core core).storeq) ∧
    (m.replica = none → s.dieFenced (paDie m.dst) = false → s.readPte m.pteAt = m.pte → s.mem.wf = true → m.dst < 2 ^ 52 →
      8192 ∣ m.dst → (m.pteAt + 8 ≤ m.dst ∨ m.dst + 65536 ≤ m.pteAt) →
      ∃ t, exec (.migrationComplete ix) s = .next t ∧ t.migrations = s.migrations.eraseIdx ix ∧ m.src ∈ t.frames ∧ copied t ∧
        pteAddr (t.readPte m.pteAt) = m.dst ∧ (t.readPte m.pteAt).extractLsb' 0 13 = m.pte.extractLsb' 0 13 ∧
        (t.readPte m.pteAt).extractLsb' 52 12 = m.pte.extractLsb' 52 12 ∧
        (∀ a, (a < m.dst ∨ m.dst + 65536 ≤ a) → (a < m.pteAt ∨ m.pteAt + 8 ≤ a) → t.mem.read a = s.mem.read a) ∧
        Dropped t m.ctx (m.page * 65536) 65536 ∧
        t.prqHeld = s.prqHeld ++ [.words [BitVec.ofNat 32 (2 + m.ctx * 256), 0, BitVec.ofNat 32 (m.page * 65536),
          BitVec.ofNat 32 (m.page * 65536 / 2 ^ 32), BitVec.ofNat 32 (m.dst / 65536), BitVec.ofNat 32 (m.dst / 65536 / 2 ^ 32), 0, 0]]) ∧
    (∀ die, m.replica = some die → s.dieFenced die = false → s.readPte m.pteAt = m.pte → s.mem.wf = true →
      (s.dies.any fun d => d.id = die) = true →
      ∃ t, exec (.migrationComplete ix) s = .next t ∧ t.migrations = s.migrations.eraseIdx ix ∧ t.frames = s.frames ∧ copied t ∧
        (t.die die).replicas = (s.die die).replicas ++ [(m.ctx, m.page, m.dst)] ∧
        ∀ a, (a < m.dst ∨ m.dst + 65536 ≤ a) → t.mem.read a = s.mem.read a)

/-- R225 to R229: frames of the pool, the end of an epoch, and copies of pages that complete. -/
def Obligations.FramesAndMigrations : Prop :=
  FramesAreGrantedAndReclaimed ∧ SluiceCopiesFarPages ∧ MigrationsComplete

/-! # Device events: the link -/

namespace Sys2Proof.Claims

/-- The event moves port p to a state and changes nothing else. -/
def PortGoes (i : Instr) (s : State) (p : Nat) (x : PortState) : Prop :=
  ∃ t, exec i s = .next t ∧ t = { s with ports := t.ports } ∧ (t.port p).state = x ∧ ∀ o, o ≠ p → t.port o = s.port o

/-- Fewer than seven entries of a port to TRAINING lie within the last 2^30 link cycles: another is not the eighth (R259). -/
def MayTrain (s : State) (p : Nat) : Prop := ((s.port p).trainings.filter fun t => s.now < t + 2 ^ 30).length < 7

/-- The event fences a port: it is out of every route, and nothing else changes. -/
def PortFences (i : Instr) (s : State) (p : Nat) : Prop :=
  ∃ t, exec i s = .next t ∧ t = { s with ports := t.ports, routes := t.routes } ∧ (t.port p).state = .fenced ∧
    (∀ o, o ≠ p → t.port o = s.port o) ∧ t.routes = s.routes.map fun q => (q.1, q.2 &&& ~~~(BitVec.ofNat 16 (2 ^ p)))

/-- The event is an entry of a port to TRAINING, the eighth of which fences it (R259). -/
def Trains (i : Instr) (s : State) (p : Nat) : Prop :=
  (MayTrain s p → PortGoes i s p .training) ∧ (¬ MayTrain s p → PortFences i s p)

/-- A destination other than this device to which a frame can leave now (R262). -/
def Sendable (s : State) (dst : Nat) : Prop := dst ≠ s.recDevice.toNat ∧ dst ∉ s.unreachable ∧ s.usablePorts dst ≠ []

/-- One frame has been sent and is kept: its header's fields but for those that sending gives, its payload, its CRC, a usable port (R260,
R261). -/
def Sends (s t : State) (h : FrameHdr) (payload : List Byte) : Prop :=
  ∃ f seq ack, t = { s with txNext := t.txNext, sent := s.sent ++ [f] } ∧ f.dst = h.dst ∧ f.vc = h.vc ∧ f.seq = seq ∧ f.tries = 1 ∧
    f.payload = payload ∧ f.crc = frameCrc f.hdr payload ∧ f.since = s.now ∧ f.port ∈ s.usablePorts h.dst ∧
    f.hdr = FrameHdr.pack { h with src := s.recDevice.toNat, seq := seq, ackseq := ack, len := payload.length }

/-- A frame whose header keeps R260. -/
structure WellFramed (hdr : BitVec 256) (payload : List Byte) (h : FrameHdr) : Prop where
  fields : FrameHdr.unpack hdr = h
  good : frameBad hdr = false ∧ h.len = payload.length ∧ payload.length ≤ 512

/-- Frames that an ACKSEQ covers are kept no longer (R261). -/
def covered (s : State) (h : FrameHdr) : List Sent :=
  s.sent.filter fun f => !(f.dst = h.src && f.vc = h.vc && seqBelow f.seq h.ackseq)

/-- A frame of another device that is the next one of its source and VC (R261). -/
structure InOrder (s : State) (hdr : BitVec 256) (payload : List Byte) (h : FrameHdr) : Prop where
  framed : WellFramed hdr payload h
  peer : h.src ≠ s.recDevice.toNat
  next : s.rxOf h.src h.vc = ⟨h.src, h.vc, h.seq, []⟩ ∧ 2 ≤ h.type
  quiet : ∀ k ∈ s.ctxs, k.capture = false

/-- The header of the ACKONLY that answers it. -/
def ackOf (s : State) (h : FrameHdr) : BitVec 256 :=
  FrameHdr.pack ⟨h.src, s.recDevice.toNat, h.vc, 1, 0, (h.seq + 1) % 2 ^ 24, 0, 0, 0, 0, 0, 0⟩

/-- The state after the link has taken that frame, before it acts: its number counts as received and is acknowledged. -/
def taken (s : State) (h : FrameHdr) : State :=
  { s with
    sent := covered s h
    rx := ⟨h.src, h.vc, (h.seq + 1) % 2 ^ 24, []⟩ :: s.rx.filter fun q => !(q.src = h.src && q.vc = h.vc)
    notices := s.notices ++ [⟨"ACKONLY", [h.src, (ackOf s h).toNat, 0, (frameCrc (ackOf s h) []).toNat]⟩] }

/-- The entry, its queue and its context by which an inbound frame resolves (R263). -/
structure Tenanted (s : State) (h : FrameHdr) (tn : Tenant) (qu : HostQueue) (k : Ctx) : Prop where
  entry : s.tenants.find? (fun t => t.valid && t.srcdev.toNat = h.src && t.tag.toNat = h.tag) = some tn ∧ tn.frozen = false
  queue : s.queue tn.func.toNat tn.queue.toNat = qu
  ctx : s.ctx? qu.ctxid = some k

/-- An answer's header: RESP on VC 1 or WRACK on VC 2, with the request's tag and transaction. -/
def reply (h : FrameHdr) (type status why : Nat) : FrameHdr :=
  ⟨h.src, 0, if type = 5 then 1 else 2, type, 0, 0, h.tag, 0, 0, h.txid, status, why⟩

/-- The tile walker and the copies of a core do not wait for the answer. -/
def NotEngines (co : Core) (txid : Nat) : Prop := (∀ j ∈ co.twq, j.txid ≠ some txid) ∧ ∀ c ∈ co.copies, c.txid ≠ some txid

end Sys2Proof.Claims

/-- R257, R259 to R262, R268: the life of a port, whose eighth entry to TRAINING within 2^30 link cycles fences it; a fence takes the port
out of every route; a frame whose CRC or header is wrong is as lost; a frame that is resent counts its tries, is held while its ports
train, and after the last, or with no port to train, its destination is unreachable until firmware clears it; a detour between dies changes only timing. -/
def Obligations.PortsAndResends : Prop :=
  ∀ (s : State) (p : Nat), p < 16 →
    let x := (s.port p).state
    (x = .down → Trains (.portEnable p) s p) ∧ (x ≠ .down → exec (.portEnable p) s = .next s) ∧
    (∀ lanes : BitVec 8, let half := lanes.extractLsb' 0 4 = 0xF ∨ lanes.extractLsb' 4 4 = 0xF
      (x = .training → lanes = 0xFF → PortGoes (.trainingComplete p lanes) s p .up) ∧
      (x = .training → lanes ≠ 0xFF → half → PortGoes (.trainingComplete p lanes) s p .degraded) ∧
      (x = .training → ¬ half → ∃ t, exec (.trainingComplete p lanes) s = .next t ∧ (t.port p).state = .down ∧
        (t.port p).failedAt = some s.now ∧ t = { s with ports := t.ports, notices := s.notices ++ [⟨"TRAINING_FAILED", [p]⟩] }) ∧
      (x ≠ .training → exec (.trainingComplete p lanes) s = .next s)) ∧
    (x = .down → (s.port p).failedAt ≠ none → Trains (.trainingRetryTimer p) s p) ∧
    ((s.port p).failedAt = none → exec (.trainingRetryTimer p) s = .next s) ∧
    (x = .up ∨ x = .degraded → Trains (.laneFault p) s p) ∧
    (x = .down ∨ x = .training ∨ x = .fenced → exec (.laneFault p) s = .next s) ∧
    (x ≠ .fenced → PortFences (.portFence p) s p) ∧
    (x = .fenced → exec (.portFence p) s = .next s ∧ PortGoes (.portUnfence p) s p .down) ∧
    (∀ a b, a < 64 → b < 64 → a % 8 ≠ b % 8 → a / 8 ≠ b / 8 →
      exec (.routeDetour a b) s = .next { s with detours := (a, b) :: s.detours.filter (· != (a, b)) }) ∧
    (∀ d : BitVec 12, exec (.unreachableClear d) s = .next { s with unreachable := s.unreachable.filter (· != d.toNat) }) ∧
    (∀ hdr payload crc, (crc ≠ frameCrc hdr payload ∨ frameBad hdr = true → exec (.discardedFrame hdr payload crc) s =
        .next (s.tell "FRAME_DISCARDED" [payload.length])) ∧
      (crc = frameCrc hdr payload → frameBad hdr = false → exec (.discardedFrame hdr payload crc) s = .next s)) ∧
    (∀ ix f, s.sent[ix]? = some f →
      (f.tries < 17 → s.usablePorts f.dst ≠ [] → ∃ q, q ∈ s.usablePorts f.dst ∧ exec (.frameResendTimeout ix) s = .next { s with
        sent := s.sent.set ix { f with tries := f.tries + 1, port := q, since := s.now } }) ∧
      (∀ mask o, f.tries < 17 → s.usablePorts f.dst = [] → s.routes = [(f.dst, mask)] → o < 16 → mask.getLsbD o = true →
        (s.port o).state = .training → exec (.frameResendTimeout ix) s = .next s) ∧
      (17 ≤ f.tries ∨ (s.usablePorts f.dst = [] ∧ ∀ o, (s.port o).state ≠ .training) → s.remotes = [] → ∃ t, exec (.frameResendTimeout ix) s = .next t ∧ f.dst ∈ t.unreachable ∧
        t = { s with unreachable := t.unreachable, sent := s.sent.filter (fun g => g.dst != f.dst), queues := t.queues } ∧
        ∀ q ∈ t.queues, ∀ a ∈ q.accs, a.dev = f.dst → a.txid = none))

/-- R260, R261, R263, R264, R266: frames that another device sends.  ACKONLY drops what it covers, LNACK has exactly the named frames sent
again; a READ, WRITE or ATOMIC acts at the home its window address has in the tenant's context and is answered, one without entry or
with a frozen one, on an absent or lost page or on an uncorrectable error is answered FAULT, one on a page it may not use PROT and
freezes its entry; a MARKER is one arrival; a frame that has come before does not act again.  That a READ carries its byte count as its
payload is the model's reading (log entry 15). -/
def Obligations.FramesAreReceived : Prop :=
  ∀ (s : State) (hdr : BitVec 256) (payload : List Byte) (h : FrameHdr),
    (WellFramed hdr payload h → h.src ≠ s.recDevice.toNat →
      (h.type = 1 → exec (.frameAckonly hdr payload) s = .next { s with sent := covered s h }) ∧
      (∀ f, h.type = 0 → covered s h = [f] → f.dst = h.src → f.vc = h.vc → f.tries < 17 → s.usablePorts f.dst ≠ [] →
        let d := (f.seq + 2 ^ 24 - h.ackseq) % 2 ^ 24
        (d < 64 → leNat payload / 2 ^ d % 2 = 1 → ∃ q, exec (.frameLnack hdr payload) s = .next { s with
          sent := [{ f with tries := f.tries + 1, port := q, since := s.now }] }) ∧
        ((64 ≤ d ∨ leNat payload / 2 ^ d % 2 = 0) → exec (.frameLnack hdr payload) s = .next { s with sent := [f] }))) ∧
    (InOrder s hdr payload h → Sendable s h.src →
      (∀ f ∈ [(Instr.frameRead, 2, 5), (Instr.frameWrite, 3, 6), (Instr.frameAtomic, 4, 5)], h.type = f.2.1 → h.ops % 32 ≤ 14 →
        (s.tenants.find? (fun t => t.valid && t.srcdev.toNat = h.src && t.tag.toNat = h.tag) = none →
          ∃ t, exec (f.1 hdr payload) s = .next t ∧ Sends (taken s h) t (reply h f.2.2 1 3) []) ∧
        (∀ tn, s.tenants.find? (fun t => t.valid && t.srcdev.toNat = h.src && t.tag.toNat = h.tag) = some tn → tn.frozen = true →
          ∃ t, exec (f.1 hdr payload) s = .next t ∧ Sends (taken s h) t (reply h f.2.2 1 4) []) ∧
        (∀ tn qu k l, ∀ c ∈ [(cPAGE_ABSENT, 0), (cMEMORY_LOST, 1)], Tenanted s h tn qu k →
          s.tableWalk qu.ctxid (h.addr % 2 ^ 52) (f.2.1 != 2) = (s, .cause c.1 l) →
          ∃ t, exec (f.1 hdr payload) s = .next t ∧ Sends (taken s h) t (reply h f.2.2 1 c.2) []) ∧
        (∀ tn qu k, Tenanted s h tn qu k → s.tableWalk qu.ctxid (h.addr % 2 ^ 52) (f.2.1 != 2) = (s, .cause cPAGE_PROT 0) →
          ∃ t, exec (f.1 hdr payload) s = .next t ∧ (∀ x ∈ t.tenants, x.ix = tn.ix → x.frozen = true) ∧
            Sends { taken s h with tenants := t.tenants, notices := t.notices } t (reply h f.2.2 2 0) [])) ∧
      (∀ tn qu k pa, Tenanted s h tn qu k → NoReplicas s →
        (h.type = 2 → Mapped s qu.ctxid (h.addr % 2 ^ 52) false pa → s.eccAt (.dev pa) (min 512 (leNat payload)) = true →
          ∃ t, exec (.frameRead hdr payload) s = .next t ∧ Sends (taken s h) t (reply h 5 1 2) []) ∧
        (h.type = 2 → Mapped s qu.ctxid (h.addr % 2 ^ 52) false pa → s.eccAt (.dev pa) (min 512 (leNat payload)) = false →
          ∃ t, exec (.frameRead hdr payload) s = .next t ∧
            Sends (taken s h) t (reply h 5 0 0) (s.mem.readBytes pa (min 512 (leNat payload)))) ∧
        (h.type = 3 → Mapped s qu.ctxid (h.addr % 2 ^ 52) true pa →
          ∃ t f, exec (.frameWrite hdr payload) s = .next t ∧ Stores f pa payload ∧
            Sends { taken s h with mem := f s.mem, dies := t.dies } t (reply h 6 0 0) []) ∧
        (h.type = 4 → h.ops % 32 ≤ 11 → Mapped s qu.ctxid (h.addr % 2 ^ 52) true pa → s.eccAt (.dev pa) 4 = false →
          let old := BitVec.ofNat 32 (leNat (s.mem.readBytes pa 4))
          let new := amo32 (h.ops % 32) old (BitVec.ofNat 32 (leNat (payload.take 4))) (BitVec.ofNat 32 (leNat ((payload.drop 4).take 4)))
          ∃ t f, exec (.frameAtomic hdr payload) s = .next t ∧ Stores f pa (leBytes new.toNat 4) ∧
            Sends { taken s h with mem := f s.mem, dies := t.dies } t (reply h 5 0 0) (s.mem.readBytes pa 4)) ∧
        (∀ la cl ob, h.type = 7 → s.launches = [la] → la.fn = tn.func.toNat → la.q = tn.queue.toNat → la.state = .running →
          32 ≤ h.addr / 2 ^ 12 % 64 → h.addr / 2 ^ 12 % 64 < 48 → s.cluster? la.id (h.addr / 2 ^ 48) = some cl → cl.ended = false →
          cl.syncs[h.addr / 2 ^ 12 % 64 - 32]? = some ob → ob.state = .active → ob.arr + 1 ≠ ob.exp + ob.xtra →
          ∃ t cl', exec (.frameMarker hdr payload) s = .next t ∧ t = { taken s h with clusters := t.clusters } ∧
            t.cluster? la.id (h.addr / 2 ^ 48) = some cl' ∧
            cl'.syncs[h.addr / 2 ^ 12 % 64 - 32]? = some { ob with arr := ob.arr + 1 })) ∧
      (h.type = 9 → exec (.frameLaunchnack hdr payload) s =
        .next ((taken s h).tell "LAUNCHNACK" [h.src, h.txid, leNat payload]))) ∧
    (∀ f ∈ [(Instr.frameRead, 2), (Instr.frameWrite, 3), (Instr.frameAtomic, 4), (Instr.frameMarker, 7), (Instr.frameLaunch, 8)],
      WellFramed hdr payload h → h.type = f.2 → h.src ≠ s.recDevice.toNat → (s.rxOf h.src h.vc).above = [] → (s.rxOf h.src h.vc).next < 2 ^ 24 →
      seqBelow h.seq (s.rxOf h.src h.vc).next = true →
      ∃ t, exec (f.1 hdr payload) s = .next t ∧ t.mem = s.mem ∧ t.hostMem = s.hostMem ∧ t.clusters = s.clusters ∧ t.queues = s.queues ∧
        t.rx = s.rx)

/-- R153, R265: a launch message that passes every check of its entry becomes a packet at its queue's write index, made fetchable; a full
queue and a frozen entry refuse it with no other effect, and one outside the entry's bounds freezes the entry.  Answers end remote
accesses: a load gets its bytes, and its line enters L1 unless an acquire has come since; a store counts down, a refused one is noted; without an answer in the 262,144 front cycles
of its core a store counts as refused and a load raises REMOTE_TIMEOUT. -/
def Obligations.LaunchMessagesAndAnswers : Prop :=
  ∀ (s : State),
    (∀ (hdr : BitVec 256) (payload : List Byte) (h : FrameHdr) (tn : Tenant) (qu : HostQueue) (k : Ctx),
      InOrder s hdr payload h → h.type = 8 → Sendable s h.src → Tenanted s h tn qu k → s.updating = false →
      (∀ a ∈ qu.accs, a.frame = none) →
      let rec_ := leNat (payload.take 8)
      let nack (full : Nat) (s t : State) : Prop := Sends s t ⟨h.src, 0, 1, 9, 0, 0, h.tag, 0, 0, h.txid, 0, 0⟩ [BitVec.ofNat 8 full]
      let w := qu.limit.getD qu.qrd
      let bounds := tn.reclo.toNat ≤ rec_ ∧ rec_ < tn.rechi.toNat ∧ qu.en = true ∧ qu.inbound = true ∧ payload.length = 56
      (∀ ga pa, bounds → NoReplicas s → Mapped s qu.ctxid (rec_ + 48) false ga →
        leNat (s.mem.readBytes ga 4) * leNat (s.mem.readBytes (ga + 4) 4) * leNat (s.mem.readBytes (ga + 8) 4) ≤ tn.maxgrid.toNat →
        ((w - qu.qdone).toNat = 2 ^ qu.log2n → ∃ t, exec (.frameLaunch hdr payload) s = .next t ∧ nack 1 (taken s h) t) ∧
        ((w - qu.qdone).toNat ≠ 2 ^ qu.log2n → Mapped s qu.ctxid (packetVa qu w) true pa →
          ∃ t f, exec (.frameLaunch hdr payload) s = .next t ∧ Stores f pa (leBytes 1 8 ++ payload) ∧
            t = { taken s h with mem := f s.mem, queues := t.queues, dies := t.dies } ∧
            QueueIs s t tn.func.toNat tn.queue.toNat { qu with limit := some (w + 1) })) ∧
      ((¬ bounds ∨ ∃ ga, Mapped s qu.ctxid (rec_ + 48) false ga ∧ tn.maxgrid.toNat <
          leNat (s.mem.readBytes ga 4) * leNat (s.mem.readBytes (ga + 4) 4) * leNat (s.mem.readBytes (ga + 8) 4)) → ∃ t, exec (.frameLaunch hdr payload) s = .next t ∧ (∀ x ∈ t.tenants, x.ix = tn.ix → x.frozen = true) ∧
        nack 0 { taken s h with tenants := t.tenants, notices := t.notices } t)) ∧
    (∀ (hdr : BitVec 256) (payload : List Byte) (h : FrameHdr) (q : Remote) (th : Thread), InOrder s hdr payload h →
      s.remotes = [q] → q.txid = h.txid → q.dev = h.src → NotEngines (s.core q.core) q.txid → s.thread? q.ref = some th →
      th.acq = false →
      (∀ va n d c, h.type = 5 → h.ops = 0 → q.acc = .load va n d → payload.length = 64 → n ∈ [1, 2, 4, 8, 16] → va.toNat % 64 + n ≤ 64 →
        s.ctxOf? q.ref = some c →
        ∃ lines, exec (.frameResp hdr payload) s = .next (({ taken s h with remotes := [] } : State).updCore q.core fun k => { k with
            l1 := lines
            loads := k.loads.map fun l => if l.txid = some q.txid then
              { l with words := loadedWords (fun i => payload.getD (va.toNat % 64 + i) 0) n, pk := none, txid := none } else l }) ∧
          (q.fills = false → lines = (s.core q.core).l1) ∧ (q.fills = true → ⟨c, va.toNat / 64 * 64, payload⟩ ∈ lines)) ∧
      (∀ va data, h.type = 6 → q.acc = .store va data →
        (h.ops = 0 ∨ h.ops = 1) → ∃ t u, exec (.frameWrack hdr payload) s = .next t ∧ t.remotes = [] ∧ t.mem = s.mem ∧
          t.thread? q.ref = some u ∧ u.ackAll = th.ackAll - 1 ∧ u.nackPending = (th.nackPending || h.ops == 1) ∧ u.regs = th.regs ∧
          u.status = th.status ∧ ∀ w ∈ (t.core q.core).storeq, w.txid ≠ some q.txid)) ∧
    (∀ (q : Remote) (th : Thread) (x : BitVec 32), s.remotes = [q] → x.toNat = q.txid → NotEngines (s.core q.core) q.txid →
      s.thread? q.ref = some th →
      th.acq = false → (∀ va data, q.acc = .store va data → ∃ t u, exec (.remoteTimeout q.core x) s = .next t ∧ t.remotes = [] ∧ t.mem = s.mem ∧
        t.thread? q.ref = some u ∧ u.ackAll = th.ackAll - 1 ∧ u.nackPending = true ∧ u.regs = th.regs ∧
        q.since + 262144 ≤ (t.core q.core).cyc) ∧
      (∀ va n d tm, q.acc = .load va n d → s.team? q.ref.team = some tm → tm.state = .resident →
        ∃ t g, exec (.remoteTimeout q.core x) s = .next t ∧ t.remotes = [] ∧ t.mem = s.mem ∧
          (∀ l ∈ (t.core q.core).loads, l.txid ≠ some q.txid) ∧ t.group? q.ref.team (q.ref.tid / 32) = some g ∧
          g.causes.getLsbD 6 = true ∧ q.since + 262144 ≤ (t.core q.core).cyc))

/-! # Device events: power, debugger, firmware -/

namespace Sys2Proof.Claims

/-- What a stop does to a thread: a ready one, and one that waits, leaves its run and is ready at its first word (R117), but that one with
an operation in the engine waits for it; a parked one, a yielded one and one that has exited stay.  One that waits at an ARRW has
arrived, which is kept for when it issues the word again (log entry 59). -/
structure LeftForStop (th u : Thread) : Prop where
  keeps : th.before = none → u.regs = th.regs ∧ u.preds = th.preds ∧ u.stopped = th.stopped
  leaves : (th.status = .ready ∨ ∃ w, th.status = .waiting w ∧ w ≠ .engine ∧ ∀ o p, w ≠ .sync o p) → u = { outOfRun th with status := .ready }
  arrived : ∀ o p, th.status = .waiting (.sync o p) →
    u = { outOfRun th with status := .ready, kept := if th.grant = none then some (o, p) else none }
  stays : (∃ c, th.status = .parked c) ∨ th.status = .yielded ∨ th.status = .exited → u = th

/-- A group whose threads a stop has taken out of their runs; a lane that waited at a REJOIN has not arrived there any more. -/
def GroupLeft (g g' : Group) : Prop :=
  ({ g with threads := g'.threads, masks := g'.masks, stopReq := true } : Group) = g' ∧ g'.threads.length = g.threads.length ∧
    (∀ (l : Nat) (th : Thread), g.threads[l]? = some th → ∃ u, g'.threads[l]? = some u ∧ LeftForStop th u) ∧
    ∀ (j : Nat) (m : RejoinMask), g.masks[j]? = some m → ∃ m', g'.masks[j]? = some m' ∧ m'.enrolled = m.enrolled ∧
      m'.arrived = m.arrived &&& ~~~(g.rejoining j)

/-- A thread of the group that a debugger may write: its team's context has a debugger, and the group is STOPPED. -/
structure Stopped (s : State) (r : ThreadRef) (g : Group) (th : Thread) : Prop where
  group : s.group? r.team (r.tid / 32) = some g
  thread : g.threads[r.tid % 32]? = some th
  attached : s.debugged r.team = true
  stopped : g.stopped = true

/-- The write leaves everything but that thread as it was. -/
def Wrote (i : Instr) (s : State) (r : ThreadRef) (th : Thread) : Prop :=
  ∃ t, exec i s = .next t ∧ t = { s with teams := t.teams } ∧ t.thread? r = some th ∧ ∀ q, q ≠ r → t.thread? q = s.thread? q

/-- The estimate one step on (R271): toward the load, by SLEW at most. -/
def Moves (est load slew est' : Nat) : Prop :=
  (est ≤ load → est' = min load (est + slew)) ∧ (load ≤ est → est' + slew = max (load + slew) est)

/-- One image of a slot that keeps R279: its header with MAGIC, a VERSION not below the minimum, SIZE of at most 8 MiB and zeros at its
end; its body, whose SHAKE256 is DIGEST; and at SIGOFF its signature, of 2,500 bytes (log entry 90). -/
structure ImageOk (s : State) (b : List Byte) : Prop where
  magic : leNat (b.take 4) = 0x4F514246
  version : s.flash.minVersion ≤ leNat ((b.drop 4).take 4)
  size : leNat ((b.drop 8).take 4) ≤ 8388608
  rest : ∀ i, 52 ≤ i → i < 64 → b[i]? = some 0
  place : 64 + leNat ((b.drop 8).take 4) ≤ leNat ((b.drop 48).take 4) ∧ b.length = leNat ((b.drop 48).take 4) + 2500
  digest : (b.drop 16).take 32 = leBytes (Config.shake256 ((b.drop 64).take (leNat ((b.drop 8).take 4)))).toNat 32

/-- The image is what these bytes say. -/
def ImageIs (im : Image) (b : List Byte) : Prop :=
  im.version = leNat ((b.drop 4).take 4) ∧ im.statever = leNat ((b.drop 12).take 4) ∧ im.digest = (b.drop 16).take 32 ∧
    im.body = (b.drop 64).take (leNat ((b.drop 8).take 4))

/-- A checkpoint is in progress: one is being taken, or has been asked for and will be. -/
def CheckpointRuns (s : State) : Prop :=
  ∃ k ∈ s.ctxs, k.state = .checkpointing ∨ (k.ckptPending = true ∧ (k.state = .ready ∨ k.state = .saved))

/-- The device answers an SPDM request: one more answer, which begins with the request's place in R282's list and with those bytes. -/
def Answered (s t : State) (place : Byte) (known : List Byte) : Prop :=
  ∃ rest, t = { s with answers := s.answers ++ [place :: known ++ rest], fresh := t.fresh }

end Sys2Proof.Claims

/-- R12, R269 to R272, R275: a setting within R12 is taken and stops the quarter's issue until the clocks have relocked, any other is
refused and told, and they have relocked within 2,048 of its old front cycles; PCAP and SLEW likewise; a slope step moves a die's estimate
toward its load by at most SLEW, fillers make up the difference, and their energy, in nanojoules, falls to the contexts
whose departures caused the ramp (in equal parts: log entry 89). -/
def Obligations.ClocksCapAndSlope : Prop :=
  ∀ (s : State),
    (∀ die q front ratio2, die < 64 → q < 4 →
      let good := 300 ≤ front ∧ front ≤ 1200 ∧ front % 50 = 0 ∧ (ratio2 = 1 ∨ ratio2 = 2 ∨ ratio2 = 4) ∧ front * ratio2 ≤ 3800
      (good → ∃ t, exec (.clockSettingRequest die q front ratio2) s = .next t ∧ t = { s with quarters := t.quarters, cores := t.cores } ∧
        (∀ c, t.core c = { s.core c with cyc := (t.core c).cyc, ns := (t.core c).ns, counted := (t.core c).counted }) ∧
        t.quarter die q = { s.quarter die q with
          front := front, ratio2 := ratio2, relocking := true, until_ := instantAfter (s.quarter die q).front s.now 2048
          base := (s.quarter die q).cyclesAt s.now, at_ := s.now } ∧ ∀ d p, (d, p) ≠ (die, q) → t.quarter d p = s.quarter d p) ∧
      (¬ good → exec (.clockSettingRequest die q front ratio2) s = .next (s.tell "CLOCK_REFUSED" [die, q, front, ratio2])) ∧
      (∃ t, exec (.clockRelockComplete die q) s = .next t ∧ t = { s with quarters := t.quarters } ∧
        t.quarter die q = { s.quarter die q with relocking := false } ∧ ∀ d p, (d, p) ≠ (die, q) → t.quarter d p = s.quarter d p)) ∧
    (∀ w, (2000 ≤ w → w ≤ 8000 → exec (.pcapWrite w) s = .next { s with pcap := w }) ∧
      (w < 2000 ∨ 8000 < w → exec (.pcapWrite w) s = .next (s.tell "PCAP_REFUSED" [w]))) ∧
    (∀ die slew cload, die < 64 → (4 ≤ slew → slew ≤ 64 → 1 ≤ cload → ∃ t, exec (.slewWrite die slew cload) s = .next t ∧
        t = { s with dies := t.dies } ∧ t.die die = { s.die die with newSlew := slew, newCload := cload } ∧
        ∀ d, d ≠ die → t.die d = s.die d) ∧
      (slew < 4 ∨ 64 < slew → exec (.slewWrite die slew cload) s = .next (s.tell "SLEW_REFUSED" [die, slew, cload]))) ∧
    (∀ die load, die < 64 → s.booted = true → ∃ t, exec (.slopeStep die load) s = .next t ∧ t.mem = s.mem ∧
      Moves (s.die die).est load (s.die die).newSlew (t.die die).est ∧ (t.die die).slew = (s.die die).newSlew ∧
      (t.die die).filler = (t.die die).est - load ∧ (∀ d, d ≠ die → t.die d = s.die d) ∧
      (∀ c k, (s.die die).rampCtx.Nodup → c ∈ (s.die die).rampCtx → s.ctx? c = some k → t.ctx? c = some { k with
        energy := k.energy + (t.die die).filler * 1024 * 1000 / (s.quarter die 0).front / (s.die die).rampCtx.length }) ∧
      ((s.die die).rampCtx = [] → t.ctxs = s.ctxs) ∧ ((t.die die).est = load → (t.die die).rampCtx = []) ∧
      exec (.slopeStep (64 + die) load) s = .next s)

/-- R115 to R117: a debugger's stop takes the group's threads out of their runs; the group is STOPPED when no operation in flight targets a
register of it; registers, predicates, %EPC, ESLOT, the program counter and cause bits are written only then; resume lets it go on. -/
def Obligations.DebuggerStopsWritesAndResumes : Prop :=
  ∀ (s : State) (r : ThreadRef) (g : Group), let n := r.tid / 32
    (∀ c, (s.ctx? c).isSome = true →
      (∃ t, exec (.debuggerAttach c true) s = .next t ∧ t = { s with debuggers := t.debuggers, attachedEver := true } ∧
        ∀ x, x ∈ t.debuggers ↔ x = c ∨ x ∈ s.debuggers) ∧
      (∃ t, exec (.debuggerAttach c false) s = .next t ∧ t = { s with debuggers := t.debuggers } ∧
        ∀ x, x ∈ t.debuggers ↔ x ≠ c ∧ x ∈ s.debuggers)) ∧
    (s.group? r.team n = some g →
      (s.debugged r.team = true → g.stopped = false → ∃ t, exec (.debugStopRequest r.team n) s = .next t ∧
        t = { s with teams := t.teams, cores := t.cores } ∧
        (∃ g', t.group? r.team n = some g' ∧ GroupLeft g g') ∧
        ∀ o, o ≠ (r.team, n) → t.group? o.1 o.2 = s.group? o.1 o.2) ∧
      (s.debugged r.team = false → exec (.debugStopRequest r.team n) s = .next s) ∧
      (g.stopReq = true → s.groupBusy r.team n = true → exec (.groupStopped r.team n) s = .next s) ∧
      (g.stopReq = true → s.groupBusy r.team n = false → ∃ t, exec (.groupStopped r.team n) s = .next t ∧
        t = { s with teams := t.teams, cores := t.cores, notices := s.notices ++ [⟨"STOPPED", [r.team, n]⟩] } ∧
        (∃ g', t.group? r.team n = some g' ∧ g'.stopped = true ∧ g'.causes = g.causes ∧ ∀ th ∈ g'.threads, th.live = true → th.stopped = true) ∧
        ∀ o, o ≠ (r.team, n) → t.group? o.1 o.2 = s.group? o.1 o.2) ∧
      (s.debugged r.team = true → g.stopped = true → ∃ t g', exec (.debugResume r.team n) s = .next t ∧ t = { s with teams := t.teams } ∧
        t.group? r.team n = some g' ∧ g'.stopped = false ∧ (∀ th ∈ g'.threads, th.stopped = false) ∧
        g'.threads.map (fun th => (th.regs, th.status, th.runPc)) = g.threads.map (fun th => (th.regs, th.status, th.runPc)) ∧
        ∀ o, o ≠ (r.team, n) → t.group? o.1 o.2 = s.group? o.1 o.2) ∧
      (∀ what ix v, s.debugged r.team = false ∨ g.stopped = false ∨ 5 < what →
        exec (.debugWrite r.team r.tid what ix v) s = .next (s.tell "DEBUG_REFUSED" [r.team, r.tid, what, ix]))) ∧
    (∀ th ix v, Stopped s r g th →
      (ix < g.nreg → Wrote (.debugWrite r.team r.tid 0 ix v) s r (th.setReg ix v)) ∧
      (g.nreg ≤ ix → exec (.debugWrite r.team r.tid 0 ix v) s = .next (s.tell "DEBUG_REFUSED" [r.team, r.tid, 0, ix])) ∧
      (1 ≤ ix → ix ≤ 7 → Wrote (.debugWrite r.team r.tid 1 ix v) s r (th.setPred ix (v.getLsbD 0))) ∧
      Wrote (.debugWrite r.team r.tid 2 ix v) s r { th with epc := v } ∧
      (∀ x, v.toNat ≤ 2 → x.extractLsb' 9 2 = v.extractLsb' 0 2 → x &&& 0xFFFFF9FF = th.ecause &&& 0xFFFFF9FF →
        Wrote (.debugWrite r.team r.tid 3 ix v) s r { th with ecause := x }) ∧
      (ix ≤ 2 → ∃ u, Wrote (.debugWrite r.team r.tid 4 ix v) s r u ∧ u.runPc = ⟨v, ix⟩ ∧ u.regs = th.regs ∧ u.preds = th.preds) ∧
      (ix < 256 → ∃ t, exec (.debugWrite r.team r.tid 5 ix v) s = .next t ∧ t = { s with teams := t.teams } ∧
        t.group? r.team n = some { g with causes := g.causes &&& ~~~(BitVec.ofNat 256 (2 ^ ix)) }))

/-- R17, R278 to R280, R283 to R285: boot takes the ACTIVE slot, or the other one once, and the records in
flash, and fences what they disable; records of an older version leave the package in reset; images that keep R279 (laid out as log entry 90 says), the monitor's and the scheduler's
first, make their slot PENDING, and the record set that comes with them is what the next boot reads; an update, which waits for a
checkpoint in progress, hands over to a verified PENDING slot, whose first heartbeat within 2^28 cycles makes it ACTIVE and whose
missed one FAILED, and so does that of a PENDING slot that boots in the ACTIVE one's place; frames that match the wake filter are held, four at most; secure flash outlives a power loss. -/
def Obligations.BootImagesAndUpdates : Prop :=
  ∀ (s : State),
    (∀ monA imgA monB imgB recordsOk plugins, s.booted = false → s.flash.slots.length = 2 →
      let boot := Instr.powerOnBoot monA imgA monB imgB recordsOk plugins
      let act := if (s.flash.slot 0).state = .active then 0 else 1
      let good (i : Nat) : Prop :=
        (if i = 0 then monA = true ∧ imgA = true else monB = true ∧ imgB = true) ∧ s.flash.minVersion ≤ (s.flash.slot i).version
      let tried := (s.flash.slot (1 - act)).state ≠ .empty ∧ (s.flash.slot (1 - act)).state ≠ .failed
      let r := s.flash.records
      (good act ∨ tried ∧ good (1 - act) → recordsOk = true → s.flash.recVersion ≤ r.version →
        ∃ t, exec boot s = .next t ∧ t.booted = true ∧ t.records = r ∧ t.flash = { s.flash with recVersion := r.version } ∧ t.mem = s.mem ∧
          (∃ i, (good act → i = act) ∧ (¬ good act → i = 1 - act) ∧ t.running = some i ∧
            t.measured[0]? = some ((s.flash.slot i).digest ++ leBytes (s.flash.slot i).version 4) ∧ t.rootBlock = t.measured.headD []) ∧
          (r.disabled ++ s.flash.disabled = [] → t.cores = s.cores ∧ t.dies = s.dies) ∧
          ∀ u ∈ r.disabled ++ s.flash.disabled, u < 2 ^ 16 → (∃ c ∈ s.cores, c.id = u) → (t.core u).fenced = true) ∧
      (good act → recordsOk = false ∨ r.version < s.flash.recVersion →
        ∃ t, exec boot s = .next t ∧ t.booted = false ∧ t.failedBoot = true ∧ t.flash = s.flash) ∧
      (¬ good act → ¬ (tried ∧ good (1 - act)) →
        ∃ t, exec boot s = .next t ∧ t.booted = false ∧ t.failedBoot = true ∧
          ((s.flash.slot (1 - act)).state = .pending → (t.flash.slot (1 - act)).state = .failed))) ∧
    (∀ slot (imgs : List (List Byte)) recs, slot < 2 → s.flash.slots.length = 2 →
      ((s.flash.slot slot).state ≠ .active → (s.flash.slot slot).state ≠ .pending → 2 ≤ imgs.length → imgs.length ≤ 258 →
        (∀ b ∈ imgs, ImageOk s b) →
        ∃ t, exec (.imageWrite slot (imgs.flatten, recs) true) s = .next t ∧
          t = { s with flash := { s.flash with slots := t.flash.slots, records := recs.getD s.flash.records } } ∧
          (t.flash.slot slot).state = .pending ∧ t.flash.slot (1 - slot) = s.flash.slot (1 - slot) ∧
          (t.flash.slot slot).images.length = imgs.length ∧
          ∀ (i : Nat) (im : Image) (b : List Byte), (t.flash.slot slot).images[i]? = some im → imgs[i]? = some b → ImageIs im b)) ∧
    (∀ slot h recs, slot < 2 →
      exec (.imageWrite slot (h, recs) false) s = .next (s.tell "IMAGE_REJECTED" [slot]) ∧
      ((s.flash.slot slot).state = .active ∨ (s.flash.slot slot).state = .pending ∨ leNat ((h.drop 4).take 4) < s.flash.minVersion ∨
        (h.drop 16).take 32 ≠ leBytes (Config.shake256 ((h.drop 64).take (leNat ((h.drop 8).take 4)))).toNat 32 →
        exec (.imageWrite slot (h, recs) true) s = .next (s.tell "IMAGE_REJECTED" [slot]))) ∧
    (∀ ok, (s.booted = false ∨ s.update ≠ .none → exec (.liveUpdate ok) s = .next (s.tell "UPDATE_REFUSED" [])) ∧
      (s.booted = true → s.update = .none → CheckpointRuns s → exec (.liveUpdate ok) s = .next { s with update := .waiting ok })) ∧
    (∀ i, i < 2 → s.flash.slots.length = 2 →
      let sound := (∀ im ∈ (s.flash.slot i).images, im.statever ≤ Config.structVersion ∧
        im.digest = leBytes (Config.shake256 im.body).toNat 32)
      ((s.flash.slot i).state = .pending → (s.flash.slot (1 - i)).state = .active → s.booted = true → s.update = .none →
        ¬ CheckpointRuns s →
        (sound → exec (.liveUpdate true) s = .next { s with update := .handed i s.now, handover := some s.handOver }) ∧
        (¬ sound → exec (.liveUpdate true) s = .next (s.tell "UPDATE_VERIFY_FAILED" [i])) ∧
        exec (.liveUpdate false) s = .next (s.tell "UPDATE_VERIFY_FAILED" [i])) ∧
      (∀ since, s.update = .handed i since → s.heldTeardowns = [] → s.heldResets = [] →
        let missed (e : Instr) : Prop := ∃ t, exec e s = .next t ∧ since + 2 ^ 28 ≤ t.ns ∧
          t = { s with update := .none, handover := none, ns := t.ns, flash := { s.flash with slots := t.flash.slots } } ∧
          (t.flash.slot i).state = .failed ∧ t.flash.slot (1 - i) = s.flash.slot (1 - i)
        (s.now ≤ since + 2 ^ 28 → ∃ t, exec .updateHeartbeat s = .next t ∧
          t = { s with update := .none, handover := none, running := some i, flash := t.flash, measured := t.measured } ∧
          (t.flash.slot i).state = .active ∧ (t.flash.slot (1 - i)).state = .standby ∧ t.flash.minVersion = (s.flash.slot i).version ∧
          t.measured[0]? = some ((s.flash.slot i).digest ++ leBytes (s.flash.slot i).version 4)) ∧
        (since + 2 ^ 28 < s.now → missed .updateHeartbeat) ∧ missed .heartbeatTimeout) ∧
      (s.update = .none → s.running = some i → (s.flash.slot i).state = .pending →
        (∃ t, exec .updateHeartbeat s = .next t ∧ (t.flash.slot i).state = .active ∧ (t.flash.slot (1 - i)).state = .standby ∧
          t.flash.minVersion = (s.flash.slot i).version) ∧
        ∃ t, exec .heartbeatTimeout s = .next t ∧ (t.flash.slot i).state = .failed ∧ (t.flash.slot (1 - i)).state = .active)) ∧
    (∀ n, ∃ t, exec (.pluginTimeout n) s = .next t ∧ n ∈ t.unplugged ∧
      t = { s with unplugged := t.unplugged, notices := s.notices ++ [⟨"PLUGIN_UNLOADED", [n]⟩] }) ∧
    (∀ f : List Byte, let hit := ∃ e ∈ s.wakeFilter, BitVec.ofNat 32 (leNat ((f.drop e.1).take 4)) &&& e.2.1 = e.2.2
      (s.gated = false → exec (.wakeFrame f) s = .next (s.tell "MGMT_FRAME" (f.map BitVec.toNat))) ∧
      (s.gated = true → ¬ hit → exec (.wakeFrame f) s = .next s) ∧
      (s.gated = true → hit → s.wakeHeld.length < 4 → exec (.wakeFrame f) s = .next { s with wakeHeld := s.wakeHeld ++ [f] }) ∧
      (s.gated = true → hit → 4 ≤ s.wakeHeld.length → exec (.wakeFrame f) s = .next { s with wakeDropped := s.wakeDropped + 1 }) ∧
      (s.gated = true → s.wakeHeld = [f] → exec .controlCoreWake s =
        .next (({ s with gated := false, wakeHeld := [] } : State).tell "MGMT_FRAME" (f.map BitVec.toNat)))) ∧
    (∃ t, exec .powerLoss s = .next t ∧ t.flash = s.flash ∧ t.hostMem = s.hostMem ∧ t.mem = [] ∧ t.booted = false ∧ t.teams = [] ∧
      t.ctxs = [] ∧ t.queues = [] ∧ t.update = .none)

/-- R281, R282: the seven SPDM requests that the device supports are answered while it runs; signing requests are served one at a time; a
signature takes the next one-time index, which is in flash first, and covers its request's nonce when it is released; at 2^20 the
answer is KEYSPENT, and the device attests no more (log entry 42); block 5 tells of debuggers and of CAPTURE in a descriptor. -/
def Obligations.AttestationAnswers : Prop :=
  ∀ (s : State), s.booted = true → s.gated = false →
    (s.flash.keyIndex < 1048576 →
      (∃ t, exec .getVersion s = .next t ∧ Answered s t 1 [1, 3]) ∧
      (∃ t, exec .getCapabilities s = .next t ∧ Answered s t 2 []) ∧
      (∃ t, exec .negotiateAlgorithms s = .next t ∧ Answered s t 3 []) ∧
      (∃ t, exec .getDigests s = .next t ∧ Answered s t 4 []) ∧
      (∃ t, exec .getCertificate s = .next t ∧ Answered s t 5 []) ∧
      (∀ nonce, s.signing = none → s.signs = [] → exec (.challenge nonce) s = .next { s with
        signing := some nonce, flash := { s.flash with keyIndex := s.flash.keyIndex + 1 } }) ∧
      (s.measured.length = 4 →
        (∀ ix b, s.measured[ix]? = some b → ∃ t, exec (.getMeasurements (ix + 1)) s = .next t ∧ Answered s t 7 b) ∧
        (∀ b : Byte, b.getLsbD 0 = s.attachedEver → (b.getLsbD 1 = true ↔ ∃ k ∈ s.ctxs, fieldAt k.desc 4 4 % 2 = 1) →
          b.extractLsb' 2 6 = 0 →
          (∃ t, exec (.getMeasurements 5) s = .next t ∧ Answered s t 7 [b]) ∧
          ∃ t, exec (.getMeasurements 0xFF) s = .next t ∧ Answered s t 7 (s.measured.flatten ++ [b])) ∧
        (∃ t, exec (.getMeasurements 0) s = .next t ∧ Answered s t 7 [5]))) ∧
    (∀ nonce busy, s.signing = some busy → exec (.challenge nonce) s = .next { s with signs := s.signs ++ [nonce] }) ∧
    (∀ nonce, s.signing = some nonce → s.signs = [] → Answered { s with signing := none } s.signDone 6 (leBytes nonce.toNat 32)) ∧
    (1048576 ≤ s.flash.keyIndex →
      (∀ i ∈ [Instr.getVersion, .getCapabilities, .negotiateAlgorithms, .getDigests, .getCertificate], exec i s = .next (s.tell "KEYSPENT" [])) ∧
      ∀ nonce, s.signing = none → s.signs = [] → exec (.challenge nonce) s = .next (s.tell "KEYSPENT" []))

/-! # Encodings, the step, and what every step keeps -/

namespace Sys2Proof.Claims

/-- A word and what it decodes to. -/
def Means (w : Word) (i : Instr) : Prop := decodeWord w 0 = .ok i

/-- A core's next turn: it issues a bundle at a place whose packet is fetched, and the issue group there is the one word in its slot. -/
structure Turns (s : State) (core : Nat) (b : List ThreadRef) (th : Thread) (k : Ctx) (s1 : State) (ws : List Word) (nxt : Nat) : Prop where
  quiet : s.inputs = [] ∧ s.tick % 2 = 0
  turn : s.issueTurn = some (.issue core b)
  first : (b.head?).bind s.thread? = some th ∧ ((b.head?).bind s.ctxOf?).bind s.ctx? = some k
  fetched : (s.ticked.enter core b th.pc).fetchPacket core k th.pc.pkt = (s1, .words ws) ∧
    s1.issue = { Issue.idle with core := core, bundle := b, pc := th.pc, start := th.pc }
  alone : groupSlots ws 3 th.pc.slot = ([th.pc.slot], nxt)

/-- The word raises no encoding cause, and no thread parks or waits for an operand before it. -/
structure Issues (s1 : State) (core : Nat) (b : List ThreadRef) (ws : List Word) (slot : Nat) (i : Instr) : Prop where
  decoded : instrAt ws slot = .ok i ∧ opOf (ws.getD slot 0) ≠ 0x7E
  clean : ∀ r ∈ b, ∀ n, s1.nregOf r = some n → fieldCheck n i = true
  free : ∀ r ∈ b, (∀ th, s1.thread? r = some th → th.mustPark i = false) ∧
    ∀ x, ({ s1 with issue := x } : State).pendingOn core r i = false

/-- Memory, host memory and every scratchpad are in canonical form. -/
def Canonical (s : State) : Prop := s.mem.wf = true ∧ s.hostMem.wf = true ∧ ∀ c ∈ s.cores, c.scratch.wf = true

end Sys2Proof.Claims

/-- R43 to R49, R67, R76 to R78: words worked out in the manual mean what it says, and are refused as it says. -/
def Obligations.WorkedWordsDecode : Prop :=
  Means 0x01060410 (.iadd false false 3 1 2 0) ∧ Means 0x220817A3 (.fmul false false 4 5 0x74 3) ∧
  Means 0x20801838 (.fadd false true 0 6 7 0) ∧ Means 0xD2284002 (.ldw true 10 4 0 2) ∧ Means 0x40145FFC (.addi false 5 5 0xFFC) ∧
  decodeWord 0x49240000 0x12345678 = .ok (.movk false 9 0x12345678) ∧ Means 0xFE230000 (.rep 8 true true false 0) ∧
  Means 0x1F202000 (.mov false false 16 8 0) ∧ Means 0x57206001 (.stw false 8 6 0 1) ∧ Means 0x7C300000 (.sysExit false 0) ∧
  Means 0x4B000050 (.srd false 0 0x050) ∧ Means 0 (.nop false) ∧
  decodeWord 1 0 = .error .illegalField ∧ decodeWord 0xFFFFFFFF 0 = .error .illegalOpcode ∧
  decodeWord 0x6D0420E8 0 = .error .illegalOpcode ∧ decodeWord 0x700C4008 0 = .error .illegalOpcode

/-- R39, R48, R79: decoding the bytes of the words of any well-formed instruction gives that instruction, with every operand, and leaves the
bytes after it. -/
def Obligations.DecodingGivesTheEncodedInstructionBack : Prop :=
  ∀ (i : Instr) (rest : List Byte), WellFormed i → encode i ≠ [] → decode ((encode i).flatMap bytesOfWord ++ rest) = .ok (i, rest)

/-- R41, R57 to R61: a step takes the oldest event; without one, the core whose turn it is runs exec of the instruction that the fetched
word decodes to on its bundle, ends the group, counts the energy of it, and lets the other cores count, when no thread is raised a cause or
finds no room; a thread that ends its group stands at the next word
of its run, with the results pushed into its latches newest first, or after the run, with latches zero. -/
def Obligations.AStepRunsTheDecodedInstruction : Prop :=
  (∀ (s t : State) (e : Instr) (rest : List Instr), s.inputs = e :: rest → exec e { s with inputs := rest } = .next t →
    step s = .next { t with issue := Issue.idle }) ∧
  (∀ (s s1 t : State) (core nxt : Nat) (b : List ThreadRef) (th : Thread) (k : Ctx) (ws : List Word) (i : Instr),
    Turns s core b th k s1 ws nxt → Issues s1 core b ws th.pc.slot i →
    exec i { s1 with issue := { s1.issue with next := ws[th.pc.slot + 1]? } } = .next t →
    t.issue.raised = [] → t.issue.hold = false →
    (∀ r ∈ b, ∀ u w, t.thread? r = some u → u.status = .waiting w → u.pc = th.pc ∧ ∀ q, w ≠ .room q) →
    step s = .next { (s.meterTurn (s.metered (t.endGroup k b ws th.pc.pkt nxt)) core b.length).catchUp (s.turns.map s.turnCore) with
      issue := Issue.idle }) ∧
  (∀ (th : Thread) (ws : List Word) (pkt : Word) (nxt : Nat) (tail : Nat → Option Pc), let u := th.moveOn ws pkt nxt tail
    let pushed := (th.pushes.reverse ++ th.latches).take 4
    u.regs = th.regs ∧ (nxt < 3 → u.pc = ⟨pkt, nxt⟩ ∧ u.latches = pushed) ∧
    (3 ≤ nxt → links ws = true → th.runLen < 4 → u.pc = ⟨pkt + 1, 0⟩ ∧ u.runLen = th.runLen + 1 ∧ u.latches = pushed) ∧
    (3 ≤ nxt → links ws = false ∨ 4 ≤ th.runLen → u.pc = ⟨pkt + 1, 0⟩ ∧ u.inRun = false ∧ u.latches = [0, 0, 0, 0]))

/-- Every step keeps package memory, host memory and the scratchpads canonical: no address is listed twice or out of order, and no
listed byte equals what an unlisted one reads as. -/
def Obligations.StepsKeepMemoryCanonical : Prop :=
  ∀ s t : State, Canonical s → step s = .next t → Canonical t

/-- The state after reset is canonical, runs nothing and holds nothing; its power cap is R270's 8,000 W; R12, R271: every quarter and die stands
at its default setting. -/
def Obligations.ResetIsCanonicalAndIdle : Prop :=
  Canonical State.reset ∧ State.reset.booted = false ∧ State.reset.teams = [] ∧ State.reset.ctxs = [] ∧ State.reset.pcap = 8000 ∧
  (∀ d q, let k := State.reset.quarter d q; k.front = 950 ∧ k.ratio2 = 4 ∧ k.relocking = false) ∧ ∀ d, (State.reset.die d).slew = 16
end

