-- ==== Sys2Proof/Laws/Memory.lean ====
section
/-!
SUPPORT. Byte memories: the canonical form is kept by every operation, and what a read gives after a write.
-/
namespace Sys2Proof.Machine

/-! ## The canonical form -/

/-- A memory whose entries lie above a bound lies above every lower bound. -/
theorem Memory.wfFrom_weaken {lo lo' : Option Nat} {m : Memory} (h : Memory.wfFrom lo m = true)
    (hl : ∀ a, lo' = some a → ∃ b, lo = some b ∧ a ≤ b) : Memory.wfFrom lo' m = true := by
  cases m with
  | nil => rfl
  | cons c rest =>
    obtain ⟨k, v⟩ := c
    simp only [Memory.wfFrom, Bool.and_eq_true] at h ⊢
    refine ⟨⟨?_, h.1.2⟩, h.2⟩
    cases lo' with
    | none => rfl
    | some a =>
      obtain ⟨b, rfl, hb⟩ := hl a rfl
      have := h.1.1
      simp only [decide_eq_true_eq] at this ⊢
      omega

/-- A write above the bound keeps the form. -/
theorem Memory.wfFrom_write (m : Memory) (a : Nat) (b : Byte) : ∀ (lo : Option Nat), (∀ l, lo = some l → l < a) →
    Memory.wfFrom lo m = true → Memory.wfFrom lo (m.write a b) = true := by
  induction m with
  | nil =>
    intro lo hlo _
    unfold Memory.write
    split
    · rfl
    · rename_i hb
      cases lo <;> simp_all [Memory.wfFrom]
  | cons c rest ih =>
    obtain ⟨k, v⟩ := c
    intro lo hlo h
    simp only [Memory.wfFrom, Bool.and_eq_true] at h
    obtain ⟨⟨hk, hv⟩, hr⟩ := h
    simp only [Memory.write]
    split
    · rename_i hlt
      split
      · simp [Memory.wfFrom, hv, hr, hk]
      · rename_i hb
        cases lo <;> simp_all [Memory.wfFrom]
    · rename_i hge
      split
      · rename_i heq
        subst heq
        split
        · exact Memory.wfFrom_weaken hr fun l hl => ⟨k, rfl, Nat.le_of_lt (hlo l hl)⟩
        · rename_i hb
          cases lo <;> simp_all [Memory.wfFrom]
      · rename_i hne
        simp only [Memory.wfFrom, Bool.and_eq_true]
        exact ⟨⟨hk, hv⟩, ih (some k) (fun l hl => by cases hl; omega) hr⟩

/-- A write keeps the canonical form. -/
theorem Memory.wf_write {m : Memory} (h : m.wf = true) (a : Nat) (b : Byte) : (m.write a b).wf = true :=
  Memory.wfFrom_write m a b none (fun _ hl => by cases hl) h

/-- Writing bytes keeps the canonical form. -/
theorem Memory.wf_writeBytes (bs : List Byte) : ∀ (m : Memory) (a : Nat), m.wf = true → (m.writeBytes a bs).wf = true := by
  induction bs with
  | nil => intro m a h; exact h
  | cons b bs ih => intro m a h; exact ih _ _ (Memory.wf_write h a b)

/-- Pasting a slice keeps the canonical form. -/
theorem Memory.wf_paste (sl : Memory) : ∀ (m : Memory) (a : Nat), m.wf = true → (m.paste a sl).wf = true := by
  induction sl with
  | nil => intro m a h; exact h
  | cons c cs ih => intro m a h; exact ih _ a (Memory.wf_write h _ _)

/-- Dropping entries keeps the form. -/
theorem Memory.wfFrom_filter (p : Nat × BitVec 8 → Bool) (m : Memory) : ∀ lo, Memory.wfFrom lo m = true →
    Memory.wfFrom lo (m.filter p) = true := by
  induction m with
  | nil => intro _ h; exact h
  | cons c rest ih =>
    obtain ⟨k, v⟩ := c
    intro lo h
    simp only [Memory.wfFrom, Bool.and_eq_true] at h
    by_cases hp : p (k, v) = true
    · rw [List.filter_cons_of_pos hp]
      simp only [Memory.wfFrom, Bool.and_eq_true]
      exact ⟨h.1, ih _ h.2⟩
    · rw [List.filter_cons_of_neg hp]
      apply ih
      refine Memory.wfFrom_weaken h.2 fun a ha => ⟨k, rfl, ?_⟩
      subst ha
      have := h.1.1
      simp only [decide_eq_true_eq] at this
      omega

/-- Zeroing a region keeps the canonical form. -/
theorem Memory.wf_clear {m : Memory} (h : m.wf = true) (a n : Nat) : (m.clear a n).wf = true :=
  Memory.wfFrom_filter _ m none h

/-- Moving every address down by a keeps the form, where each lies at or above a. -/
theorem Memory.wfFrom_shift (a : Nat) (m : Memory) : ∀ lo, (∀ l, lo = some l → a ≤ l) → (∀ c ∈ m, a ≤ c.1) →
    Memory.wfFrom lo m = true → Memory.wfFrom (lo.map (· - a)) (m.map fun c => (c.1 - a, c.2)) = true := by
  induction m with
  | nil => intro _ _ _ _; rfl
  | cons c rest ih =>
    obtain ⟨k, v⟩ := c
    intro lo hlo hm h
    simp only [Memory.wfFrom, Bool.and_eq_true] at h
    have hk : a ≤ k := hm (k, v) (by simp)
    have := ih (some k) (fun l hl => by cases hl; exact hk) (fun c hc => hm c (by simp [hc])) h.2
    simp only [List.map_cons, Memory.wfFrom, Bool.and_eq_true]
    refine ⟨⟨?_, h.1.2⟩, this⟩
    cases lo with
    | none => rfl
    | some l =>
      have h1 := h.1.1
      have h2 := hlo l rfl
      simp only [Option.map_some, decide_eq_true_eq] at h1 ⊢
      omega

/-- A slice of a memory in canonical form is in canonical form. -/
theorem Memory.wf_slice {m : Memory} (h : m.wf = true) (a n : Nat) : (m.slice a n).wf = true := by
  refine Memory.wfFrom_shift a _ none (fun _ hl => by cases hl) (fun c hc => ?_) (Memory.wfFrom_filter _ m none h)
  have := (List.mem_filter.mp hc).2
  simp only [Bool.and_eq_true, decide_eq_true_eq] at this
  exact this.1

/-! ## Reads after writes -/

/-- Below every entry a read gives the blank byte. -/
theorem Memory.read_below (m : Memory) : ∀ l a, Memory.wfFrom (some l) m = true → a ≤ l → m.read a = Memory.blank := by
  induction m with
  | nil => intro _ _ _ _; rfl
  | cons c rest ih =>
    obtain ⟨k, v⟩ := c
    intro l a h hle
    simp only [Memory.wfFrom, Bool.and_eq_true, decide_eq_true_eq] at h
    have hlt := h.1.1
    simp only [Memory.read]
    rw [if_neg (by omega)]
    exact ih k a h.2 (by omega)

/-- A byte reads as it was written. -/
theorem Memory.read_write_same (m : Memory) (a : Nat) (b : Byte) : ∀ lo, Memory.wfFrom lo m = true →
    (m.write a b).read a = b := by
  induction m with
  | nil =>
    intro _ _
    unfold Memory.write
    split
    · simp_all [Memory.read]
    · simp [Memory.read]
  | cons c rest ih =>
    obtain ⟨k, v⟩ := c
    intro lo h
    simp only [Memory.wfFrom, Bool.and_eq_true] at h
    simp only [Memory.write]
    split
    · rename_i hlt
      split
      · rename_i hb
        simp only [Memory.read]
        rw [if_neg (by omega), hb]
        exact Memory.read_below rest k a h.2 (by omega)
      · simp [Memory.read]
    · split
      · rename_i heq
        split
        · rename_i hb
          subst heq
          rw [hb]
          exact Memory.read_below rest k k h.2 (Nat.le_refl k)
        · simp [Memory.read]
      · rename_i hne
        simp only [Memory.read]
        rw [if_neg hne]
        exact ih _ h.2

/-- A write leaves every other byte alone. -/
theorem Memory.read_write_other (m : Memory) {a x : Nat} (b : Byte) (hx : x ≠ a) : ∀ lo, Memory.wfFrom lo m = true →
    (m.write a b).read x = m.read x := by
  induction m with
  | nil =>
    intro _ _
    unfold Memory.write
    split
    · rfl
    · simp only [Memory.read]
      rw [if_neg (fun h => hx h.symm)]
  | cons c rest ih =>
    obtain ⟨k, v⟩ := c
    intro lo h
    simp only [Memory.wfFrom, Bool.and_eq_true] at h
    simp only [Memory.write]
    split
    · split
      · rfl
      · rw [Memory.read, if_neg (fun h => hx h.symm)]
    · split
      · rename_i heq
        subst heq
        have hne : ¬ k = x := fun h => hx h.symm
        split
        · simp only [Memory.read, if_neg hne]
        · simp only [Memory.read, if_neg hne]
      · simp only [Memory.read]
        split
        · rfl
        · exact ih _ h.2

/-- Bytes outside the span written read as before. -/
theorem Memory.read_writeBytes_other (bs : List Byte) : ∀ (m : Memory) (a x : Nat), m.wf = true →
    (x < a ∨ a + bs.length ≤ x) → (m.writeBytes a bs).read x = m.read x := by
  induction bs with
  | nil => intro _ _ _ _ _; rfl
  | cons b bs ih =>
    intro m a x h hx
    simp only [List.length_cons] at hx
    simp only [Memory.writeBytes]
    rw [ih _ _ _ (Memory.wf_write h a b) (by omega)]
    exact Memory.read_write_other m b (by omega) none h

/-- The span written reads as it was written. -/
theorem Memory.readBytes_writeBytes (bs : List Byte) : ∀ (m : Memory) (a : Nat), m.wf = true →
    (m.writeBytes a bs).readBytes a bs.length = bs := by
  induction bs with
  | nil => intro _ _ _; rfl
  | cons b bs ih =>
    intro m a h
    simp only [Memory.writeBytes, List.length_cons, Memory.readBytes]
    rw [ih _ _ (Memory.wf_write h a b), Memory.read_writeBytes_other bs _ _ _ (Memory.wf_write h a b) (by omega),
      Memory.read_write_same m a b none h]

end Sys2Proof.Machine
end

