-- ==== Sys2Proof/Laws/PerInstr.lean ====
section
/-!
SUPPORT. For each instruction: the word that the encoder writes for it decodes to it (R43 to R63, R79).
-/
namespace Sys2Proof.Laws

set_option linter.unusedSimpArgs false
set_option linter.unusedTactic false

/-- The word of a well-formed instruction decodes to it, whatever word follows; MOVK with its literal.  A device event has no word. -/
def Encoding.Statement (i : Instr) : Prop :=
  wellFormed i = true → match encode i with
    | [w] => ∀ word, decodeWord w word = .ok i
    | [w, lit] => decodeWord w lit = .ok i
    | _ => True

/-! ## Fields of a concatenation -/

theorem part_low {m n : Nat} (x : BitVec m) (y : BitVec n) (k l : Nat) (h : k + l ≤ n) :
    (x ++ y).extractLsb' k l = y.extractLsb' k l := by
  ext i hi
  simp only [BitVec.getElem_extractLsb', BitVec.getLsbD_append]
  rw [if_pos (by omega)]

theorem part_high {m n : Nat} (x : BitVec m) (y : BitVec n) (k l : Nat) (h : n ≤ k) :
    (x ++ y).extractLsb' k l = x.extractLsb' (k - n) l := by
  ext i hi
  simp only [BitVec.getElem_extractLsb', BitVec.getLsbD_append]
  rw [if_neg (by omega)]; congr 1; omega

theorem part_all {n : Nat} (x : BitVec n) : x.extractLsb' 0 n = x := by
  ext i hi; simp

theorem part_two {m a b : Nat} (x : BitVec m) (y : BitVec a) (z : BitVec b) : (x ++ y ++ z).extractLsb' 0 (a + b) = y ++ z := by
  apply BitVec.eq_of_getLsbD_eq
  intro i hi
  simp only [BitVec.getLsbD_extractLsb', BitVec.getLsbD_append, Nat.zero_add, hi, decide_true, Bool.true_and]
  split
  · rfl
  · rw [if_pos (by omega)]

theorem bit_low {m n : Nat} (x : BitVec m) (y : BitVec n) (k : Nat) (h : k < n) : (x ++ y).getLsbD k = y.getLsbD k := by
  simp [BitVec.getLsbD_append, h]

theorem bit_high {m n : Nat} (x : BitVec m) (y : BitVec n) (k : Nat) (h : n ≤ k) : (x ++ y).getLsbD k = x.getLsbD (k - n) := by
  simp [BitVec.getLsbD_append, Nat.not_lt.mpr h]

theorem bit_one (b : Bool) : (BitVec.ofBool b).getLsbD 0 = b := by cases b <;> rfl

theorem and_parts {m n : Nat} (x : BitVec m) (y : BitVec n) (v : Nat) :
    (x ++ y) &&& BitVec.ofNat (m + n) v = (x &&& BitVec.ofNat m (v / 2 ^ n)) ++ (y &&& BitVec.ofNat n (v % 2 ^ n)) := by
  apply BitVec.eq_of_getLsbD_eq
  intro i hi
  simp only [BitVec.getLsbD_and, BitVec.getLsbD_append, BitVec.getLsbD_ofNat]
  by_cases h : i < n
  · simp [h, hi, Nat.testBit_mod_two_pow]
  · have e : i - n + n = i := by omega
    have : i - n < m := by omega
    simp [h, hi, this, Nat.testBit_div_two_pow, e]

/-! ## The decoder's cases -/

theorem code_is {w : Word} {k l n : Nat} (h : (w.extractLsb' k l).toNat = n) : (w.extractLsb' k l).toNat = n := h

theorem checked_ok {w mask v : Word} {i j : Instr} (e : j = i) (h : w &&& mask = v) : checked w mask v j = .ok i := by
  rw [checked, if_pos h, e]

theorem either (b : Bool) : b = false ∨ b = true := by cases b <;> simp

theorem four (j : BitVec 2) : j = 0 ∨ j = 1 ∨ j = 2 ∨ j = 3 := by revert j; decide

theorem mma_ok {w : Word} {r : Except DecodeErr Instr} (fmt : BitVec 3) (fn : Nat) (h1 : w.extractLsb' 8 3 = fmt)
    (h2 : (w.extractLsb' 18 3).toNat = fn) (h : fmt ≠ 7) (h3 : 3 ≤ fn → fmt = 3 ∨ fmt = 4) (h4 : fn = 4 → w.getLsbD 21 = false) :
    mmaChecked w r = r := by
  subst h1 h2
  unfold mmaChecked
  rw [if_neg]
  simp only [Bool.or_eq_true, Bool.and_eq_true, decide_eq_true_eq, Bool.not_eq_true', Bool.or_eq_false_iff, decide_eq_false_iff_not]
  rintro ((a | ⟨a, b⟩) | ⟨a, b⟩)
  · exact h (BitVec.eq_of_toNat_eq a)
  · rcases h3 a with c | c <;> simp [c] at b
  · rw [h4 a] at b; cases b

/-- The format rule of a well-formed MMA. -/
theorem mma_fmt {i : Instr} (h : wellFormed i = true) : mmaFmtOk i = true := by
  unfold wellFormed at h; exact (Bool.and_eq_true_iff.mp h).2

theorem Encoding.nop (c : Bool) : Encoding.Statement (.nop c) := by
  intro _ word
  unfold decodeWord
  rw [code_is (n := 0) (by simp (disch := decide) only [asWord, part_low, part_high]; rfl)]
  refine checked_ok (by simp (disch := decide) only [asWord, part_low, part_high, part_all, bit_low, bit_high, bit_one, Nat.reduceSub]) ?_
  change _ &&& BitVec.ofNat (1+31) 0x7FFFFFFF = _
  simp only [and_parts, Nat.reduceDiv, Nat.reduceMod, Nat.reducePow, BitVec.and_zero]; rfl

theorem Encoding.iadd (c : Bool) (w : Bool) (d : BitVec 6) (s : BitVec 7) (t : BitVec 7) (p : BitVec 3) : Encoding.Statement (.iadd c w d s t p) := by
  intro _ word
  unfold decodeWord
  rw [code_is (n := 1) (by simp (disch := decide) only [asWord, part_low, part_high]; rfl)]
  refine checked_ok (by simp (disch := decide) only [asWord, part_low, part_high, part_all, bit_low, bit_high, bit_one, Nat.reduceSub]) ?_
  change _ &&& BitVec.ofNat (1+7+1+6+7+7+3) 0x7F000000 = _
  simp only [and_parts, Nat.reduceDiv, Nat.reduceMod, Nat.reducePow, BitVec.and_zero]; rfl

theorem Encoding.isub (c : Bool) (w : Bool) (d : BitVec 6) (s : BitVec 7) (t : BitVec 7) (p : BitVec 3) : Encoding.Statement (.isub c w d s t p) := by
  intro _ word
  unfold decodeWord
  rw [code_is (n := 2) (by simp (disch := decide) only [asWord, part_low, part_high]; rfl)]
  refine checked_ok (by simp (disch := decide) only [asWord, part_low, part_high, part_all, bit_low, bit_high, bit_one, Nat.reduceSub]) ?_
  change _ &&& BitVec.ofNat (1+7+1+6+7+7+3) 0x7F000000 = _
  simp only [and_parts, Nat.reduceDiv, Nat.reduceMod, Nat.reducePow, BitVec.and_zero]; rfl

theorem Encoding.imul (c : Bool) (w : Bool) (d : BitVec 6) (s : BitVec 7) (t : BitVec 7) (p : BitVec 3) : Encoding.Statement (.imul c w d s t p) := by
  intro _ word
  unfold decodeWord
  rw [code_is (n := 3) (by simp (disch := decide) only [asWord, part_low, part_high]; rfl)]
  refine checked_ok (by simp (disch := decide) only [asWord, part_low, part_high, part_all, bit_low, bit_high, bit_one, Nat.reduceSub]) ?_
  change _ &&& BitVec.ofNat (1+7+1+6+7+7+3) 0x7F000000 = _
  simp only [and_parts, Nat.reduceDiv, Nat.reduceMod, Nat.reducePow, BitVec.and_zero]; rfl

theorem Encoding.imulh (c : Bool) (w : Bool) (d : BitVec 6) (s : BitVec 7) (t : BitVec 7) (p : BitVec 3) : Encoding.Statement (.imulh c w d s t p) := by
  intro _ word
  unfold decodeWord
  rw [code_is (n := 4) (by simp (disch := decide) only [asWord, part_low, part_high]; rfl)]
  refine checked_ok (by simp (disch := decide) only [asWord, part_low, part_high, part_all, bit_low, bit_high, bit_one, Nat.reduceSub]) ?_
  change _ &&& BitVec.ofNat (1+7+1+6+7+7+3) 0x7F000000 = _
  simp only [and_parts, Nat.reduceDiv, Nat.reduceMod, Nat.reducePow, BitVec.and_zero]; rfl

theorem Encoding.imulhu (c : Bool) (w : Bool) (d : BitVec 6) (s : BitVec 7) (t : BitVec 7) (p : BitVec 3) : Encoding.Statement (.imulhu c w d s t p) := by
  intro _ word
  unfold decodeWord
  rw [code_is (n := 5) (by simp (disch := decide) only [asWord, part_low, part_high]; rfl)]
  refine checked_ok (by simp (disch := decide) only [asWord, part_low, part_high, part_all, bit_low, bit_high, bit_one, Nat.reduceSub]) ?_
  change _ &&& BitVec.ofNat (1+7+1+6+7+7+3) 0x7F000000 = _
  simp only [and_parts, Nat.reduceDiv, Nat.reduceMod, Nat.reducePow, BitVec.and_zero]; rfl

theorem Encoding.imad (c : Bool) (d : BitVec 6) (s : BitVec 7) (t : BitVec 7) (p : BitVec 3) : Encoding.Statement (.imad c d s t p) := by
  intro _ word
  unfold decodeWord
  rw [code_is (n := 6) (by simp (disch := decide) only [asWord, part_low, part_high]; rfl)]
  refine checked_ok (by simp (disch := decide) only [asWord, part_low, part_high, part_all, bit_low, bit_high, bit_one, Nat.reduceSub]) ?_
  change _ &&& BitVec.ofNat (1+8+6+7+7+3) 0x7F800000 = _
  simp only [and_parts, Nat.reduceDiv, Nat.reduceMod, Nat.reducePow, BitVec.and_zero]; rfl

theorem Encoding.imin (c : Bool) (w : Bool) (d : BitVec 6) (s : BitVec 7) (t : BitVec 7) (p : BitVec 3) : Encoding.Statement (.imin c w d s t p) := by
  intro _ word
  unfold decodeWord
  rw [code_is (n := 7) (by simp (disch := decide) only [asWord, part_low, part_high]; rfl)]
  refine checked_ok (by simp (disch := decide) only [asWord, part_low, part_high, part_all, bit_low, bit_high, bit_one, Nat.reduceSub]) ?_
  change _ &&& BitVec.ofNat (1+7+1+6+7+7+3) 0x7F000000 = _
  simp only [and_parts, Nat.reduceDiv, Nat.reduceMod, Nat.reducePow, BitVec.and_zero]; rfl

theorem Encoding.imax (c : Bool) (w : Bool) (d : BitVec 6) (s : BitVec 7) (t : BitVec 7) (p : BitVec 3) : Encoding.Statement (.imax c w d s t p) := by
  intro _ word
  unfold decodeWord
  rw [code_is (n := 8) (by simp (disch := decide) only [asWord, part_low, part_high]; rfl)]
  refine checked_ok (by simp (disch := decide) only [asWord, part_low, part_high, part_all, bit_low, bit_high, bit_one, Nat.reduceSub]) ?_
  change _ &&& BitVec.ofNat (1+7+1+6+7+7+3) 0x7F000000 = _
  simp only [and_parts, Nat.reduceDiv, Nat.reduceMod, Nat.reducePow, BitVec.and_zero]; rfl

theorem Encoding.umin (c : Bool) (w : Bool) (d : BitVec 6) (s : BitVec 7) (t : BitVec 7) (p : BitVec 3) : Encoding.Statement (.umin c w d s t p) := by
  intro _ word
  unfold decodeWord
  rw [code_is (n := 9) (by simp (disch := decide) only [asWord, part_low, part_high]; rfl)]
  refine checked_ok (by simp (disch := decide) only [asWord, part_low, part_high, part_all, bit_low, bit_high, bit_one, Nat.reduceSub]) ?_
  change _ &&& BitVec.ofNat (1+7+1+6+7+7+3) 0x7F000000 = _
  simp only [and_parts, Nat.reduceDiv, Nat.reduceMod, Nat.reducePow, BitVec.and_zero]; rfl

theorem Encoding.umax (c : Bool) (w : Bool) (d : BitVec 6) (s : BitVec 7) (t : BitVec 7) (p : BitVec 3) : Encoding.Statement (.umax c w d s t p) := by
  intro _ word
  unfold decodeWord
  rw [code_is (n := 10) (by simp (disch := decide) only [asWord, part_low, part_high]; rfl)]
  refine checked_ok (by simp (disch := decide) only [asWord, part_low, part_high, part_all, bit_low, bit_high, bit_one, Nat.reduceSub]) ?_
  change _ &&& BitVec.ofNat (1+7+1+6+7+7+3) 0x7F000000 = _
  simp only [and_parts, Nat.reduceDiv, Nat.reduceMod, Nat.reducePow, BitVec.and_zero]; rfl

theorem Encoding.and (c : Bool) (w : Bool) (d : BitVec 6) (s : BitVec 7) (t : BitVec 7) (p : BitVec 3) : Encoding.Statement (.and c w d s t p) := by
  intro _ word
  unfold decodeWord
  rw [code_is (n := 11) (by simp (disch := decide) only [asWord, part_low, part_high]; rfl)]
  refine checked_ok (by simp (disch := decide) only [asWord, part_low, part_high, part_all, bit_low, bit_high, bit_one, Nat.reduceSub]) ?_
  change _ &&& BitVec.ofNat (1+7+1+6+7+7+3) 0x7F000000 = _
  simp only [and_parts, Nat.reduceDiv, Nat.reduceMod, Nat.reducePow, BitVec.and_zero]; rfl

theorem Encoding.or (c : Bool) (w : Bool) (d : BitVec 6) (s : BitVec 7) (t : BitVec 7) (p : BitVec 3) : Encoding.Statement (.or c w d s t p) := by
  intro _ word
  unfold decodeWord
  rw [code_is (n := 12) (by simp (disch := decide) only [asWord, part_low, part_high]; rfl)]
  refine checked_ok (by simp (disch := decide) only [asWord, part_low, part_high, part_all, bit_low, bit_high, bit_one, Nat.reduceSub]) ?_
  change _ &&& BitVec.ofNat (1+7+1+6+7+7+3) 0x7F000000 = _
  simp only [and_parts, Nat.reduceDiv, Nat.reduceMod, Nat.reducePow, BitVec.and_zero]; rfl

theorem Encoding.xor (c : Bool) (w : Bool) (d : BitVec 6) (s : BitVec 7) (t : BitVec 7) (p : BitVec 3) : Encoding.Statement (.xor c w d s t p) := by
  intro _ word
  unfold decodeWord
  rw [code_is (n := 13) (by simp (disch := decide) only [asWord, part_low, part_high]; rfl)]
  refine checked_ok (by simp (disch := decide) only [asWord, part_low, part_high, part_all, bit_low, bit_high, bit_one, Nat.reduceSub]) ?_
  change _ &&& BitVec.ofNat (1+7+1+6+7+7+3) 0x7F000000 = _
  simp only [and_parts, Nat.reduceDiv, Nat.reduceMod, Nat.reducePow, BitVec.and_zero]; rfl

theorem Encoding.andn (c : Bool) (w : Bool) (d : BitVec 6) (s : BitVec 7) (t : BitVec 7) (p : BitVec 3) : Encoding.Statement (.andn c w d s t p) := by
  intro _ word
  unfold decodeWord
  rw [code_is (n := 14) (by simp (disch := decide) only [asWord, part_low, part_high]; rfl)]
  refine checked_ok (by simp (disch := decide) only [asWord, part_low, part_high, part_all, bit_low, bit_high, bit_one, Nat.reduceSub]) ?_
  change _ &&& BitVec.ofNat (1+7+1+6+7+7+3) 0x7F000000 = _
  simp only [and_parts, Nat.reduceDiv, Nat.reduceMod, Nat.reducePow, BitVec.and_zero]; rfl

theorem Encoding.shl (c : Bool) (w : Bool) (d : BitVec 6) (s : BitVec 7) (t : BitVec 7) (p : BitVec 3) : Encoding.Statement (.shl c w d s t p) := by
  intro _ word
  unfold decodeWord
  rw [code_is (n := 15) (by simp (disch := decide) only [asWord, part_low, part_high]; rfl)]
  refine checked_ok (by simp (disch := decide) only [asWord, part_low, part_high, part_all, bit_low, bit_high, bit_one, Nat.reduceSub]) ?_
  change _ &&& BitVec.ofNat (1+7+1+6+7+7+3) 0x7F000000 = _
  simp only [and_parts, Nat.reduceDiv, Nat.reduceMod, Nat.reducePow, BitVec.and_zero]; rfl

theorem Encoding.shr (c : Bool) (w : Bool) (d : BitVec 6) (s : BitVec 7) (t : BitVec 7) (p : BitVec 3) : Encoding.Statement (.shr c w d s t p) := by
  intro _ word
  unfold decodeWord
  rw [code_is (n := 16) (by simp (disch := decide) only [asWord, part_low, part_high]; rfl)]
  refine checked_ok (by simp (disch := decide) only [asWord, part_low, part_high, part_all, bit_low, bit_high, bit_one, Nat.reduceSub]) ?_
  change _ &&& BitVec.ofNat (1+7+1+6+7+7+3) 0x7F000000 = _
  simp only [and_parts, Nat.reduceDiv, Nat.reduceMod, Nat.reducePow, BitVec.and_zero]; rfl

theorem Encoding.sar (c : Bool) (w : Bool) (d : BitVec 6) (s : BitVec 7) (t : BitVec 7) (p : BitVec 3) : Encoding.Statement (.sar c w d s t p) := by
  intro _ word
  unfold decodeWord
  rw [code_is (n := 17) (by simp (disch := decide) only [asWord, part_low, part_high]; rfl)]
  refine checked_ok (by simp (disch := decide) only [asWord, part_low, part_high, part_all, bit_low, bit_high, bit_one, Nat.reduceSub]) ?_
  change _ &&& BitVec.ofNat (1+7+1+6+7+7+3) 0x7F000000 = _
  simp only [and_parts, Nat.reduceDiv, Nat.reduceMod, Nat.reducePow, BitVec.and_zero]; rfl

theorem Encoding.popc (c : Bool) (w : Bool) (d : BitVec 6) (s : BitVec 7) (p : BitVec 3) : Encoding.Statement (.popc c w d s p) := by
  intro _ word
  unfold decodeWord
  rw [code_is (n := 18) (by simp (disch := decide) only [asWord, part_low, part_high]; rfl)]
  refine checked_ok (by simp (disch := decide) only [asWord, part_low, part_high, part_all, bit_low, bit_high, bit_one, Nat.reduceSub]) ?_
  change _ &&& BitVec.ofNat (1+7+1+6+7+7+3) 0x7F0003F8 = _
  simp only [and_parts, Nat.reduceDiv, Nat.reduceMod, Nat.reducePow, BitVec.and_zero]; rfl

theorem Encoding.clz (c : Bool) (w : Bool) (d : BitVec 6) (s : BitVec 7) (p : BitVec 3) : Encoding.Statement (.clz c w d s p) := by
  intro _ word
  unfold decodeWord
  rw [code_is (n := 19) (by simp (disch := decide) only [asWord, part_low, part_high]; rfl)]
  refine checked_ok (by simp (disch := decide) only [asWord, part_low, part_high, part_all, bit_low, bit_high, bit_one, Nat.reduceSub]) ?_
  change _ &&& BitVec.ofNat (1+7+1+6+7+7+3) 0x7F0003F8 = _
  simp only [and_parts, Nat.reduceDiv, Nat.reduceMod, Nat.reducePow, BitVec.and_zero]; rfl

theorem Encoding.brev (c : Bool) (w : Bool) (d : BitVec 6) (s : BitVec 7) (p : BitVec 3) : Encoding.Statement (.brev c w d s p) := by
  intro _ word
  unfold decodeWord
  rw [code_is (n := 20) (by simp (disch := decide) only [asWord, part_low, part_high]; rfl)]
  refine checked_ok (by simp (disch := decide) only [asWord, part_low, part_high, part_all, bit_low, bit_high, bit_one, Nat.reduceSub]) ?_
  change _ &&& BitVec.ofNat (1+7+1+6+7+7+3) 0x7F0003F8 = _
  simp only [and_parts, Nat.reduceDiv, Nat.reduceMod, Nat.reducePow, BitVec.and_zero]; rfl

theorem Encoding.prmb (c : Bool) (w : Bool) (d : BitVec 6) (s : BitVec 7) (t : BitVec 7) (p : BitVec 3) : Encoding.Statement (.prmb c w d s t p) := by
  intro _ word
  unfold decodeWord
  rw [code_is (n := 21) (by simp (disch := decide) only [asWord, part_low, part_high]; rfl)]
  refine checked_ok (by simp (disch := decide) only [asWord, part_low, part_high, part_all, bit_low, bit_high, bit_one, Nat.reduceSub]) ?_
  change _ &&& BitVec.ofNat (1+7+1+6+7+7+3) 0x7F000000 = _
  simp only [and_parts, Nat.reduceDiv, Nat.reduceMod, Nat.reducePow, BitVec.and_zero]; rfl

theorem Encoding.iadds (c : Bool) (w : Bool) (d : BitVec 6) (s : BitVec 7) (t : BitVec 7) (p : BitVec 3) : Encoding.Statement (.iadds c w d s t p) := by
  intro _ word
  unfold decodeWord
  rw [code_is (n := 22) (by simp (disch := decide) only [asWord, part_low, part_high]; rfl)]
  refine checked_ok (by simp (disch := decide) only [asWord, part_low, part_high, part_all, bit_low, bit_high, bit_one, Nat.reduceSub]) ?_
  change _ &&& BitVec.ofNat (1+7+1+6+7+7+3) 0x7F000000 = _
  simp only [and_parts, Nat.reduceDiv, Nat.reduceMod, Nat.reducePow, BitVec.and_zero]; rfl

theorem Encoding.idot4 (c : Bool) (d : BitVec 6) (s : BitVec 7) (t : BitVec 7) (p : BitVec 3) : Encoding.Statement (.idot4 c d s t p) := by
  intro _ word
  unfold decodeWord
  rw [code_is (n := 23) (by simp (disch := decide) only [asWord, part_low, part_high]; rfl)]
  refine checked_ok (by simp (disch := decide) only [asWord, part_low, part_high, part_all, bit_low, bit_high, bit_one, Nat.reduceSub]) ?_
  change _ &&& BitVec.ofNat (1+8+6+7+7+3) 0x7F800000 = _
  simp only [and_parts, Nat.reduceDiv, Nat.reduceMod, Nat.reducePow, BitVec.and_zero]; rfl

theorem Encoding.iadd64 (c : Bool) (w : Bool) (d : BitVec 6) (s : BitVec 7) (t : BitVec 7) (p : BitVec 3) : Encoding.Statement (.iadd64 c w d s t p) := by
  intro _ word
  unfold decodeWord
  rw [code_is (n := 24) (by simp (disch := decide) only [asWord, part_low, part_high]; rfl)]
  refine checked_ok (by simp (disch := decide) only [asWord, part_low, part_high, part_all, bit_low, bit_high, bit_one, Nat.reduceSub]) ?_
  change _ &&& BitVec.ofNat (1+7+1+6+7+7+3) 0x7F000000 = _
  simp only [and_parts, Nat.reduceDiv, Nat.reduceMod, Nat.reducePow, BitVec.and_zero]; rfl

theorem Encoding.isub64 (c : Bool) (w : Bool) (d : BitVec 6) (s : BitVec 7) (t : BitVec 7) (p : BitVec 3) : Encoding.Statement (.isub64 c w d s t p) := by
  intro _ word
  unfold decodeWord
  rw [code_is (n := 25) (by simp (disch := decide) only [asWord, part_low, part_high]; rfl)]
  refine checked_ok (by simp (disch := decide) only [asWord, part_low, part_high, part_all, bit_low, bit_high, bit_one, Nat.reduceSub]) ?_
  change _ &&& BitVec.ofNat (1+7+1+6+7+7+3) 0x7F000000 = _
  simp only [and_parts, Nat.reduceDiv, Nat.reduceMod, Nat.reducePow, BitVec.and_zero]; rfl

theorem Encoding.imadw (c : Bool) (d : BitVec 6) (s : BitVec 7) (t : BitVec 7) (p : BitVec 3) : Encoding.Statement (.imadw c d s t p) := by
  intro _ word
  unfold decodeWord
  rw [code_is (n := 26) (by simp (disch := decide) only [asWord, part_low, part_high]; rfl)]
  refine checked_ok (by simp (disch := decide) only [asWord, part_low, part_high, part_all, bit_low, bit_high, bit_one, Nat.reduceSub]) ?_
  change _ &&& BitVec.ofNat (1+8+6+7+7+3) 0x7F800000 = _
  simp only [and_parts, Nat.reduceDiv, Nat.reduceMod, Nat.reducePow, BitVec.and_zero]; rfl

theorem Encoding.shl64 (c : Bool) (w : Bool) (d : BitVec 6) (s : BitVec 7) (t : BitVec 7) (p : BitVec 3) : Encoding.Statement (.shl64 c w d s t p) := by
  intro _ word
  unfold decodeWord
  rw [code_is (n := 27) (by simp (disch := decide) only [asWord, part_low, part_high]; rfl)]
  refine checked_ok (by simp (disch := decide) only [asWord, part_low, part_high, part_all, bit_low, bit_high, bit_one, Nat.reduceSub]) ?_
  change _ &&& BitVec.ofNat (1+7+1+6+7+7+3) 0x7F000000 = _
  simp only [and_parts, Nat.reduceDiv, Nat.reduceMod, Nat.reducePow, BitVec.and_zero]; rfl

theorem Encoding.icmp (c : Bool) (k : BitVec 3) (q : BitVec 3) (s : BitVec 7) (t : BitVec 7) (p : BitVec 3) : Encoding.Statement (.icmp c k q s t p) := by
  intro _ word
  unfold decodeWord
  rw [code_is (n := 28) (by simp (disch := decide) only [asWord, part_low, part_high]; rfl)]
  refine checked_ok (by simp (disch := decide) only [asWord, part_low, part_high, part_all, bit_low, bit_high, bit_one, Nat.reduceSub]) ?_
  change _ &&& BitVec.ofNat (1+8+3+3+7+7+3) 0x7F800000 = _
  simp only [and_parts, Nat.reduceDiv, Nat.reduceMod, Nat.reducePow, BitVec.and_zero]; rfl

theorem Encoding.icmp64 (c : Bool) (k : BitVec 3) (q : BitVec 3) (s : BitVec 7) (t : BitVec 7) (p : BitVec 3) : Encoding.Statement (.icmp64 c k q s t p) := by
  intro _ word
  unfold decodeWord
  rw [code_is (n := 29) (by simp (disch := decide) only [asWord, part_low, part_high]; rfl)]
  refine checked_ok (by simp (disch := decide) only [asWord, part_low, part_high, part_all, bit_low, bit_high, bit_one, Nat.reduceSub]) ?_
  change _ &&& BitVec.ofNat (1+8+3+3+7+7+3) 0x7F800000 = _
  simp only [and_parts, Nat.reduceDiv, Nat.reduceMod, Nat.reducePow, BitVec.and_zero]; rfl

theorem Encoding.sel (c : Bool) (w : Bool) (d : BitVec 6) (s : BitVec 7) (t : BitVec 7) (k : BitVec 3) : Encoding.Statement (.sel c w d s t k) := by
  intro _ word
  unfold decodeWord
  rw [code_is (n := 30) (by simp (disch := decide) only [asWord, part_low, part_high]; rfl)]
  refine checked_ok (by simp (disch := decide) only [asWord, part_low, part_high, part_all, bit_low, bit_high, bit_one, Nat.reduceSub]) ?_
  change _ &&& BitVec.ofNat (1+7+1+6+7+7+3) 0x7F000000 = _
  simp only [and_parts, Nat.reduceDiv, Nat.reduceMod, Nat.reducePow, BitVec.and_zero]; rfl

theorem Encoding.mov (c : Bool) (w : Bool) (d : BitVec 6) (s : BitVec 7) (p : BitVec 3) : Encoding.Statement (.mov c w d s p) := by
  intro _ word
  unfold decodeWord
  rw [code_is (n := 31) (by simp (disch := decide) only [asWord, part_low, part_high]; rfl)]
  refine checked_ok (by simp (disch := decide) only [asWord, part_low, part_high, part_all, bit_low, bit_high, bit_one, Nat.reduceSub]) ?_
  change _ &&& BitVec.ofNat (1+7+1+6+7+7+3) 0x7F0003F8 = _
  simp only [and_parts, Nat.reduceDiv, Nat.reduceMod, Nat.reducePow, BitVec.and_zero]; rfl

theorem Encoding.fadd (c : Bool) (w : Bool) (d : BitVec 6) (s : BitVec 7) (t : BitVec 7) (p : BitVec 3) : Encoding.Statement (.fadd c w d s t p) := by
  intro _ word
  unfold decodeWord
  rw [code_is (n := 32) (by simp (disch := decide) only [asWord, part_low, part_high]; rfl)]
  refine checked_ok (by simp (disch := decide) only [asWord, part_low, part_high, part_all, bit_low, bit_high, bit_one, Nat.reduceSub]) ?_
  change _ &&& BitVec.ofNat (1+7+1+6+7+7+3) 0x7F000000 = _
  simp only [and_parts, Nat.reduceDiv, Nat.reduceMod, Nat.reducePow, BitVec.and_zero]; rfl

theorem Encoding.fsub (c : Bool) (w : Bool) (d : BitVec 6) (s : BitVec 7) (t : BitVec 7) (p : BitVec 3) : Encoding.Statement (.fsub c w d s t p) := by
  intro _ word
  unfold decodeWord
  rw [code_is (n := 33) (by simp (disch := decide) only [asWord, part_low, part_high]; rfl)]
  refine checked_ok (by simp (disch := decide) only [asWord, part_low, part_high, part_all, bit_low, bit_high, bit_one, Nat.reduceSub]) ?_
  change _ &&& BitVec.ofNat (1+7+1+6+7+7+3) 0x7F000000 = _
  simp only [and_parts, Nat.reduceDiv, Nat.reduceMod, Nat.reducePow, BitVec.and_zero]; rfl

theorem Encoding.fmul (c : Bool) (w : Bool) (d : BitVec 6) (s : BitVec 7) (t : BitVec 7) (p : BitVec 3) : Encoding.Statement (.fmul c w d s t p) := by
  intro _ word
  unfold decodeWord
  rw [code_is (n := 34) (by simp (disch := decide) only [asWord, part_low, part_high]; rfl)]
  refine checked_ok (by simp (disch := decide) only [asWord, part_low, part_high, part_all, bit_low, bit_high, bit_one, Nat.reduceSub]) ?_
  change _ &&& BitVec.ofNat (1+7+1+6+7+7+3) 0x7F000000 = _
  simp only [and_parts, Nat.reduceDiv, Nat.reduceMod, Nat.reducePow, BitVec.and_zero]; rfl

theorem Encoding.ffma (c : Bool) (d : BitVec 6) (s : BitVec 7) (t : BitVec 7) (p : BitVec 3) : Encoding.Statement (.ffma c d s t p) := by
  intro _ word
  unfold decodeWord
  rw [code_is (n := 35) (by simp (disch := decide) only [asWord, part_low, part_high]; rfl)]
  refine checked_ok (by simp (disch := decide) only [asWord, part_low, part_high, part_all, bit_low, bit_high, bit_one, Nat.reduceSub]) ?_
  change _ &&& BitVec.ofNat (1+8+6+7+7+3) 0x7F800000 = _
  simp only [and_parts, Nat.reduceDiv, Nat.reduceMod, Nat.reducePow, BitVec.and_zero]; rfl

theorem Encoding.fmin (c : Bool) (w : Bool) (d : BitVec 6) (s : BitVec 7) (t : BitVec 7) (p : BitVec 3) : Encoding.Statement (.fmin c w d s t p) := by
  intro _ word
  unfold decodeWord
  rw [code_is (n := 36) (by simp (disch := decide) only [asWord, part_low, part_high]; rfl)]
  refine checked_ok (by simp (disch := decide) only [asWord, part_low, part_high, part_all, bit_low, bit_high, bit_one, Nat.reduceSub]) ?_
  change _ &&& BitVec.ofNat (1+7+1+6+7+7+3) 0x7F000000 = _
  simp only [and_parts, Nat.reduceDiv, Nat.reduceMod, Nat.reducePow, BitVec.and_zero]; rfl

theorem Encoding.fmax (c : Bool) (w : Bool) (d : BitVec 6) (s : BitVec 7) (t : BitVec 7) (p : BitVec 3) : Encoding.Statement (.fmax c w d s t p) := by
  intro _ word
  unfold decodeWord
  rw [code_is (n := 37) (by simp (disch := decide) only [asWord, part_low, part_high]; rfl)]
  refine checked_ok (by simp (disch := decide) only [asWord, part_low, part_high, part_all, bit_low, bit_high, bit_one, Nat.reduceSub]) ?_
  change _ &&& BitVec.ofNat (1+7+1+6+7+7+3) 0x7F000000 = _
  simp only [and_parts, Nat.reduceDiv, Nat.reduceMod, Nat.reducePow, BitVec.and_zero]; rfl

theorem Encoding.fcmp (c : Bool) (k : BitVec 3) (q : BitVec 3) (s : BitVec 7) (t : BitVec 7) (p : BitVec 3) : Encoding.Statement (.fcmp c k q s t p) := by
  intro _ word
  unfold decodeWord
  rw [code_is (n := 38) (by simp (disch := decide) only [asWord, part_low, part_high]; rfl)]
  refine checked_ok (by simp (disch := decide) only [asWord, part_low, part_high, part_all, bit_low, bit_high, bit_one, Nat.reduceSub]) ?_
  change _ &&& BitVec.ofNat (1+8+3+3+7+7+3) 0x7F800000 = _
  simp only [and_parts, Nat.reduceDiv, Nat.reduceMod, Nat.reducePow, BitVec.and_zero]; rfl

theorem Encoding.fsgn (c : Bool) (w : Bool) (d : BitVec 6) (s : BitVec 7) (t : BitVec 7) (p : BitVec 3) : Encoding.Statement (.fsgn c w d s t p) := by
  intro _ word
  unfold decodeWord
  rw [code_is (n := 39) (by simp (disch := decide) only [asWord, part_low, part_high]; rfl)]
  refine checked_ok (by simp (disch := decide) only [asWord, part_low, part_high, part_all, bit_low, bit_high, bit_one, Nat.reduceSub]) ?_
  change _ &&& BitVec.ofNat (1+7+1+6+7+7+3) 0x7F000000 = _
  simp only [and_parts, Nat.reduceDiv, Nat.reduceMod, Nat.reducePow, BitVec.and_zero]; rfl

theorem Encoding.hadd2 (c : Bool) (w : Bool) (d : BitVec 6) (s : BitVec 7) (t : BitVec 7) (p : BitVec 3) : Encoding.Statement (.hadd2 c w d s t p) := by
  intro _ word
  unfold decodeWord
  rw [code_is (n := 40) (by simp (disch := decide) only [asWord, part_low, part_high]; rfl)]
  refine checked_ok (by simp (disch := decide) only [asWord, part_low, part_high, part_all, bit_low, bit_high, bit_one, Nat.reduceSub]) ?_
  change _ &&& BitVec.ofNat (1+7+1+6+7+7+3) 0x7F000000 = _
  simp only [and_parts, Nat.reduceDiv, Nat.reduceMod, Nat.reducePow, BitVec.and_zero]; rfl

theorem Encoding.hmul2 (c : Bool) (w : Bool) (d : BitVec 6) (s : BitVec 7) (t : BitVec 7) (p : BitVec 3) : Encoding.Statement (.hmul2 c w d s t p) := by
  intro _ word
  unfold decodeWord
  rw [code_is (n := 41) (by simp (disch := decide) only [asWord, part_low, part_high]; rfl)]
  refine checked_ok (by simp (disch := decide) only [asWord, part_low, part_high, part_all, bit_low, bit_high, bit_one, Nat.reduceSub]) ?_
  change _ &&& BitVec.ofNat (1+7+1+6+7+7+3) 0x7F000000 = _
  simp only [and_parts, Nat.reduceDiv, Nat.reduceMod, Nat.reducePow, BitVec.and_zero]; rfl

theorem Encoding.hfma2 (c : Bool) (d : BitVec 6) (s : BitVec 7) (t : BitVec 7) (p : BitVec 3) : Encoding.Statement (.hfma2 c d s t p) := by
  intro _ word
  unfold decodeWord
  rw [code_is (n := 42) (by simp (disch := decide) only [asWord, part_low, part_high]; rfl)]
  refine checked_ok (by simp (disch := decide) only [asWord, part_low, part_high, part_all, bit_low, bit_high, bit_one, Nat.reduceSub]) ?_
  change _ &&& BitVec.ofNat (1+8+6+7+7+3) 0x7F800000 = _
  simp only [and_parts, Nat.reduceDiv, Nat.reduceMod, Nat.reducePow, BitVec.and_zero]; rfl

theorem Encoding.badd2 (c : Bool) (w : Bool) (d : BitVec 6) (s : BitVec 7) (t : BitVec 7) (p : BitVec 3) : Encoding.Statement (.badd2 c w d s t p) := by
  intro _ word
  unfold decodeWord
  rw [code_is (n := 43) (by simp (disch := decide) only [asWord, part_low, part_high]; rfl)]
  refine checked_ok (by simp (disch := decide) only [asWord, part_low, part_high, part_all, bit_low, bit_high, bit_one, Nat.reduceSub]) ?_
  change _ &&& BitVec.ofNat (1+7+1+6+7+7+3) 0x7F000000 = _
  simp only [and_parts, Nat.reduceDiv, Nat.reduceMod, Nat.reducePow, BitVec.and_zero]; rfl

theorem Encoding.bmul2 (c : Bool) (w : Bool) (d : BitVec 6) (s : BitVec 7) (t : BitVec 7) (p : BitVec 3) : Encoding.Statement (.bmul2 c w d s t p) := by
  intro _ word
  unfold decodeWord
  rw [code_is (n := 44) (by simp (disch := decide) only [asWord, part_low, part_high]; rfl)]
  refine checked_ok (by simp (disch := decide) only [asWord, part_low, part_high, part_all, bit_low, bit_high, bit_one, Nat.reduceSub]) ?_
  change _ &&& BitVec.ofNat (1+7+1+6+7+7+3) 0x7F000000 = _
  simp only [and_parts, Nat.reduceDiv, Nat.reduceMod, Nat.reducePow, BitVec.and_zero]; rfl

theorem Encoding.bfma2 (c : Bool) (d : BitVec 6) (s : BitVec 7) (t : BitVec 7) (p : BitVec 3) : Encoding.Statement (.bfma2 c d s t p) := by
  intro _ word
  unfold decodeWord
  rw [code_is (n := 45) (by simp (disch := decide) only [asWord, part_low, part_high]; rfl)]
  refine checked_ok (by simp (disch := decide) only [asWord, part_low, part_high, part_all, bit_low, bit_high, bit_one, Nat.reduceSub]) ?_
  change _ &&& BitVec.ofNat (1+8+6+7+7+3) 0x7F800000 = _
  simp only [and_parts, Nat.reduceDiv, Nat.reduceMod, Nat.reducePow, BitVec.and_zero]; rfl

theorem Encoding.dadd (c : Bool) (w : Bool) (d : BitVec 6) (s : BitVec 7) (t : BitVec 7) (p : BitVec 3) : Encoding.Statement (.dadd c w d s t p) := by
  intro _ word
  unfold decodeWord
  rw [code_is (n := 46) (by simp (disch := decide) only [asWord, part_low, part_high]; rfl)]
  refine checked_ok (by simp (disch := decide) only [asWord, part_low, part_high, part_all, bit_low, bit_high, bit_one, Nat.reduceSub]) ?_
  change _ &&& BitVec.ofNat (1+7+1+6+7+7+3) 0x7F000000 = _
  simp only [and_parts, Nat.reduceDiv, Nat.reduceMod, Nat.reducePow, BitVec.and_zero]; rfl

theorem Encoding.dmul (c : Bool) (w : Bool) (d : BitVec 6) (s : BitVec 7) (t : BitVec 7) (p : BitVec 3) : Encoding.Statement (.dmul c w d s t p) := by
  intro _ word
  unfold decodeWord
  rw [code_is (n := 47) (by simp (disch := decide) only [asWord, part_low, part_high]; rfl)]
  refine checked_ok (by simp (disch := decide) only [asWord, part_low, part_high, part_all, bit_low, bit_high, bit_one, Nat.reduceSub]) ?_
  change _ &&& BitVec.ofNat (1+7+1+6+7+7+3) 0x7F000000 = _
  simp only [and_parts, Nat.reduceDiv, Nat.reduceMod, Nat.reducePow, BitVec.and_zero]; rfl

theorem Encoding.dfma (c : Bool) (d : BitVec 6) (s : BitVec 7) (t : BitVec 7) (p : BitVec 3) : Encoding.Statement (.dfma c d s t p) := by
  intro _ word
  unfold decodeWord
  rw [code_is (n := 48) (by simp (disch := decide) only [asWord, part_low, part_high]; rfl)]
  refine checked_ok (by simp (disch := decide) only [asWord, part_low, part_high, part_all, bit_low, bit_high, bit_one, Nat.reduceSub]) ?_
  change _ &&& BitVec.ofNat (1+8+6+7+7+3) 0x7F800000 = _
  simp only [and_parts, Nat.reduceDiv, Nat.reduceMod, Nat.reducePow, BitVec.and_zero]; rfl

theorem Encoding.cvtI32F32 (c : Bool) (w : Bool) (d : BitVec 6) (s : BitVec 7) (p : BitVec 3) : Encoding.Statement (.cvtI32F32 c w d s p) := by
  intro _ word
  unfold decodeWord
  rw [code_is (n := 49) (by simp (disch := decide) only [asWord, part_low, part_high]; rfl)]
  change decodeOp31 _ = _
  unfold decodeOp31
  rw [code_is (n := 68) (by simp (disch := decide) only [asWord, part_low, part_high]; rfl)]
  refine checked_ok (by simp (disch := decide) only [asWord, part_low, part_high, part_all, bit_low, bit_high, bit_one, Nat.reduceSub]) ?_
  change _ &&& BitVec.ofNat (1+7+1+6+7+7+3) 0x7F0003F8 = _
  simp only [and_parts, Nat.reduceDiv, Nat.reduceMod, Nat.reducePow, BitVec.and_zero]; rfl

theorem Encoding.cvtU32F32 (c : Bool) (w : Bool) (d : BitVec 6) (s : BitVec 7) (p : BitVec 3) : Encoding.Statement (.cvtU32F32 c w d s p) := by
  intro _ word
  unfold decodeWord
  rw [code_is (n := 49) (by simp (disch := decide) only [asWord, part_low, part_high]; rfl)]
  change decodeOp31 _ = _
  unfold decodeOp31
  rw [code_is (n := 69) (by simp (disch := decide) only [asWord, part_low, part_high]; rfl)]
  refine checked_ok (by simp (disch := decide) only [asWord, part_low, part_high, part_all, bit_low, bit_high, bit_one, Nat.reduceSub]) ?_
  change _ &&& BitVec.ofNat (1+7+1+6+7+7+3) 0x7F0003F8 = _
  simp only [and_parts, Nat.reduceDiv, Nat.reduceMod, Nat.reducePow, BitVec.and_zero]; rfl

theorem Encoding.cvtF32I32 (c : Bool) (w : Bool) (d : BitVec 6) (s : BitVec 7) (p : BitVec 3) : Encoding.Statement (.cvtF32I32 c w d s p) := by
  intro _ word
  unfold decodeWord
  rw [code_is (n := 49) (by simp (disch := decide) only [asWord, part_low, part_high]; rfl)]
  change decodeOp31 _ = _
  unfold decodeOp31
  rw [code_is (n := 70) (by simp (disch := decide) only [asWord, part_low, part_high]; rfl)]
  refine checked_ok (by simp (disch := decide) only [asWord, part_low, part_high, part_all, bit_low, bit_high, bit_one, Nat.reduceSub]) ?_
  change _ &&& BitVec.ofNat (1+7+1+6+7+7+3) 0x7F0003F8 = _
  simp only [and_parts, Nat.reduceDiv, Nat.reduceMod, Nat.reducePow, BitVec.and_zero]; rfl

theorem Encoding.cvtF32U32 (c : Bool) (w : Bool) (d : BitVec 6) (s : BitVec 7) (p : BitVec 3) : Encoding.Statement (.cvtF32U32 c w d s p) := by
  intro _ word
  unfold decodeWord
  rw [code_is (n := 49) (by simp (disch := decide) only [asWord, part_low, part_high]; rfl)]
  change decodeOp31 _ = _
  unfold decodeOp31
  rw [code_is (n := 71) (by simp (disch := decide) only [asWord, part_low, part_high]; rfl)]
  refine checked_ok (by simp (disch := decide) only [asWord, part_low, part_high, part_all, bit_low, bit_high, bit_one, Nat.reduceSub]) ?_
  change _ &&& BitVec.ofNat (1+7+1+6+7+7+3) 0x7F0003F8 = _
  simp only [and_parts, Nat.reduceDiv, Nat.reduceMod, Nat.reducePow, BitVec.and_zero]; rfl

theorem Encoding.cvtF32I32Rz (c : Bool) (w : Bool) (d : BitVec 6) (s : BitVec 7) (p : BitVec 3) : Encoding.Statement (.cvtF32I32Rz c w d s p) := by
  intro _ word
  unfold decodeWord
  rw [code_is (n := 49) (by simp (disch := decide) only [asWord, part_low, part_high]; rfl)]
  change decodeOp31 _ = _
  unfold decodeOp31
  rw [code_is (n := 72) (by simp (disch := decide) only [asWord, part_low, part_high]; rfl)]
  refine checked_ok (by simp (disch := decide) only [asWord, part_low, part_high, part_all, bit_low, bit_high, bit_one, Nat.reduceSub]) ?_
  change _ &&& BitVec.ofNat (1+7+1+6+7+7+3) 0x7F0003F8 = _
  simp only [and_parts, Nat.reduceDiv, Nat.reduceMod, Nat.reducePow, BitVec.and_zero]; rfl

theorem Encoding.cvtF32U32Rz (c : Bool) (w : Bool) (d : BitVec 6) (s : BitVec 7) (p : BitVec 3) : Encoding.Statement (.cvtF32U32Rz c w d s p) := by
  intro _ word
  unfold decodeWord
  rw [code_is (n := 49) (by simp (disch := decide) only [asWord, part_low, part_high]; rfl)]
  change decodeOp31 _ = _
  unfold decodeOp31
  rw [code_is (n := 73) (by simp (disch := decide) only [asWord, part_low, part_high]; rfl)]
  refine checked_ok (by simp (disch := decide) only [asWord, part_low, part_high, part_all, bit_low, bit_high, bit_one, Nat.reduceSub]) ?_
  change _ &&& BitVec.ofNat (1+7+1+6+7+7+3) 0x7F0003F8 = _
  simp only [and_parts, Nat.reduceDiv, Nat.reduceMod, Nat.reducePow, BitVec.and_zero]; rfl

theorem Encoding.cvtF32F16 (c : Bool) (d : BitVec 6) (s : BitVec 7) (p : BitVec 3) : Encoding.Statement (.cvtF32F16 c d s p) := by
  intro _ word
  unfold decodeWord
  rw [code_is (n := 49) (by simp (disch := decide) only [asWord, part_low, part_high]; rfl)]
  change decodeOp31 _ = _
  unfold decodeOp31
  rw [code_is (n := 74) (by simp (disch := decide) only [asWord, part_low, part_high]; rfl)]
  refine checked_ok (by simp (disch := decide) only [asWord, part_low, part_high, part_all, bit_low, bit_high, bit_one, Nat.reduceSub]) ?_
  change _ &&& BitVec.ofNat (1+8+6+7+7+3) 0x7F8003F8 = _
  simp only [and_parts, Nat.reduceDiv, Nat.reduceMod, Nat.reducePow, BitVec.and_zero]; rfl

theorem Encoding.cvtF32Bf16 (c : Bool) (d : BitVec 6) (s : BitVec 7) (p : BitVec 3) : Encoding.Statement (.cvtF32Bf16 c d s p) := by
  intro _ word
  unfold decodeWord
  rw [code_is (n := 49) (by simp (disch := decide) only [asWord, part_low, part_high]; rfl)]
  change decodeOp31 _ = _
  unfold decodeOp31
  rw [code_is (n := 75) (by simp (disch := decide) only [asWord, part_low, part_high]; rfl)]
  refine checked_ok (by simp (disch := decide) only [asWord, part_low, part_high, part_all, bit_low, bit_high, bit_one, Nat.reduceSub]) ?_
  change _ &&& BitVec.ofNat (1+8+6+7+7+3) 0x7F8003F8 = _
  simp only [and_parts, Nat.reduceDiv, Nat.reduceMod, Nat.reducePow, BitVec.and_zero]; rfl

theorem Encoding.cvtF16F32 (c : Bool) (w : Bool) (d : BitVec 6) (s : BitVec 7) (h : Bool) (p : BitVec 3) : Encoding.Statement (.cvtF16F32 c w d s h p) := by
  intro _ word
  rcases either h with rfl | rfl <;> (
    unfold decodeWord
    rw [code_is (n := 49) (by simp (disch := decide) only [asWord, part_low, part_high]; rfl)]
    change decodeOp31 _ = _
    unfold decodeOp31
    simp (disch := decide) only [asWord, part_high, Nat.reduceSub]
    rw [part_two (a := 6) (b := 1)]
    refine checked_ok (by simp (disch := decide) only [asWord, part_low, part_high, part_all, bit_low, bit_high, bit_one, Nat.reduceSub]) ?_
    change _ &&& BitVec.ofNat (1+7+1+6+7+6+1+3) 0x7F0003F0 = _
    simp only [and_parts, Nat.reduceDiv, Nat.reduceMod, Nat.reducePow, BitVec.and_zero]; rfl)

theorem Encoding.cvtBf16F32 (c : Bool) (w : Bool) (d : BitVec 6) (s : BitVec 7) (h : Bool) (p : BitVec 3) : Encoding.Statement (.cvtBf16F32 c w d s h p) := by
  intro _ word
  rcases either h with rfl | rfl <;> (
    unfold decodeWord
    rw [code_is (n := 49) (by simp (disch := decide) only [asWord, part_low, part_high]; rfl)]
    change decodeOp31 _ = _
    unfold decodeOp31
    simp (disch := decide) only [asWord, part_high, Nat.reduceSub]
    rw [part_two (a := 6) (b := 1)]
    refine checked_ok (by simp (disch := decide) only [asWord, part_low, part_high, part_all, bit_low, bit_high, bit_one, Nat.reduceSub]) ?_
    change _ &&& BitVec.ofNat (1+7+1+6+7+6+1+3) 0x7F0003F0 = _
    simp only [and_parts, Nat.reduceDiv, Nat.reduceMod, Nat.reducePow, BitVec.and_zero]; rfl)

theorem Encoding.cvtF32E4m3 (c : Bool) (d : BitVec 6) (s : BitVec 7) (p : BitVec 3) : Encoding.Statement (.cvtF32E4m3 c d s p) := by
  intro _ word
  unfold decodeWord
  rw [code_is (n := 49) (by simp (disch := decide) only [asWord, part_low, part_high]; rfl)]
  change decodeOp31 _ = _
  unfold decodeOp31
  rw [code_is (n := 80) (by simp (disch := decide) only [asWord, part_low, part_high]; rfl)]
  refine checked_ok (by simp (disch := decide) only [asWord, part_low, part_high, part_all, bit_low, bit_high, bit_one, Nat.reduceSub]) ?_
  change _ &&& BitVec.ofNat (1+8+6+7+7+3) 0x7F8003F8 = _
  simp only [and_parts, Nat.reduceDiv, Nat.reduceMod, Nat.reducePow, BitVec.and_zero]; rfl

theorem Encoding.cvtF32E5m2 (c : Bool) (d : BitVec 6) (s : BitVec 7) (p : BitVec 3) : Encoding.Statement (.cvtF32E5m2 c d s p) := by
  intro _ word
  unfold decodeWord
  rw [code_is (n := 49) (by simp (disch := decide) only [asWord, part_low, part_high]; rfl)]
  change decodeOp31 _ = _
  unfold decodeOp31
  rw [code_is (n := 81) (by simp (disch := decide) only [asWord, part_low, part_high]; rfl)]
  refine checked_ok (by simp (disch := decide) only [asWord, part_low, part_high, part_all, bit_low, bit_high, bit_one, Nat.reduceSub]) ?_
  change _ &&& BitVec.ofNat (1+8+6+7+7+3) 0x7F8003F8 = _
  simp only [and_parts, Nat.reduceDiv, Nat.reduceMod, Nat.reducePow, BitVec.and_zero]; rfl

theorem Encoding.cvtE4m3F32 (c : Bool) (w : Bool) (d : BitVec 6) (s : BitVec 7) (j : BitVec 2) (p : BitVec 3) : Encoding.Statement (.cvtE4m3F32 c w d s j p) := by
  intro _ word
  rcases four j with rfl | rfl | rfl | rfl <;> (
    unfold decodeWord
    rw [code_is (n := 49) (by simp (disch := decide) only [asWord, part_low, part_high]; rfl)]
    change decodeOp31 _ = _
    unfold decodeOp31
    simp (disch := decide) only [asWord, part_high, Nat.reduceSub]
    rw [part_two (a := 5) (b := 2)]
    refine checked_ok (by simp (disch := decide) only [asWord, part_low, part_high, part_all, bit_low, bit_high, bit_one, Nat.reduceSub]) ?_
    change _ &&& BitVec.ofNat (1+7+1+6+7+5+2+3) 0x7F0003E0 = _
    simp only [and_parts, Nat.reduceDiv, Nat.reduceMod, Nat.reducePow, BitVec.and_zero]; rfl)

theorem Encoding.cvtE5m2F32 (c : Bool) (w : Bool) (d : BitVec 6) (s : BitVec 7) (j : BitVec 2) (p : BitVec 3) : Encoding.Statement (.cvtE5m2F32 c w d s j p) := by
  intro _ word
  rcases four j with rfl | rfl | rfl | rfl <;> (
    unfold decodeWord
    rw [code_is (n := 49) (by simp (disch := decide) only [asWord, part_low, part_high]; rfl)]
    change decodeOp31 _ = _
    unfold decodeOp31
    simp (disch := decide) only [asWord, part_high, Nat.reduceSub]
    rw [part_two (a := 5) (b := 2)]
    refine checked_ok (by simp (disch := decide) only [asWord, part_low, part_high, part_all, bit_low, bit_high, bit_one, Nat.reduceSub]) ?_
    change _ &&& BitVec.ofNat (1+7+1+6+7+5+2+3) 0x7F0003E0 = _
    simp only [and_parts, Nat.reduceDiv, Nat.reduceMod, Nat.reducePow, BitVec.and_zero]; rfl)

theorem Encoding.cvtF32F64 (c : Bool) (w : Bool) (d : BitVec 6) (s : BitVec 7) (p : BitVec 3) : Encoding.Statement (.cvtF32F64 c w d s p) := by
  intro _ word
  unfold decodeWord
  rw [code_is (n := 49) (by simp (disch := decide) only [asWord, part_low, part_high]; rfl)]
  change decodeOp31 _ = _
  unfold decodeOp31
  rw [code_is (n := 92) (by simp (disch := decide) only [asWord, part_low, part_high]; rfl)]
  refine checked_ok (by simp (disch := decide) only [asWord, part_low, part_high, part_all, bit_low, bit_high, bit_one, Nat.reduceSub]) ?_
  change _ &&& BitVec.ofNat (1+7+1+6+7+7+3) 0x7F0003F8 = _
  simp only [and_parts, Nat.reduceDiv, Nat.reduceMod, Nat.reducePow, BitVec.and_zero]; rfl

theorem Encoding.cvtF64F32 (c : Bool) (w : Bool) (d : BitVec 6) (s : BitVec 7) (p : BitVec 3) : Encoding.Statement (.cvtF64F32 c w d s p) := by
  intro _ word
  unfold decodeWord
  rw [code_is (n := 49) (by simp (disch := decide) only [asWord, part_low, part_high]; rfl)]
  change decodeOp31 _ = _
  unfold decodeOp31
  rw [code_is (n := 93) (by simp (disch := decide) only [asWord, part_low, part_high]; rfl)]
  refine checked_ok (by simp (disch := decide) only [asWord, part_low, part_high, part_all, bit_low, bit_high, bit_one, Nat.reduceSub]) ?_
  change _ &&& BitVec.ofNat (1+7+1+6+7+7+3) 0x7F0003F8 = _
  simp only [and_parts, Nat.reduceDiv, Nat.reduceMod, Nat.reducePow, BitVec.and_zero]; rfl

theorem Encoding.cvtI32F64 (c : Bool) (w : Bool) (d : BitVec 6) (s : BitVec 7) (p : BitVec 3) : Encoding.Statement (.cvtI32F64 c w d s p) := by
  intro _ word
  unfold decodeWord
  rw [code_is (n := 49) (by simp (disch := decide) only [asWord, part_low, part_high]; rfl)]
  change decodeOp31 _ = _
  unfold decodeOp31
  rw [code_is (n := 94) (by simp (disch := decide) only [asWord, part_low, part_high]; rfl)]
  refine checked_ok (by simp (disch := decide) only [asWord, part_low, part_high, part_all, bit_low, bit_high, bit_one, Nat.reduceSub]) ?_
  change _ &&& BitVec.ofNat (1+7+1+6+7+7+3) 0x7F0003F8 = _
  simp only [and_parts, Nat.reduceDiv, Nat.reduceMod, Nat.reducePow, BitVec.and_zero]; rfl

theorem Encoding.cvtF64I32 (c : Bool) (w : Bool) (d : BitVec 6) (s : BitVec 7) (p : BitVec 3) : Encoding.Statement (.cvtF64I32 c w d s p) := by
  intro _ word
  unfold decodeWord
  rw [code_is (n := 49) (by simp (disch := decide) only [asWord, part_low, part_high]; rfl)]
  change decodeOp31 _ = _
  unfold decodeOp31
  rw [code_is (n := 95) (by simp (disch := decide) only [asWord, part_low, part_high]; rfl)]
  refine checked_ok (by simp (disch := decide) only [asWord, part_low, part_high, part_all, bit_low, bit_high, bit_one, Nat.reduceSub]) ?_
  change _ &&& BitVec.ofNat (1+7+1+6+7+7+3) 0x7F0003F8 = _
  simp only [and_parts, Nat.reduceDiv, Nat.reduceMod, Nat.reducePow, BitVec.and_zero]; rfl

theorem Encoding.cvtF64I32Rz (c : Bool) (w : Bool) (d : BitVec 6) (s : BitVec 7) (p : BitVec 3) : Encoding.Statement (.cvtF64I32Rz c w d s p) := by
  intro _ word
  unfold decodeWord
  rw [code_is (n := 49) (by simp (disch := decide) only [asWord, part_low, part_high]; rfl)]
  change decodeOp31 _ = _
  unfold decodeOp31
  rw [code_is (n := 96) (by simp (disch := decide) only [asWord, part_low, part_high]; rfl)]
  refine checked_ok (by simp (disch := decide) only [asWord, part_low, part_high, part_all, bit_low, bit_high, bit_one, Nat.reduceSub]) ?_
  change _ &&& BitVec.ofNat (1+7+1+6+7+7+3) 0x7F0003F8 = _
  simp only [and_parts, Nat.reduceDiv, Nat.reduceMod, Nat.reducePow, BitVec.and_zero]; rfl

theorem Encoding.sfuRcp (c : Bool) (w : Bool) (d : BitVec 6) (s : BitVec 7) (p : BitVec 3) : Encoding.Statement (.sfuRcp c w d s p) := by
  intro _ word
  unfold decodeWord
  rw [code_is (n := 50) (by simp (disch := decide) only [asWord, part_low, part_high]; rfl)]
  change decodeOp32 _ = _
  unfold decodeOp32
  rw [code_is (n := 68) (by simp (disch := decide) only [asWord, part_low, part_high]; rfl)]
  refine checked_ok (by simp (disch := decide) only [asWord, part_low, part_high, part_all, bit_low, bit_high, bit_one, Nat.reduceSub]) ?_
  change _ &&& BitVec.ofNat (1+7+1+6+7+7+3) 0x7F0003F8 = _
  simp only [and_parts, Nat.reduceDiv, Nat.reduceMod, Nat.reducePow, BitVec.and_zero]; rfl

theorem Encoding.sfuRsq (c : Bool) (w : Bool) (d : BitVec 6) (s : BitVec 7) (p : BitVec 3) : Encoding.Statement (.sfuRsq c w d s p) := by
  intro _ word
  unfold decodeWord
  rw [code_is (n := 50) (by simp (disch := decide) only [asWord, part_low, part_high]; rfl)]
  change decodeOp32 _ = _
  unfold decodeOp32
  rw [code_is (n := 69) (by simp (disch := decide) only [asWord, part_low, part_high]; rfl)]
  refine checked_ok (by simp (disch := decide) only [asWord, part_low, part_high, part_all, bit_low, bit_high, bit_one, Nat.reduceSub]) ?_
  change _ &&& BitVec.ofNat (1+7+1+6+7+7+3) 0x7F0003F8 = _
  simp only [and_parts, Nat.reduceDiv, Nat.reduceMod, Nat.reducePow, BitVec.and_zero]; rfl

theorem Encoding.sfuSqrt (c : Bool) (w : Bool) (d : BitVec 6) (s : BitVec 7) (p : BitVec 3) : Encoding.Statement (.sfuSqrt c w d s p) := by
  intro _ word
  unfold decodeWord
  rw [code_is (n := 50) (by simp (disch := decide) only [asWord, part_low, part_high]; rfl)]
  change decodeOp32 _ = _
  unfold decodeOp32
  rw [code_is (n := 70) (by simp (disch := decide) only [asWord, part_low, part_high]; rfl)]
  refine checked_ok (by simp (disch := decide) only [asWord, part_low, part_high, part_all, bit_low, bit_high, bit_one, Nat.reduceSub]) ?_
  change _ &&& BitVec.ofNat (1+7+1+6+7+7+3) 0x7F0003F8 = _
  simp only [and_parts, Nat.reduceDiv, Nat.reduceMod, Nat.reducePow, BitVec.and_zero]; rfl

theorem Encoding.sfuEx2 (c : Bool) (w : Bool) (d : BitVec 6) (s : BitVec 7) (p : BitVec 3) : Encoding.Statement (.sfuEx2 c w d s p) := by
  intro _ word
  unfold decodeWord
  rw [code_is (n := 50) (by simp (disch := decide) only [asWord, part_low, part_high]; rfl)]
  change decodeOp32 _ = _
  unfold decodeOp32
  rw [code_is (n := 71) (by simp (disch := decide) only [asWord, part_low, part_high]; rfl)]
  refine checked_ok (by simp (disch := decide) only [asWord, part_low, part_high, part_all, bit_low, bit_high, bit_one, Nat.reduceSub]) ?_
  change _ &&& BitVec.ofNat (1+7+1+6+7+7+3) 0x7F0003F8 = _
  simp only [and_parts, Nat.reduceDiv, Nat.reduceMod, Nat.reducePow, BitVec.and_zero]; rfl

theorem Encoding.sfuLg2 (c : Bool) (w : Bool) (d : BitVec 6) (s : BitVec 7) (p : BitVec 3) : Encoding.Statement (.sfuLg2 c w d s p) := by
  intro _ word
  unfold decodeWord
  rw [code_is (n := 50) (by simp (disch := decide) only [asWord, part_low, part_high]; rfl)]
  change decodeOp32 _ = _
  unfold decodeOp32
  rw [code_is (n := 72) (by simp (disch := decide) only [asWord, part_low, part_high]; rfl)]
  refine checked_ok (by simp (disch := decide) only [asWord, part_low, part_high, part_all, bit_low, bit_high, bit_one, Nat.reduceSub]) ?_
  change _ &&& BitVec.ofNat (1+7+1+6+7+7+3) 0x7F0003F8 = _
  simp only [and_parts, Nat.reduceDiv, Nat.reduceMod, Nat.reducePow, BitVec.and_zero]; rfl

theorem Encoding.sfuSin (c : Bool) (w : Bool) (d : BitVec 6) (s : BitVec 7) (p : BitVec 3) : Encoding.Statement (.sfuSin c w d s p) := by
  intro _ word
  unfold decodeWord
  rw [code_is (n := 50) (by simp (disch := decide) only [asWord, part_low, part_high]; rfl)]
  change decodeOp32 _ = _
  unfold decodeOp32
  rw [code_is (n := 73) (by simp (disch := decide) only [asWord, part_low, part_high]; rfl)]
  refine checked_ok (by simp (disch := decide) only [asWord, part_low, part_high, part_all, bit_low, bit_high, bit_one, Nat.reduceSub]) ?_
  change _ &&& BitVec.ofNat (1+7+1+6+7+7+3) 0x7F0003F8 = _
  simp only [and_parts, Nat.reduceDiv, Nat.reduceMod, Nat.reducePow, BitVec.and_zero]; rfl

theorem Encoding.sfuCos (c : Bool) (w : Bool) (d : BitVec 6) (s : BitVec 7) (p : BitVec 3) : Encoding.Statement (.sfuCos c w d s p) := by
  intro _ word
  unfold decodeWord
  rw [code_is (n := 50) (by simp (disch := decide) only [asWord, part_low, part_high]; rfl)]
  change decodeOp32 _ = _
  unfold decodeOp32
  rw [code_is (n := 74) (by simp (disch := decide) only [asWord, part_low, part_high]; rfl)]
  refine checked_ok (by simp (disch := decide) only [asWord, part_low, part_high, part_all, bit_low, bit_high, bit_one, Nat.reduceSub]) ?_
  change _ &&& BitVec.ofNat (1+7+1+6+7+7+3) 0x7F0003F8 = _
  simp only [and_parts, Nat.reduceDiv, Nat.reduceMod, Nat.reducePow, BitVec.and_zero]; rfl

theorem Encoding.sfuTanh (c : Bool) (w : Bool) (d : BitVec 6) (s : BitVec 7) (p : BitVec 3) : Encoding.Statement (.sfuTanh c w d s p) := by
  intro _ word
  unfold decodeWord
  rw [code_is (n := 50) (by simp (disch := decide) only [asWord, part_low, part_high]; rfl)]
  change decodeOp32 _ = _
  unfold decodeOp32
  rw [code_is (n := 75) (by simp (disch := decide) only [asWord, part_low, part_high]; rfl)]
  refine checked_ok (by simp (disch := decide) only [asWord, part_low, part_high, part_all, bit_low, bit_high, bit_one, Nat.reduceSub]) ?_
  change _ &&& BitVec.ofNat (1+7+1+6+7+7+3) 0x7F0003F8 = _
  simp only [and_parts, Nat.reduceDiv, Nat.reduceMod, Nat.reducePow, BitVec.and_zero]; rfl

theorem Encoding.sfuSigm (c : Bool) (w : Bool) (d : BitVec 6) (s : BitVec 7) (p : BitVec 3) : Encoding.Statement (.sfuSigm c w d s p) := by
  intro _ word
  unfold decodeWord
  rw [code_is (n := 50) (by simp (disch := decide) only [asWord, part_low, part_high]; rfl)]
  change decodeOp32 _ = _
  unfold decodeOp32
  rw [code_is (n := 76) (by simp (disch := decide) only [asWord, part_low, part_high]; rfl)]
  refine checked_ok (by simp (disch := decide) only [asWord, part_low, part_high, part_all, bit_low, bit_high, bit_one, Nat.reduceSub]) ?_
  change _ &&& BitVec.ofNat (1+7+1+6+7+7+3) 0x7F0003F8 = _
  simp only [and_parts, Nat.reduceDiv, Nat.reduceMod, Nat.reducePow, BitVec.and_zero]; rfl

theorem Encoding.plop (c : Bool) (f : BitVec 3) (q : BitVec 3) (x : BitVec 3) (y : BitVec 3) (p : BitVec 3) : Encoding.Statement (.plop c f q x y p) := by
  intro _ word
  unfold decodeWord
  rw [code_is (n := 51) (by simp (disch := decide) only [asWord, part_low, part_high]; rfl)]
  refine checked_ok (by simp (disch := decide) only [asWord, part_low, part_high, part_all, bit_low, bit_high, bit_one, Nat.reduceSub]) ?_
  change _ &&& BitVec.ofNat (1+8+3+3+4+3+4+3+3) 0x7F81E3C0 = _
  simp only [and_parts, Nat.reduceDiv, Nat.reduceMod, Nat.reducePow, BitVec.and_zero]; rfl

theorem Encoding.qsc4Fold (c : Bool) (d : BitVec 6) (s : BitVec 7) (p : BitVec 3) : Encoding.Statement (.qsc4Fold c d s p) := by
  intro _ word
  unfold decodeWord
  rw [code_is (n := 52) (by simp (disch := decide) only [asWord, part_low, part_high]; rfl)]
  change decodeOp34 _ = _
  unfold decodeOp34
  rw [code_is (n := 68) (by simp (disch := decide) only [asWord, part_low, part_high]; rfl)]
  refine checked_ok (by simp (disch := decide) only [asWord, part_low, part_high, part_all, bit_low, bit_high, bit_one, Nat.reduceSub]) ?_
  change _ &&& BitVec.ofNat (1+8+6+7+7+3) 0x7F8003F8 = _
  simp only [and_parts, Nat.reduceDiv, Nat.reduceMod, Nat.reducePow, BitVec.and_zero]; rfl

theorem Encoding.qsc4Merge (c : Bool) (d : BitVec 6) (s : BitVec 7) (p : BitVec 3) : Encoding.Statement (.qsc4Merge c d s p) := by
  intro _ word
  unfold decodeWord
  rw [code_is (n := 52) (by simp (disch := decide) only [asWord, part_low, part_high]; rfl)]
  change decodeOp34 _ = _
  unfold decodeOp34
  rw [code_is (n := 69) (by simp (disch := decide) only [asWord, part_low, part_high]; rfl)]
  refine checked_ok (by simp (disch := decide) only [asWord, part_low, part_high, part_all, bit_low, bit_high, bit_one, Nat.reduceSub]) ?_
  change _ &&& BitVec.ofNat (1+8+6+7+7+3) 0x7F8003F8 = _
  simp only [and_parts, Nat.reduceDiv, Nat.reduceMod, Nat.reducePow, BitVec.and_zero]; rfl

theorem Encoding.qsc4Scale (c : Bool) (w : Bool) (d : BitVec 6) (s : BitVec 7) (p : BitVec 3) : Encoding.Statement (.qsc4Scale c w d s p) := by
  intro _ word
  unfold decodeWord
  rw [code_is (n := 52) (by simp (disch := decide) only [asWord, part_low, part_high]; rfl)]
  change decodeOp34 _ = _
  unfold decodeOp34
  rw [code_is (n := 70) (by simp (disch := decide) only [asWord, part_low, part_high]; rfl)]
  refine checked_ok (by simp (disch := decide) only [asWord, part_low, part_high, part_all, bit_low, bit_high, bit_one, Nat.reduceSub]) ?_
  change _ &&& BitVec.ofNat (1+7+1+6+7+7+3) 0x7F0003F8 = _
  simp only [and_parts, Nat.reduceDiv, Nat.reduceMod, Nat.reducePow, BitVec.and_zero]; rfl

theorem Encoding.qsc8Fold (c : Bool) (d : BitVec 6) (s : BitVec 7) (p : BitVec 3) : Encoding.Statement (.qsc8Fold c d s p) := by
  intro _ word
  unfold decodeWord
  rw [code_is (n := 53) (by simp (disch := decide) only [asWord, part_low, part_high]; rfl)]
  change decodeOp35 _ = _
  unfold decodeOp35
  rw [code_is (n := 68) (by simp (disch := decide) only [asWord, part_low, part_high]; rfl)]
  refine checked_ok (by simp (disch := decide) only [asWord, part_low, part_high, part_all, bit_low, bit_high, bit_one, Nat.reduceSub]) ?_
  change _ &&& BitVec.ofNat (1+8+6+7+7+3) 0x7F8003F8 = _
  simp only [and_parts, Nat.reduceDiv, Nat.reduceMod, Nat.reducePow, BitVec.and_zero]; rfl

theorem Encoding.qsc8Merge (c : Bool) (d : BitVec 6) (s : BitVec 7) (p : BitVec 3) : Encoding.Statement (.qsc8Merge c d s p) := by
  intro _ word
  unfold decodeWord
  rw [code_is (n := 53) (by simp (disch := decide) only [asWord, part_low, part_high]; rfl)]
  change decodeOp35 _ = _
  unfold decodeOp35
  rw [code_is (n := 69) (by simp (disch := decide) only [asWord, part_low, part_high]; rfl)]
  refine checked_ok (by simp (disch := decide) only [asWord, part_low, part_high, part_all, bit_low, bit_high, bit_one, Nat.reduceSub]) ?_
  change _ &&& BitVec.ofNat (1+8+6+7+7+3) 0x7F8003F8 = _
  simp only [and_parts, Nat.reduceDiv, Nat.reduceMod, Nat.reducePow, BitVec.and_zero]; rfl

theorem Encoding.qsc8Scale (c : Bool) (w : Bool) (d : BitVec 6) (s : BitVec 7) (p : BitVec 3) : Encoding.Statement (.qsc8Scale c w d s p) := by
  intro _ word
  unfold decodeWord
  rw [code_is (n := 53) (by simp (disch := decide) only [asWord, part_low, part_high]; rfl)]
  change decodeOp35 _ = _
  unfold decodeOp35
  rw [code_is (n := 70) (by simp (disch := decide) only [asWord, part_low, part_high]; rfl)]
  refine checked_ok (by simp (disch := decide) only [asWord, part_low, part_high, part_all, bit_low, bit_high, bit_one, Nat.reduceSub]) ?_
  change _ &&& BitVec.ofNat (1+7+1+6+7+7+3) 0x7F0003F8 = _
  simp only [and_parts, Nat.reduceDiv, Nat.reduceMod, Nat.reducePow, BitVec.and_zero]; rfl

theorem Encoding.qnt4 (c : Bool) (d : BitVec 6) (s : BitVec 7) (t : BitVec 7) (p : BitVec 3) : Encoding.Statement (.qnt4 c d s t p) := by
  intro _ word
  unfold decodeWord
  rw [code_is (n := 54) (by simp (disch := decide) only [asWord, part_low, part_high]; rfl)]
  refine checked_ok (by simp (disch := decide) only [asWord, part_low, part_high, part_all, bit_low, bit_high, bit_one, Nat.reduceSub]) ?_
  change _ &&& BitVec.ofNat (1+8+6+7+7+3) 0x7F800000 = _
  simp only [and_parts, Nat.reduceDiv, Nat.reduceMod, Nat.reducePow, BitVec.and_zero]; rfl

theorem Encoding.qnt8 (c : Bool) (d : BitVec 6) (s : BitVec 7) (t : BitVec 7) (p : BitVec 3) : Encoding.Statement (.qnt8 c d s t p) := by
  intro _ word
  unfold decodeWord
  rw [code_is (n := 55) (by simp (disch := decide) only [asWord, part_low, part_high]; rfl)]
  refine checked_ok (by simp (disch := decide) only [asWord, part_low, part_high, part_all, bit_low, bit_high, bit_one, Nat.reduceSub]) ?_
  change _ &&& BitVec.ofNat (1+8+6+7+7+3) 0x7F800000 = _
  simp only [and_parts, Nat.reduceDiv, Nat.reduceMod, Nat.reducePow, BitVec.and_zero]; rfl

theorem Encoding.dq (c : Bool) (w : Bool) (d : BitVec 6) (s : BitVec 7) (t : BitVec 7) (p : BitVec 3) : Encoding.Statement (.dq c w d s t p) := by
  intro _ word
  unfold decodeWord
  rw [code_is (n := 56) (by simp (disch := decide) only [asWord, part_low, part_high]; rfl)]
  refine checked_ok (by simp (disch := decide) only [asWord, part_low, part_high, part_all, bit_low, bit_high, bit_one, Nat.reduceSub]) ?_
  change _ &&& BitVec.ofNat (1+7+1+6+7+7+3) 0x7F000000 = _
  simp only [and_parts, Nat.reduceDiv, Nat.reduceMod, Nat.reducePow, BitVec.and_zero]; rfl

theorem Encoding.fclassF32 (c : Bool) (w : Bool) (d : BitVec 6) (s : BitVec 7) (p : BitVec 3) : Encoding.Statement (.fclassF32 c w d s p) := by
  intro _ word
  unfold decodeWord
  rw [code_is (n := 57) (by simp (disch := decide) only [asWord, part_low, part_high]; rfl)]
  change decodeOp39 _ = _
  unfold decodeOp39
  rw [code_is (n := 68) (by simp (disch := decide) only [asWord, part_low, part_high]; rfl)]
  refine checked_ok (by simp (disch := decide) only [asWord, part_low, part_high, part_all, bit_low, bit_high, bit_one, Nat.reduceSub]) ?_
  change _ &&& BitVec.ofNat (1+7+1+6+7+7+3) 0x7F0003F8 = _
  simp only [and_parts, Nat.reduceDiv, Nat.reduceMod, Nat.reducePow, BitVec.and_zero]; rfl

theorem Encoding.fclassF16 (c : Bool) (w : Bool) (d : BitVec 6) (s : BitVec 7) (p : BitVec 3) : Encoding.Statement (.fclassF16 c w d s p) := by
  intro _ word
  unfold decodeWord
  rw [code_is (n := 57) (by simp (disch := decide) only [asWord, part_low, part_high]; rfl)]
  change decodeOp39 _ = _
  unfold decodeOp39
  rw [code_is (n := 69) (by simp (disch := decide) only [asWord, part_low, part_high]; rfl)]
  refine checked_ok (by simp (disch := decide) only [asWord, part_low, part_high, part_all, bit_low, bit_high, bit_one, Nat.reduceSub]) ?_
  change _ &&& BitVec.ofNat (1+7+1+6+7+7+3) 0x7F0003F8 = _
  simp only [and_parts, Nat.reduceDiv, Nat.reduceMod, Nat.reducePow, BitVec.and_zero]; rfl

theorem Encoding.fclassBf16 (c : Bool) (w : Bool) (d : BitVec 6) (s : BitVec 7) (p : BitVec 3) : Encoding.Statement (.fclassBf16 c w d s p) := by
  intro _ word
  unfold decodeWord
  rw [code_is (n := 57) (by simp (disch := decide) only [asWord, part_low, part_high]; rfl)]
  change decodeOp39 _ = _
  unfold decodeOp39
  rw [code_is (n := 70) (by simp (disch := decide) only [asWord, part_low, part_high]; rfl)]
  refine checked_ok (by simp (disch := decide) only [asWord, part_low, part_high, part_all, bit_low, bit_high, bit_one, Nat.reduceSub]) ?_
  change _ &&& BitVec.ofNat (1+7+1+6+7+7+3) 0x7F0003F8 = _
  simp only [and_parts, Nat.reduceDiv, Nat.reduceMod, Nat.reducePow, BitVec.and_zero]; rfl

theorem Encoding.fclassF64 (c : Bool) (w : Bool) (d : BitVec 6) (s : BitVec 7) (p : BitVec 3) : Encoding.Statement (.fclassF64 c w d s p) := by
  intro _ word
  unfold decodeWord
  rw [code_is (n := 57) (by simp (disch := decide) only [asWord, part_low, part_high]; rfl)]
  change decodeOp39 _ = _
  unfold decodeOp39
  rw [code_is (n := 71) (by simp (disch := decide) only [asWord, part_low, part_high]; rfl)]
  refine checked_ok (by simp (disch := decide) only [asWord, part_low, part_high, part_all, bit_low, bit_high, bit_one, Nat.reduceSub]) ?_
  change _ &&& BitVec.ofNat (1+7+1+6+7+7+3) 0x7F0003F8 = _
  simp only [and_parts, Nat.reduceDiv, Nat.reduceMod, Nat.reducePow, BitVec.and_zero]; rfl

theorem Encoding.fclassE4m3 (c : Bool) (w : Bool) (d : BitVec 6) (s : BitVec 7) (p : BitVec 3) : Encoding.Statement (.fclassE4m3 c w d s p) := by
  intro _ word
  unfold decodeWord
  rw [code_is (n := 57) (by simp (disch := decide) only [asWord, part_low, part_high]; rfl)]
  change decodeOp39 _ = _
  unfold decodeOp39
  rw [code_is (n := 72) (by simp (disch := decide) only [asWord, part_low, part_high]; rfl)]
  refine checked_ok (by simp (disch := decide) only [asWord, part_low, part_high, part_all, bit_low, bit_high, bit_one, Nat.reduceSub]) ?_
  change _ &&& BitVec.ofNat (1+7+1+6+7+7+3) 0x7F0003F8 = _
  simp only [and_parts, Nat.reduceDiv, Nat.reduceMod, Nat.reducePow, BitVec.and_zero]; rfl

theorem Encoding.fclassE5m2 (c : Bool) (w : Bool) (d : BitVec 6) (s : BitVec 7) (p : BitVec 3) : Encoding.Statement (.fclassE5m2 c w d s p) := by
  intro _ word
  unfold decodeWord
  rw [code_is (n := 57) (by simp (disch := decide) only [asWord, part_low, part_high]; rfl)]
  change decodeOp39 _ = _
  unfold decodeOp39
  rw [code_is (n := 73) (by simp (disch := decide) only [asWord, part_low, part_high]; rfl)]
  refine checked_ok (by simp (disch := decide) only [asWord, part_low, part_high, part_all, bit_low, bit_high, bit_one, Nat.reduceSub]) ?_
  change _ &&& BitVec.ofNat (1+7+1+6+7+7+3) 0x7F0003F8 = _
  simp only [and_parts, Nat.reduceDiv, Nat.reduceMod, Nat.reducePow, BitVec.and_zero]; rfl

theorem Encoding.shr64 (c : Bool) (w : Bool) (d : BitVec 6) (s : BitVec 7) (t : BitVec 7) (p : BitVec 3) : Encoding.Statement (.shr64 c w d s t p) := by
  intro _ word
  unfold decodeWord
  rw [code_is (n := 58) (by simp (disch := decide) only [asWord, part_low, part_high]; rfl)]
  refine checked_ok (by simp (disch := decide) only [asWord, part_low, part_high, part_all, bit_low, bit_high, bit_one, Nat.reduceSub]) ?_
  change _ &&& BitVec.ofNat (1+7+1+6+7+7+3) 0x7F000000 = _
  simp only [and_parts, Nat.reduceDiv, Nat.reduceMod, Nat.reducePow, BitVec.and_zero]; rfl

theorem Encoding.addi (c : Bool) (d : BitVec 6) (s : BitVec 6) (i : BitVec 12) : Encoding.Statement (.addi c d s i) := by
  intro _ word
  unfold decodeWord
  rw [code_is (n := 64) (by simp (disch := decide) only [asWord, part_low, part_high]; rfl)]
  refine checked_ok (by simp (disch := decide) only [asWord, part_low, part_high, part_all, bit_low, bit_high, bit_one, Nat.reduceSub]) ?_
  change _ &&& BitVec.ofNat (1+7+6+6+12) 0x7F000000 = _
  simp only [and_parts, Nat.reduceDiv, Nat.reduceMod, Nat.reducePow, BitVec.and_zero]; rfl

theorem Encoding.muli (c : Bool) (d : BitVec 6) (s : BitVec 6) (i : BitVec 12) : Encoding.Statement (.muli c d s i) := by
  intro _ word
  unfold decodeWord
  rw [code_is (n := 65) (by simp (disch := decide) only [asWord, part_low, part_high]; rfl)]
  refine checked_ok (by simp (disch := decide) only [asWord, part_low, part_high, part_all, bit_low, bit_high, bit_one, Nat.reduceSub]) ?_
  change _ &&& BitVec.ofNat (1+7+6+6+12) 0x7F000000 = _
  simp only [and_parts, Nat.reduceDiv, Nat.reduceMod, Nat.reducePow, BitVec.and_zero]; rfl

theorem Encoding.andi (c : Bool) (d : BitVec 6) (s : BitVec 6) (i : BitVec 12) : Encoding.Statement (.andi c d s i) := by
  intro _ word
  unfold decodeWord
  rw [code_is (n := 66) (by simp (disch := decide) only [asWord, part_low, part_high]; rfl)]
  refine checked_ok (by simp (disch := decide) only [asWord, part_low, part_high, part_all, bit_low, bit_high, bit_one, Nat.reduceSub]) ?_
  change _ &&& BitVec.ofNat (1+7+6+6+12) 0x7F000000 = _
  simp only [and_parts, Nat.reduceDiv, Nat.reduceMod, Nat.reducePow, BitVec.and_zero]; rfl

theorem Encoding.ori (c : Bool) (d : BitVec 6) (s : BitVec 6) (i : BitVec 12) : Encoding.Statement (.ori c d s i) := by
  intro _ word
  unfold decodeWord
  rw [code_is (n := 67) (by simp (disch := decide) only [asWord, part_low, part_high]; rfl)]
  refine checked_ok (by simp (disch := decide) only [asWord, part_low, part_high, part_all, bit_low, bit_high, bit_one, Nat.reduceSub]) ?_
  change _ &&& BitVec.ofNat (1+7+6+6+12) 0x7F000000 = _
  simp only [and_parts, Nat.reduceDiv, Nat.reduceMod, Nat.reducePow, BitVec.and_zero]; rfl

theorem Encoding.xori (c : Bool) (d : BitVec 6) (s : BitVec 6) (i : BitVec 12) : Encoding.Statement (.xori c d s i) := by
  intro _ word
  unfold decodeWord
  rw [code_is (n := 68) (by simp (disch := decide) only [asWord, part_low, part_high]; rfl)]
  refine checked_ok (by simp (disch := decide) only [asWord, part_low, part_high, part_all, bit_low, bit_high, bit_one, Nat.reduceSub]) ?_
  change _ &&& BitVec.ofNat (1+7+6+6+12) 0x7F000000 = _
  simp only [and_parts, Nat.reduceDiv, Nat.reduceMod, Nat.reducePow, BitVec.and_zero]; rfl

theorem Encoding.shli (c : Bool) (d : BitVec 6) (s : BitVec 6) (i : BitVec 5) : Encoding.Statement (.shli c d s i) := by
  intro _ word
  unfold decodeWord
  rw [code_is (n := 69) (by simp (disch := decide) only [asWord, part_low, part_high]; rfl)]
  refine checked_ok (by simp (disch := decide) only [asWord, part_low, part_high, part_all, bit_low, bit_high, bit_one, Nat.reduceSub]) ?_
  change _ &&& BitVec.ofNat (1+7+6+6+7+5) 0x7F000FE0 = _
  simp only [and_parts, Nat.reduceDiv, Nat.reduceMod, Nat.reducePow, BitVec.and_zero]; rfl

theorem Encoding.shri (c : Bool) (d : BitVec 6) (s : BitVec 6) (i : BitVec 5) : Encoding.Statement (.shri c d s i) := by
  intro _ word
  unfold decodeWord
  rw [code_is (n := 70) (by simp (disch := decide) only [asWord, part_low, part_high]; rfl)]
  refine checked_ok (by simp (disch := decide) only [asWord, part_low, part_high, part_all, bit_low, bit_high, bit_one, Nat.reduceSub]) ?_
  change _ &&& BitVec.ofNat (1+7+6+6+7+5) 0x7F000FE0 = _
  simp only [and_parts, Nat.reduceDiv, Nat.reduceMod, Nat.reducePow, BitVec.and_zero]; rfl

theorem Encoding.sari (c : Bool) (d : BitVec 6) (s : BitVec 6) (i : BitVec 5) : Encoding.Statement (.sari c d s i) := by
  intro _ word
  unfold decodeWord
  rw [code_is (n := 71) (by simp (disch := decide) only [asWord, part_low, part_high]; rfl)]
  refine checked_ok (by simp (disch := decide) only [asWord, part_low, part_high, part_all, bit_low, bit_high, bit_one, Nat.reduceSub]) ?_
  change _ &&& BitVec.ofNat (1+7+6+6+7+5) 0x7F000FE0 = _
  simp only [and_parts, Nat.reduceDiv, Nat.reduceMod, Nat.reducePow, BitVec.and_zero]; rfl

theorem Encoding.icmpi (c : Bool) (k : BitVec 3) (q : BitVec 3) (s : BitVec 6) (i : BitVec 12) : Encoding.Statement (.icmpi c k q s i) := by
  intro _ word
  unfold decodeWord
  rw [code_is (n := 72) (by simp (disch := decide) only [asWord, part_low, part_high]; rfl)]
  refine checked_ok (by simp (disch := decide) only [asWord, part_low, part_high, part_all, bit_low, bit_high, bit_one, Nat.reduceSub]) ?_
  change _ &&& BitVec.ofNat (1+7+3+3+6+12) 0x7F000000 = _
  simp only [and_parts, Nat.reduceDiv, Nat.reduceMod, Nat.reducePow, BitVec.and_zero]; rfl

theorem Encoding.movk (c : Bool) (d : BitVec 6) (lit : BitVec 32) : Encoding.Statement (.movk c d lit) := by
  intro _
  change decodeWord (asWord _) lit = _
  unfold decodeWord
  rw [code_is (n := 73) (by simp (disch := decide) only [asWord, part_low, part_high]; rfl)]
  refine checked_ok (by simp (disch := decide) only [asWord, part_low, part_high, part_all, bit_low, bit_high, bit_one, Nat.reduceSub]) ?_
  change _ &&& BitVec.ofNat (1+7+6+18) 0x7F03FFFF = _
  simp only [and_parts, Nat.reduceDiv, Nat.reduceMod, Nat.reducePow, BitVec.and_zero]; rfl

theorem Encoding.addi64 (c : Bool) (d : BitVec 6) (s : BitVec 6) (i : BitVec 12) : Encoding.Statement (.addi64 c d s i) := by
  intro _ word
  unfold decodeWord
  rw [code_is (n := 74) (by simp (disch := decide) only [asWord, part_low, part_high]; rfl)]
  refine checked_ok (by simp (disch := decide) only [asWord, part_low, part_high, part_all, bit_low, bit_high, bit_one, Nat.reduceSub]) ?_
  change _ &&& BitVec.ofNat (1+7+6+6+12) 0x7F000000 = _
  simp only [and_parts, Nat.reduceDiv, Nat.reduceMod, Nat.reducePow, BitVec.and_zero]; rfl

theorem Encoding.srd (c : Bool) (d : BitVec 6) (i : BitVec 12) : Encoding.Statement (.srd c d i) := by
  intro _ word
  unfold decodeWord
  rw [code_is (n := 75) (by simp (disch := decide) only [asWord, part_low, part_high]; rfl)]
  refine checked_ok (by simp (disch := decide) only [asWord, part_low, part_high, part_all, bit_low, bit_high, bit_one, Nat.reduceSub]) ?_
  change _ &&& BitVec.ofNat (1+7+6+6+12) 0x7F03F000 = _
  simp only [and_parts, Nat.reduceDiv, Nat.reduceMod, Nat.reducePow, BitVec.and_zero]; rfl

theorem Encoding.swr (c : Bool) (s : BitVec 6) (i : BitVec 12) : Encoding.Statement (.swr c s i) := by
  intro _ word
  unfold decodeWord
  rw [code_is (n := 76) (by simp (disch := decide) only [asWord, part_low, part_high]; rfl)]
  refine checked_ok (by simp (disch := decide) only [asWord, part_low, part_high, part_all, bit_low, bit_high, bit_one, Nat.reduceSub]) ?_
  change _ &&& BitVec.ofNat (1+13+6+12) 0x7FFC0000 = _
  simp only [and_parts, Nat.reduceDiv, Nat.reduceMod, Nat.reducePow, BitVec.and_zero]; rfl

theorem Encoding.ldb (c : Bool) (d : BitVec 6) (a : BitVec 6) (p : BitVec 3) (i : BitVec 9) : Encoding.Statement (.ldb c d a p i) := by
  intro _ word
  unfold decodeWord
  rw [code_is (n := 80) (by simp (disch := decide) only [asWord, part_low, part_high]; rfl)]
  refine checked_ok (by simp (disch := decide) only [asWord, part_low, part_high, part_all, bit_low, bit_high, bit_one, Nat.reduceSub]) ?_
  change _ &&& BitVec.ofNat (1+7+6+6+3+9) 0x7F000000 = _
  simp only [and_parts, Nat.reduceDiv, Nat.reduceMod, Nat.reducePow, BitVec.and_zero]; rfl

theorem Encoding.ldh (c : Bool) (d : BitVec 6) (a : BitVec 6) (p : BitVec 3) (i : BitVec 9) : Encoding.Statement (.ldh c d a p i) := by
  intro _ word
  unfold decodeWord
  rw [code_is (n := 81) (by simp (disch := decide) only [asWord, part_low, part_high]; rfl)]
  refine checked_ok (by simp (disch := decide) only [asWord, part_low, part_high, part_all, bit_low, bit_high, bit_one, Nat.reduceSub]) ?_
  change _ &&& BitVec.ofNat (1+7+6+6+3+9) 0x7F000000 = _
  simp only [and_parts, Nat.reduceDiv, Nat.reduceMod, Nat.reducePow, BitVec.and_zero]; rfl

theorem Encoding.ldw (c : Bool) (d : BitVec 6) (a : BitVec 6) (p : BitVec 3) (i : BitVec 9) : Encoding.Statement (.ldw c d a p i) := by
  intro _ word
  unfold decodeWord
  rw [code_is (n := 82) (by simp (disch := decide) only [asWord, part_low, part_high]; rfl)]
  refine checked_ok (by simp (disch := decide) only [asWord, part_low, part_high, part_all, bit_low, bit_high, bit_one, Nat.reduceSub]) ?_
  change _ &&& BitVec.ofNat (1+7+6+6+3+9) 0x7F000000 = _
  simp only [and_parts, Nat.reduceDiv, Nat.reduceMod, Nat.reducePow, BitVec.and_zero]; rfl

theorem Encoding.ldd (c : Bool) (d : BitVec 6) (a : BitVec 6) (p : BitVec 3) (i : BitVec 9) : Encoding.Statement (.ldd c d a p i) := by
  intro _ word
  unfold decodeWord
  rw [code_is (n := 83) (by simp (disch := decide) only [asWord, part_low, part_high]; rfl)]
  refine checked_ok (by simp (disch := decide) only [asWord, part_low, part_high, part_all, bit_low, bit_high, bit_one, Nat.reduceSub]) ?_
  change _ &&& BitVec.ofNat (1+7+6+6+3+9) 0x7F000000 = _
  simp only [and_parts, Nat.reduceDiv, Nat.reduceMod, Nat.reducePow, BitVec.and_zero]; rfl

theorem Encoding.ldq (c : Bool) (d : BitVec 6) (a : BitVec 6) (p : BitVec 3) (i : BitVec 9) : Encoding.Statement (.ldq c d a p i) := by
  intro _ word
  unfold decodeWord
  rw [code_is (n := 84) (by simp (disch := decide) only [asWord, part_low, part_high]; rfl)]
  refine checked_ok (by simp (disch := decide) only [asWord, part_low, part_high, part_all, bit_low, bit_high, bit_one, Nat.reduceSub]) ?_
  change _ &&& BitVec.ofNat (1+7+6+6+3+9) 0x7F000000 = _
  simp only [and_parts, Nat.reduceDiv, Nat.reduceMod, Nat.reducePow, BitVec.and_zero]; rfl

theorem Encoding.stb (c : Bool) (d : BitVec 6) (a : BitVec 6) (p : BitVec 3) (i : BitVec 9) : Encoding.Statement (.stb c d a p i) := by
  intro _ word
  unfold decodeWord
  rw [code_is (n := 85) (by simp (disch := decide) only [asWord, part_low, part_high]; rfl)]
  refine checked_ok (by simp (disch := decide) only [asWord, part_low, part_high, part_all, bit_low, bit_high, bit_one, Nat.reduceSub]) ?_
  change _ &&& BitVec.ofNat (1+7+6+6+3+9) 0x7F000000 = _
  simp only [and_parts, Nat.reduceDiv, Nat.reduceMod, Nat.reducePow, BitVec.and_zero]; rfl

theorem Encoding.sth (c : Bool) (d : BitVec 6) (a : BitVec 6) (p : BitVec 3) (i : BitVec 9) : Encoding.Statement (.sth c d a p i) := by
  intro _ word
  unfold decodeWord
  rw [code_is (n := 86) (by simp (disch := decide) only [asWord, part_low, part_high]; rfl)]
  refine checked_ok (by simp (disch := decide) only [asWord, part_low, part_high, part_all, bit_low, bit_high, bit_one, Nat.reduceSub]) ?_
  change _ &&& BitVec.ofNat (1+7+6+6+3+9) 0x7F000000 = _
  simp only [and_parts, Nat.reduceDiv, Nat.reduceMod, Nat.reducePow, BitVec.and_zero]; rfl

theorem Encoding.stw (c : Bool) (d : BitVec 6) (a : BitVec 6) (p : BitVec 3) (i : BitVec 9) : Encoding.Statement (.stw c d a p i) := by
  intro _ word
  unfold decodeWord
  rw [code_is (n := 87) (by simp (disch := decide) only [asWord, part_low, part_high]; rfl)]
  refine checked_ok (by simp (disch := decide) only [asWord, part_low, part_high, part_all, bit_low, bit_high, bit_one, Nat.reduceSub]) ?_
  change _ &&& BitVec.ofNat (1+7+6+6+3+9) 0x7F000000 = _
  simp only [and_parts, Nat.reduceDiv, Nat.reduceMod, Nat.reducePow, BitVec.and_zero]; rfl

theorem Encoding.std (c : Bool) (d : BitVec 6) (a : BitVec 6) (p : BitVec 3) (i : BitVec 9) : Encoding.Statement (.std c d a p i) := by
  intro _ word
  unfold decodeWord
  rw [code_is (n := 88) (by simp (disch := decide) only [asWord, part_low, part_high]; rfl)]
  refine checked_ok (by simp (disch := decide) only [asWord, part_low, part_high, part_all, bit_low, bit_high, bit_one, Nat.reduceSub]) ?_
  change _ &&& BitVec.ofNat (1+7+6+6+3+9) 0x7F000000 = _
  simp only [and_parts, Nat.reduceDiv, Nat.reduceMod, Nat.reducePow, BitVec.and_zero]; rfl

theorem Encoding.stq (c : Bool) (d : BitVec 6) (a : BitVec 6) (p : BitVec 3) (i : BitVec 9) : Encoding.Statement (.stq c d a p i) := by
  intro _ word
  unfold decodeWord
  rw [code_is (n := 89) (by simp (disch := decide) only [asWord, part_low, part_high]; rfl)]
  refine checked_ok (by simp (disch := decide) only [asWord, part_low, part_high, part_all, bit_low, bit_high, bit_one, Nat.reduceSub]) ?_
  change _ &&& BitVec.ofNat (1+7+6+6+3+9) 0x7F000000 = _
  simp only [and_parts, Nat.reduceDiv, Nat.reduceMod, Nat.reducePow, BitVec.and_zero]; rfl

theorem Encoding.ldwn (c : Bool) (d : BitVec 6) (a : BitVec 6) (q : BitVec 3) (i : BitVec 9) : Encoding.Statement (.ldwn c d a q i) := by
  intro _ word
  unfold decodeWord
  rw [code_is (n := 90) (by simp (disch := decide) only [asWord, part_low, part_high]; rfl)]
  refine checked_ok (by simp (disch := decide) only [asWord, part_low, part_high, part_all, bit_low, bit_high, bit_one, Nat.reduceSub]) ?_
  change _ &&& BitVec.ofNat (1+7+6+6+3+9) 0x7F000000 = _
  simp only [and_parts, Nat.reduceDiv, Nat.reduceMod, Nat.reducePow, BitVec.and_zero]; rfl

theorem Encoding.ldqn (c : Bool) (d : BitVec 6) (a : BitVec 6) (q : BitVec 3) (i : BitVec 9) : Encoding.Statement (.ldqn c d a q i) := by
  intro _ word
  unfold decodeWord
  rw [code_is (n := 91) (by simp (disch := decide) only [asWord, part_low, part_high]; rfl)]
  refine checked_ok (by simp (disch := decide) only [asWord, part_low, part_high, part_all, bit_low, bit_high, bit_one, Nat.reduceSub]) ?_
  change _ &&& BitVec.ofNat (1+7+6+6+3+9) 0x7F000000 = _
  simp only [and_parts, Nat.reduceDiv, Nat.reduceMod, Nat.reducePow, BitVec.and_zero]; rfl

theorem Encoding.lsw (c : Bool) (d : BitVec 6) (a : BitVec 6) (p : BitVec 3) (i : BitVec 9) : Encoding.Statement (.lsw c d a p i) := by
  intro _ word
  unfold decodeWord
  rw [code_is (n := 92) (by simp (disch := decide) only [asWord, part_low, part_high]; rfl)]
  refine checked_ok (by simp (disch := decide) only [asWord, part_low, part_high, part_all, bit_low, bit_high, bit_one, Nat.reduceSub]) ?_
  change _ &&& BitVec.ofNat (1+7+6+6+3+9) 0x7F000000 = _
  simp only [and_parts, Nat.reduceDiv, Nat.reduceMod, Nat.reducePow, BitVec.and_zero]; rfl

theorem Encoding.lsq (c : Bool) (d : BitVec 6) (a : BitVec 6) (p : BitVec 3) (i : BitVec 9) : Encoding.Statement (.lsq c d a p i) := by
  intro _ word
  unfold decodeWord
  rw [code_is (n := 93) (by simp (disch := decide) only [asWord, part_low, part_high]; rfl)]
  refine checked_ok (by simp (disch := decide) only [asWord, part_low, part_high, part_all, bit_low, bit_high, bit_one, Nat.reduceSub]) ?_
  change _ &&& BitVec.ofNat (1+7+6+6+3+9) 0x7F000000 = _
  simp only [and_parts, Nat.reduceDiv, Nat.reduceMod, Nat.reducePow, BitVec.and_zero]; rfl

theorem Encoding.ssw (c : Bool) (d : BitVec 6) (a : BitVec 6) (p : BitVec 3) (i : BitVec 9) : Encoding.Statement (.ssw c d a p i) := by
  intro _ word
  unfold decodeWord
  rw [code_is (n := 94) (by simp (disch := decide) only [asWord, part_low, part_high]; rfl)]
  refine checked_ok (by simp (disch := decide) only [asWord, part_low, part_high, part_all, bit_low, bit_high, bit_one, Nat.reduceSub]) ?_
  change _ &&& BitVec.ofNat (1+7+6+6+3+9) 0x7F000000 = _
  simp only [and_parts, Nat.reduceDiv, Nat.reduceMod, Nat.reducePow, BitVec.and_zero]; rfl

theorem Encoding.ssq (c : Bool) (d : BitVec 6) (a : BitVec 6) (p : BitVec 3) (i : BitVec 9) : Encoding.Statement (.ssq c d a p i) := by
  intro _ word
  unfold decodeWord
  rw [code_is (n := 95) (by simp (disch := decide) only [asWord, part_low, part_high]; rfl)]
  refine checked_ok (by simp (disch := decide) only [asWord, part_low, part_high, part_all, bit_low, bit_high, bit_one, Nat.reduceSub]) ?_
  change _ &&& BitVec.ofNat (1+7+6+6+3+9) 0x7F000000 = _
  simp only [and_parts, Nat.reduceDiv, Nat.reduceMod, Nat.reducePow, BitVec.and_zero]; rfl

theorem Encoding.amoAdd (c : Bool) (d : BitVec 6) (a : BitVec 6) (o : BitVec 2) (s : BitVec 3) (p : BitVec 2) : Encoding.Statement (.amoAdd c d a o s p) := by
  intro _ word
  unfold decodeWord
  rw [code_is (n := 96) (by simp (disch := decide) only [asWord, part_low, part_high]; rfl)]
  change decodeOp60 _ = _
  unfold decodeOp60
  rw [code_is (n := 0) (by simp (disch := decide) only [asWord, part_low, part_high]; rfl)]
  refine checked_ok (by simp (disch := decide) only [asWord, part_low, part_high, part_all, bit_low, bit_high, bit_one, Nat.reduceSub]) ?_
  change _ &&& BitVec.ofNat (1+7+6+6+5+2+3+2) 0x7F000F80 = _
  simp only [and_parts, Nat.reduceDiv, Nat.reduceMod, Nat.reducePow, BitVec.and_zero]; rfl

theorem Encoding.amoAnd (c : Bool) (d : BitVec 6) (a : BitVec 6) (o : BitVec 2) (s : BitVec 3) (p : BitVec 2) : Encoding.Statement (.amoAnd c d a o s p) := by
  intro _ word
  unfold decodeWord
  rw [code_is (n := 96) (by simp (disch := decide) only [asWord, part_low, part_high]; rfl)]
  change decodeOp60 _ = _
  unfold decodeOp60
  rw [code_is (n := 1) (by simp (disch := decide) only [asWord, part_low, part_high]; rfl)]
  refine checked_ok (by simp (disch := decide) only [asWord, part_low, part_high, part_all, bit_low, bit_high, bit_one, Nat.reduceSub]) ?_
  change _ &&& BitVec.ofNat (1+7+6+6+5+2+3+2) 0x7F000F80 = _
  simp only [and_parts, Nat.reduceDiv, Nat.reduceMod, Nat.reducePow, BitVec.and_zero]; rfl

theorem Encoding.amoOr (c : Bool) (d : BitVec 6) (a : BitVec 6) (o : BitVec 2) (s : BitVec 3) (p : BitVec 2) : Encoding.Statement (.amoOr c d a o s p) := by
  intro _ word
  unfold decodeWord
  rw [code_is (n := 96) (by simp (disch := decide) only [asWord, part_low, part_high]; rfl)]
  change decodeOp60 _ = _
  unfold decodeOp60
  rw [code_is (n := 2) (by simp (disch := decide) only [asWord, part_low, part_high]; rfl)]
  refine checked_ok (by simp (disch := decide) only [asWord, part_low, part_high, part_all, bit_low, bit_high, bit_one, Nat.reduceSub]) ?_
  change _ &&& BitVec.ofNat (1+7+6+6+5+2+3+2) 0x7F000F80 = _
  simp only [and_parts, Nat.reduceDiv, Nat.reduceMod, Nat.reducePow, BitVec.and_zero]; rfl

theorem Encoding.amoXor (c : Bool) (d : BitVec 6) (a : BitVec 6) (o : BitVec 2) (s : BitVec 3) (p : BitVec 2) : Encoding.Statement (.amoXor c d a o s p) := by
  intro _ word
  unfold decodeWord
  rw [code_is (n := 96) (by simp (disch := decide) only [asWord, part_low, part_high]; rfl)]
  change decodeOp60 _ = _
  unfold decodeOp60
  rw [code_is (n := 3) (by simp (disch := decide) only [asWord, part_low, part_high]; rfl)]
  refine checked_ok (by simp (disch := decide) only [asWord, part_low, part_high, part_all, bit_low, bit_high, bit_one, Nat.reduceSub]) ?_
  change _ &&& BitVec.ofNat (1+7+6+6+5+2+3+2) 0x7F000F80 = _
  simp only [and_parts, Nat.reduceDiv, Nat.reduceMod, Nat.reducePow, BitVec.and_zero]; rfl

theorem Encoding.amoMin (c : Bool) (d : BitVec 6) (a : BitVec 6) (o : BitVec 2) (s : BitVec 3) (p : BitVec 2) : Encoding.Statement (.amoMin c d a o s p) := by
  intro _ word
  unfold decodeWord
  rw [code_is (n := 96) (by simp (disch := decide) only [asWord, part_low, part_high]; rfl)]
  change decodeOp60 _ = _
  unfold decodeOp60
  rw [code_is (n := 4) (by simp (disch := decide) only [asWord, part_low, part_high]; rfl)]
  refine checked_ok (by simp (disch := decide) only [asWord, part_low, part_high, part_all, bit_low, bit_high, bit_one, Nat.reduceSub]) ?_
  change _ &&& BitVec.ofNat (1+7+6+6+5+2+3+2) 0x7F000F80 = _
  simp only [and_parts, Nat.reduceDiv, Nat.reduceMod, Nat.reducePow, BitVec.and_zero]; rfl

theorem Encoding.amoMax (c : Bool) (d : BitVec 6) (a : BitVec 6) (o : BitVec 2) (s : BitVec 3) (p : BitVec 2) : Encoding.Statement (.amoMax c d a o s p) := by
  intro _ word
  unfold decodeWord
  rw [code_is (n := 96) (by simp (disch := decide) only [asWord, part_low, part_high]; rfl)]
  change decodeOp60 _ = _
  unfold decodeOp60
  rw [code_is (n := 5) (by simp (disch := decide) only [asWord, part_low, part_high]; rfl)]
  refine checked_ok (by simp (disch := decide) only [asWord, part_low, part_high, part_all, bit_low, bit_high, bit_one, Nat.reduceSub]) ?_
  change _ &&& BitVec.ofNat (1+7+6+6+5+2+3+2) 0x7F000F80 = _
  simp only [and_parts, Nat.reduceDiv, Nat.reduceMod, Nat.reducePow, BitVec.and_zero]; rfl

theorem Encoding.amoUmin (c : Bool) (d : BitVec 6) (a : BitVec 6) (o : BitVec 2) (s : BitVec 3) (p : BitVec 2) : Encoding.Statement (.amoUmin c d a o s p) := by
  intro _ word
  unfold decodeWord
  rw [code_is (n := 96) (by simp (disch := decide) only [asWord, part_low, part_high]; rfl)]
  change decodeOp60 _ = _
  unfold decodeOp60
  rw [code_is (n := 6) (by simp (disch := decide) only [asWord, part_low, part_high]; rfl)]
  refine checked_ok (by simp (disch := decide) only [asWord, part_low, part_high, part_all, bit_low, bit_high, bit_one, Nat.reduceSub]) ?_
  change _ &&& BitVec.ofNat (1+7+6+6+5+2+3+2) 0x7F000F80 = _
  simp only [and_parts, Nat.reduceDiv, Nat.reduceMod, Nat.reducePow, BitVec.and_zero]; rfl

theorem Encoding.amoUmax (c : Bool) (d : BitVec 6) (a : BitVec 6) (o : BitVec 2) (s : BitVec 3) (p : BitVec 2) : Encoding.Statement (.amoUmax c d a o s p) := by
  intro _ word
  unfold decodeWord
  rw [code_is (n := 96) (by simp (disch := decide) only [asWord, part_low, part_high]; rfl)]
  change decodeOp60 _ = _
  unfold decodeOp60
  rw [code_is (n := 7) (by simp (disch := decide) only [asWord, part_low, part_high]; rfl)]
  refine checked_ok (by simp (disch := decide) only [asWord, part_low, part_high, part_all, bit_low, bit_high, bit_one, Nat.reduceSub]) ?_
  change _ &&& BitVec.ofNat (1+7+6+6+5+2+3+2) 0x7F000F80 = _
  simp only [and_parts, Nat.reduceDiv, Nat.reduceMod, Nat.reducePow, BitVec.and_zero]; rfl

theorem Encoding.amoXchg (c : Bool) (d : BitVec 6) (a : BitVec 6) (o : BitVec 2) (s : BitVec 3) (p : BitVec 2) : Encoding.Statement (.amoXchg c d a o s p) := by
  intro _ word
  unfold decodeWord
  rw [code_is (n := 96) (by simp (disch := decide) only [asWord, part_low, part_high]; rfl)]
  change decodeOp60 _ = _
  unfold decodeOp60
  rw [code_is (n := 8) (by simp (disch := decide) only [asWord, part_low, part_high]; rfl)]
  refine checked_ok (by simp (disch := decide) only [asWord, part_low, part_high, part_all, bit_low, bit_high, bit_one, Nat.reduceSub]) ?_
  change _ &&& BitVec.ofNat (1+7+6+6+5+2+3+2) 0x7F000F80 = _
  simp only [and_parts, Nat.reduceDiv, Nat.reduceMod, Nat.reducePow, BitVec.and_zero]; rfl

theorem Encoding.amoCas (c : Bool) (d : BitVec 6) (a : BitVec 6) (o : BitVec 2) (s : BitVec 3) (p : BitVec 2) : Encoding.Statement (.amoCas c d a o s p) := by
  intro _ word
  unfold decodeWord
  rw [code_is (n := 96) (by simp (disch := decide) only [asWord, part_low, part_high]; rfl)]
  change decodeOp60 _ = _
  unfold decodeOp60
  rw [code_is (n := 9) (by simp (disch := decide) only [asWord, part_low, part_high]; rfl)]
  refine checked_ok (by simp (disch := decide) only [asWord, part_low, part_high, part_all, bit_low, bit_high, bit_one, Nat.reduceSub]) ?_
  change _ &&& BitVec.ofNat (1+7+6+6+5+2+3+2) 0x7F000F80 = _
  simp only [and_parts, Nat.reduceDiv, Nat.reduceMod, Nat.reducePow, BitVec.and_zero]; rfl

theorem Encoding.amoFadd (c : Bool) (d : BitVec 6) (a : BitVec 6) (o : BitVec 2) (s : BitVec 3) (p : BitVec 2) : Encoding.Statement (.amoFadd c d a o s p) := by
  intro _ word
  unfold decodeWord
  rw [code_is (n := 96) (by simp (disch := decide) only [asWord, part_low, part_high]; rfl)]
  change decodeOp60 _ = _
  unfold decodeOp60
  rw [code_is (n := 10) (by simp (disch := decide) only [asWord, part_low, part_high]; rfl)]
  refine checked_ok (by simp (disch := decide) only [asWord, part_low, part_high, part_all, bit_low, bit_high, bit_one, Nat.reduceSub]) ?_
  change _ &&& BitVec.ofNat (1+7+6+6+5+2+3+2) 0x7F000F80 = _
  simp only [and_parts, Nat.reduceDiv, Nat.reduceMod, Nat.reducePow, BitVec.and_zero]; rfl

theorem Encoding.amoBadd2 (c : Bool) (d : BitVec 6) (a : BitVec 6) (o : BitVec 2) (s : BitVec 3) (p : BitVec 2) : Encoding.Statement (.amoBadd2 c d a o s p) := by
  intro _ word
  unfold decodeWord
  rw [code_is (n := 96) (by simp (disch := decide) only [asWord, part_low, part_high]; rfl)]
  change decodeOp60 _ = _
  unfold decodeOp60
  rw [code_is (n := 11) (by simp (disch := decide) only [asWord, part_low, part_high]; rfl)]
  refine checked_ok (by simp (disch := decide) only [asWord, part_low, part_high, part_all, bit_low, bit_high, bit_one, Nat.reduceSub]) ?_
  change _ &&& BitVec.ofNat (1+7+6+6+5+2+3+2) 0x7F000F80 = _
  simp only [and_parts, Nat.reduceDiv, Nat.reduceMod, Nat.reducePow, BitVec.and_zero]; rfl

theorem Encoding.amoAdd64 (c : Bool) (d : BitVec 6) (a : BitVec 6) (o : BitVec 2) (s : BitVec 3) (p : BitVec 2) : Encoding.Statement (.amoAdd64 c d a o s p) := by
  intro _ word
  unfold decodeWord
  rw [code_is (n := 96) (by simp (disch := decide) only [asWord, part_low, part_high]; rfl)]
  change decodeOp60 _ = _
  unfold decodeOp60
  rw [code_is (n := 12) (by simp (disch := decide) only [asWord, part_low, part_high]; rfl)]
  refine checked_ok (by simp (disch := decide) only [asWord, part_low, part_high, part_all, bit_low, bit_high, bit_one, Nat.reduceSub]) ?_
  change _ &&& BitVec.ofNat (1+7+6+6+5+2+3+2) 0x7F000F80 = _
  simp only [and_parts, Nat.reduceDiv, Nat.reduceMod, Nat.reducePow, BitVec.and_zero]; rfl

theorem Encoding.amoXchg64 (c : Bool) (d : BitVec 6) (a : BitVec 6) (o : BitVec 2) (s : BitVec 3) (p : BitVec 2) : Encoding.Statement (.amoXchg64 c d a o s p) := by
  intro _ word
  unfold decodeWord
  rw [code_is (n := 96) (by simp (disch := decide) only [asWord, part_low, part_high]; rfl)]
  change decodeOp60 _ = _
  unfold decodeOp60
  rw [code_is (n := 13) (by simp (disch := decide) only [asWord, part_low, part_high]; rfl)]
  refine checked_ok (by simp (disch := decide) only [asWord, part_low, part_high, part_all, bit_low, bit_high, bit_one, Nat.reduceSub]) ?_
  change _ &&& BitVec.ofNat (1+7+6+6+5+2+3+2) 0x7F000F80 = _
  simp only [and_parts, Nat.reduceDiv, Nat.reduceMod, Nat.reducePow, BitVec.and_zero]; rfl

theorem Encoding.amoCas64 (c : Bool) (d : BitVec 6) (a : BitVec 6) (o : BitVec 2) (s : BitVec 3) (p : BitVec 2) : Encoding.Statement (.amoCas64 c d a o s p) := by
  intro _ word
  unfold decodeWord
  rw [code_is (n := 96) (by simp (disch := decide) only [asWord, part_low, part_high]; rfl)]
  change decodeOp60 _ = _
  unfold decodeOp60
  rw [code_is (n := 14) (by simp (disch := decide) only [asWord, part_low, part_high]; rfl)]
  refine checked_ok (by simp (disch := decide) only [asWord, part_low, part_high, part_all, bit_low, bit_high, bit_one, Nat.reduceSub]) ?_
  change _ &&& BitVec.ofNat (1+7+6+6+5+2+3+2) 0x7F000F80 = _
  simp only [and_parts, Nat.reduceDiv, Nat.reduceMod, Nat.reducePow, BitVec.and_zero]; rfl

theorem Encoding.samoAdd (c : Bool) (d : BitVec 6) (a : BitVec 6) (o : BitVec 2) (s : BitVec 3) (p : BitVec 2) : Encoding.Statement (.samoAdd c d a o s p) := by
  intro _ word
  unfold decodeWord
  rw [code_is (n := 97) (by simp (disch := decide) only [asWord, part_low, part_high]; rfl)]
  change decodeOp61 _ = _
  unfold decodeOp61
  rw [code_is (n := 0) (by simp (disch := decide) only [asWord, part_low, part_high]; rfl)]
  refine checked_ok (by simp (disch := decide) only [asWord, part_low, part_high, part_all, bit_low, bit_high, bit_one, Nat.reduceSub]) ?_
  change _ &&& BitVec.ofNat (1+7+6+6+5+2+3+2) 0x7F000F80 = _
  simp only [and_parts, Nat.reduceDiv, Nat.reduceMod, Nat.reducePow, BitVec.and_zero]; rfl

theorem Encoding.samoAnd (c : Bool) (d : BitVec 6) (a : BitVec 6) (o : BitVec 2) (s : BitVec 3) (p : BitVec 2) : Encoding.Statement (.samoAnd c d a o s p) := by
  intro _ word
  unfold decodeWord
  rw [code_is (n := 97) (by simp (disch := decide) only [asWord, part_low, part_high]; rfl)]
  change decodeOp61 _ = _
  unfold decodeOp61
  rw [code_is (n := 1) (by simp (disch := decide) only [asWord, part_low, part_high]; rfl)]
  refine checked_ok (by simp (disch := decide) only [asWord, part_low, part_high, part_all, bit_low, bit_high, bit_one, Nat.reduceSub]) ?_
  change _ &&& BitVec.ofNat (1+7+6+6+5+2+3+2) 0x7F000F80 = _
  simp only [and_parts, Nat.reduceDiv, Nat.reduceMod, Nat.reducePow, BitVec.and_zero]; rfl

theorem Encoding.samoOr (c : Bool) (d : BitVec 6) (a : BitVec 6) (o : BitVec 2) (s : BitVec 3) (p : BitVec 2) : Encoding.Statement (.samoOr c d a o s p) := by
  intro _ word
  unfold decodeWord
  rw [code_is (n := 97) (by simp (disch := decide) only [asWord, part_low, part_high]; rfl)]
  change decodeOp61 _ = _
  unfold decodeOp61
  rw [code_is (n := 2) (by simp (disch := decide) only [asWord, part_low, part_high]; rfl)]
  refine checked_ok (by simp (disch := decide) only [asWord, part_low, part_high, part_all, bit_low, bit_high, bit_one, Nat.reduceSub]) ?_
  change _ &&& BitVec.ofNat (1+7+6+6+5+2+3+2) 0x7F000F80 = _
  simp only [and_parts, Nat.reduceDiv, Nat.reduceMod, Nat.reducePow, BitVec.and_zero]; rfl

theorem Encoding.samoXor (c : Bool) (d : BitVec 6) (a : BitVec 6) (o : BitVec 2) (s : BitVec 3) (p : BitVec 2) : Encoding.Statement (.samoXor c d a o s p) := by
  intro _ word
  unfold decodeWord
  rw [code_is (n := 97) (by simp (disch := decide) only [asWord, part_low, part_high]; rfl)]
  change decodeOp61 _ = _
  unfold decodeOp61
  rw [code_is (n := 3) (by simp (disch := decide) only [asWord, part_low, part_high]; rfl)]
  refine checked_ok (by simp (disch := decide) only [asWord, part_low, part_high, part_all, bit_low, bit_high, bit_one, Nat.reduceSub]) ?_
  change _ &&& BitVec.ofNat (1+7+6+6+5+2+3+2) 0x7F000F80 = _
  simp only [and_parts, Nat.reduceDiv, Nat.reduceMod, Nat.reducePow, BitVec.and_zero]; rfl

theorem Encoding.samoMin (c : Bool) (d : BitVec 6) (a : BitVec 6) (o : BitVec 2) (s : BitVec 3) (p : BitVec 2) : Encoding.Statement (.samoMin c d a o s p) := by
  intro _ word
  unfold decodeWord
  rw [code_is (n := 97) (by simp (disch := decide) only [asWord, part_low, part_high]; rfl)]
  change decodeOp61 _ = _
  unfold decodeOp61
  rw [code_is (n := 4) (by simp (disch := decide) only [asWord, part_low, part_high]; rfl)]
  refine checked_ok (by simp (disch := decide) only [asWord, part_low, part_high, part_all, bit_low, bit_high, bit_one, Nat.reduceSub]) ?_
  change _ &&& BitVec.ofNat (1+7+6+6+5+2+3+2) 0x7F000F80 = _
  simp only [and_parts, Nat.reduceDiv, Nat.reduceMod, Nat.reducePow, BitVec.and_zero]; rfl

theorem Encoding.samoMax (c : Bool) (d : BitVec 6) (a : BitVec 6) (o : BitVec 2) (s : BitVec 3) (p : BitVec 2) : Encoding.Statement (.samoMax c d a o s p) := by
  intro _ word
  unfold decodeWord
  rw [code_is (n := 97) (by simp (disch := decide) only [asWord, part_low, part_high]; rfl)]
  change decodeOp61 _ = _
  unfold decodeOp61
  rw [code_is (n := 5) (by simp (disch := decide) only [asWord, part_low, part_high]; rfl)]
  refine checked_ok (by simp (disch := decide) only [asWord, part_low, part_high, part_all, bit_low, bit_high, bit_one, Nat.reduceSub]) ?_
  change _ &&& BitVec.ofNat (1+7+6+6+5+2+3+2) 0x7F000F80 = _
  simp only [and_parts, Nat.reduceDiv, Nat.reduceMod, Nat.reducePow, BitVec.and_zero]; rfl

theorem Encoding.samoUmin (c : Bool) (d : BitVec 6) (a : BitVec 6) (o : BitVec 2) (s : BitVec 3) (p : BitVec 2) : Encoding.Statement (.samoUmin c d a o s p) := by
  intro _ word
  unfold decodeWord
  rw [code_is (n := 97) (by simp (disch := decide) only [asWord, part_low, part_high]; rfl)]
  change decodeOp61 _ = _
  unfold decodeOp61
  rw [code_is (n := 6) (by simp (disch := decide) only [asWord, part_low, part_high]; rfl)]
  refine checked_ok (by simp (disch := decide) only [asWord, part_low, part_high, part_all, bit_low, bit_high, bit_one, Nat.reduceSub]) ?_
  change _ &&& BitVec.ofNat (1+7+6+6+5+2+3+2) 0x7F000F80 = _
  simp only [and_parts, Nat.reduceDiv, Nat.reduceMod, Nat.reducePow, BitVec.and_zero]; rfl

theorem Encoding.samoUmax (c : Bool) (d : BitVec 6) (a : BitVec 6) (o : BitVec 2) (s : BitVec 3) (p : BitVec 2) : Encoding.Statement (.samoUmax c d a o s p) := by
  intro _ word
  unfold decodeWord
  rw [code_is (n := 97) (by simp (disch := decide) only [asWord, part_low, part_high]; rfl)]
  change decodeOp61 _ = _
  unfold decodeOp61
  rw [code_is (n := 7) (by simp (disch := decide) only [asWord, part_low, part_high]; rfl)]
  refine checked_ok (by simp (disch := decide) only [asWord, part_low, part_high, part_all, bit_low, bit_high, bit_one, Nat.reduceSub]) ?_
  change _ &&& BitVec.ofNat (1+7+6+6+5+2+3+2) 0x7F000F80 = _
  simp only [and_parts, Nat.reduceDiv, Nat.reduceMod, Nat.reducePow, BitVec.and_zero]; rfl

theorem Encoding.samoXchg (c : Bool) (d : BitVec 6) (a : BitVec 6) (o : BitVec 2) (s : BitVec 3) (p : BitVec 2) : Encoding.Statement (.samoXchg c d a o s p) := by
  intro _ word
  unfold decodeWord
  rw [code_is (n := 97) (by simp (disch := decide) only [asWord, part_low, part_high]; rfl)]
  change decodeOp61 _ = _
  unfold decodeOp61
  rw [code_is (n := 8) (by simp (disch := decide) only [asWord, part_low, part_high]; rfl)]
  refine checked_ok (by simp (disch := decide) only [asWord, part_low, part_high, part_all, bit_low, bit_high, bit_one, Nat.reduceSub]) ?_
  change _ &&& BitVec.ofNat (1+7+6+6+5+2+3+2) 0x7F000F80 = _
  simp only [and_parts, Nat.reduceDiv, Nat.reduceMod, Nat.reducePow, BitVec.and_zero]; rfl

theorem Encoding.samoCas (c : Bool) (d : BitVec 6) (a : BitVec 6) (o : BitVec 2) (s : BitVec 3) (p : BitVec 2) : Encoding.Statement (.samoCas c d a o s p) := by
  intro _ word
  unfold decodeWord
  rw [code_is (n := 97) (by simp (disch := decide) only [asWord, part_low, part_high]; rfl)]
  change decodeOp61 _ = _
  unfold decodeOp61
  rw [code_is (n := 9) (by simp (disch := decide) only [asWord, part_low, part_high]; rfl)]
  refine checked_ok (by simp (disch := decide) only [asWord, part_low, part_high, part_all, bit_low, bit_high, bit_one, Nat.reduceSub]) ?_
  change _ &&& BitVec.ofNat (1+7+6+6+5+2+3+2) 0x7F000F80 = _
  simp only [and_parts, Nat.reduceDiv, Nat.reduceMod, Nat.reducePow, BitVec.and_zero]; rfl

theorem Encoding.samoFadd (c : Bool) (d : BitVec 6) (a : BitVec 6) (o : BitVec 2) (s : BitVec 3) (p : BitVec 2) : Encoding.Statement (.samoFadd c d a o s p) := by
  intro _ word
  unfold decodeWord
  rw [code_is (n := 97) (by simp (disch := decide) only [asWord, part_low, part_high]; rfl)]
  change decodeOp61 _ = _
  unfold decodeOp61
  rw [code_is (n := 10) (by simp (disch := decide) only [asWord, part_low, part_high]; rfl)]
  refine checked_ok (by simp (disch := decide) only [asWord, part_low, part_high, part_all, bit_low, bit_high, bit_one, Nat.reduceSub]) ?_
  change _ &&& BitVec.ofNat (1+7+6+6+5+2+3+2) 0x7F000F80 = _
  simp only [and_parts, Nat.reduceDiv, Nat.reduceMod, Nat.reducePow, BitVec.and_zero]; rfl

theorem Encoding.samoBadd2 (c : Bool) (d : BitVec 6) (a : BitVec 6) (o : BitVec 2) (s : BitVec 3) (p : BitVec 2) : Encoding.Statement (.samoBadd2 c d a o s p) := by
  intro _ word
  unfold decodeWord
  rw [code_is (n := 97) (by simp (disch := decide) only [asWord, part_low, part_high]; rfl)]
  change decodeOp61 _ = _
  unfold decodeOp61
  rw [code_is (n := 11) (by simp (disch := decide) only [asWord, part_low, part_high]; rfl)]
  refine checked_ok (by simp (disch := decide) only [asWord, part_low, part_high, part_all, bit_low, bit_high, bit_one, Nat.reduceSub]) ?_
  change _ &&& BitVec.ofNat (1+7+6+6+5+2+3+2) 0x7F000F80 = _
  simp only [and_parts, Nat.reduceDiv, Nat.reduceMod, Nat.reducePow, BitVec.and_zero]; rfl

theorem Encoding.samoAdd64 (c : Bool) (d : BitVec 6) (a : BitVec 6) (o : BitVec 2) (s : BitVec 3) (p : BitVec 2) : Encoding.Statement (.samoAdd64 c d a o s p) := by
  intro _ word
  unfold decodeWord
  rw [code_is (n := 97) (by simp (disch := decide) only [asWord, part_low, part_high]; rfl)]
  change decodeOp61 _ = _
  unfold decodeOp61
  rw [code_is (n := 12) (by simp (disch := decide) only [asWord, part_low, part_high]; rfl)]
  refine checked_ok (by simp (disch := decide) only [asWord, part_low, part_high, part_all, bit_low, bit_high, bit_one, Nat.reduceSub]) ?_
  change _ &&& BitVec.ofNat (1+7+6+6+5+2+3+2) 0x7F000F80 = _
  simp only [and_parts, Nat.reduceDiv, Nat.reduceMod, Nat.reducePow, BitVec.and_zero]; rfl

theorem Encoding.samoXchg64 (c : Bool) (d : BitVec 6) (a : BitVec 6) (o : BitVec 2) (s : BitVec 3) (p : BitVec 2) : Encoding.Statement (.samoXchg64 c d a o s p) := by
  intro _ word
  unfold decodeWord
  rw [code_is (n := 97) (by simp (disch := decide) only [asWord, part_low, part_high]; rfl)]
  change decodeOp61 _ = _
  unfold decodeOp61
  rw [code_is (n := 13) (by simp (disch := decide) only [asWord, part_low, part_high]; rfl)]
  refine checked_ok (by simp (disch := decide) only [asWord, part_low, part_high, part_all, bit_low, bit_high, bit_one, Nat.reduceSub]) ?_
  change _ &&& BitVec.ofNat (1+7+6+6+5+2+3+2) 0x7F000F80 = _
  simp only [and_parts, Nat.reduceDiv, Nat.reduceMod, Nat.reducePow, BitVec.and_zero]; rfl

theorem Encoding.samoCas64 (c : Bool) (d : BitVec 6) (a : BitVec 6) (o : BitVec 2) (s : BitVec 3) (p : BitVec 2) : Encoding.Statement (.samoCas64 c d a o s p) := by
  intro _ word
  unfold decodeWord
  rw [code_is (n := 97) (by simp (disch := decide) only [asWord, part_low, part_high]; rfl)]
  change decodeOp61 _ = _
  unfold decodeOp61
  rw [code_is (n := 14) (by simp (disch := decide) only [asWord, part_low, part_high]; rfl)]
  refine checked_ok (by simp (disch := decide) only [asWord, part_low, part_high, part_all, bit_low, bit_high, bit_one, Nat.reduceSub]) ?_
  change _ &&& BitVec.ofNat (1+7+6+6+5+2+3+2) 0x7F000F80 = _
  simp only [and_parts, Nat.reduceDiv, Nat.reduceMod, Nat.reducePow, BitVec.and_zero]; rfl

theorem Encoding.ldlk (c : Bool) (d : BitVec 6) (a : BitVec 6) (o : BitVec 2) (s : BitVec 3) (p : BitVec 2) : Encoding.Statement (.ldlk c d a o s p) := by
  intro _ word
  unfold decodeWord
  rw [code_is (n := 98) (by simp (disch := decide) only [asWord, part_low, part_high]; rfl)]
  refine checked_ok (by simp (disch := decide) only [asWord, part_low, part_high, part_all, bit_low, bit_high, bit_one, Nat.reduceSub]) ?_
  change _ &&& BitVec.ofNat (1+7+6+6+5+2+3+2) 0x7F000F80 = _
  simp only [and_parts, Nat.reduceDiv, Nat.reduceMod, Nat.reducePow, BitVec.and_zero]; rfl

theorem Encoding.stul (c : Bool) (d : BitVec 6) (a : BitVec 6) (o : BitVec 2) (s : BitVec 3) (p : BitVec 2) : Encoding.Statement (.stul c d a o s p) := by
  intro _ word
  unfold decodeWord
  rw [code_is (n := 99) (by simp (disch := decide) only [asWord, part_low, part_high]; rfl)]
  refine checked_ok (by simp (disch := decide) only [asWord, part_low, part_high, part_all, bit_low, bit_high, bit_one, Nat.reduceSub]) ?_
  change _ &&& BitVec.ofNat (1+7+6+6+5+2+3+2) 0x7F000F80 = _
  simp only [and_parts, Nat.reduceDiv, Nat.reduceMod, Nat.reducePow, BitVec.and_zero]; rfl

theorem Encoding.bra (p : BitVec 3) (i : BitVec 21) : Encoding.Statement (.bra p i) := by
  intro _ word
  unfold decodeWord
  rw [code_is (n := 100) (by simp (disch := decide) only [asWord, part_low, part_high]; rfl)]
  refine checked_ok (by simp (disch := decide) only [asWord, part_low, part_high, part_all, bit_low, bit_high, bit_one, Nat.reduceSub]) ?_
  change _ &&& BitVec.ofNat (8+3+21) 0xFF000000 = _
  simp only [and_parts, Nat.reduceDiv, Nat.reduceMod, Nat.reducePow, BitVec.and_zero]; rfl

theorem Encoding.call (p : BitVec 3) (i : BitVec 21) : Encoding.Statement (.call p i) := by
  intro _ word
  unfold decodeWord
  rw [code_is (n := 101) (by simp (disch := decide) only [asWord, part_low, part_high]; rfl)]
  refine checked_ok (by simp (disch := decide) only [asWord, part_low, part_high, part_all, bit_low, bit_high, bit_one, Nat.reduceSub]) ?_
  change _ &&& BitVec.ofNat (8+3+21) 0xFF000000 = _
  simp only [and_parts, Nat.reduceDiv, Nat.reduceMod, Nat.reducePow, BitVec.and_zero]; rfl

theorem Encoding.ret (p : BitVec 3) : Encoding.Statement (.ret p) := by
  intro _ word
  unfold decodeWord
  rw [code_is (n := 102) (by simp (disch := decide) only [asWord, part_low, part_high]; rfl)]
  refine checked_ok (by simp (disch := decide) only [asWord, part_low, part_high, part_all, bit_low, bit_high, bit_one, Nat.reduceSub]) ?_
  change _ &&& BitVec.ofNat (8+3+21) 0xFF1FFFFF = _
  simp only [and_parts, Nat.reduceDiv, Nat.reduceMod, Nat.reducePow, BitVec.and_zero]; rfl

theorem Encoding.jmpr (p : BitVec 3) (r : BitVec 6) : Encoding.Statement (.jmpr p r) := by
  intro _ word
  unfold decodeWord
  rw [code_is (n := 103) (by simp (disch := decide) only [asWord, part_low, part_high]; rfl)]
  refine checked_ok (by simp (disch := decide) only [asWord, part_low, part_high, part_all, bit_low, bit_high, bit_one, Nat.reduceSub]) ?_
  change _ &&& BitVec.ofNat (8+3+6+15) 0xFF007FFF = _
  simp only [and_parts, Nat.reduceDiv, Nat.reduceMod, Nat.reducePow, BitVec.and_zero]; rfl

theorem Encoding.enrol (c : Bool) (j : BitVec 3) (p : BitVec 3) : Encoding.Statement (.enrol c j p) := by
  intro _ word
  unfold decodeWord
  rw [code_is (n := 104) (by simp (disch := decide) only [asWord, part_low, part_high]; rfl)]
  refine checked_ok (by simp (disch := decide) only [asWord, part_low, part_high, part_all, bit_low, bit_high, bit_one, Nat.reduceSub]) ?_
  change _ &&& BitVec.ofNat (1+7+3+3+18) 0x7F03FFFF = _
  simp only [and_parts, Nat.reduceDiv, Nat.reduceMod, Nat.reducePow, BitVec.and_zero]; rfl

theorem Encoding.rejoin (c : Bool) (j : BitVec 3) (p : BitVec 3) : Encoding.Statement (.rejoin c j p) := by
  intro _ word
  unfold decodeWord
  rw [code_is (n := 105) (by simp (disch := decide) only [asWord, part_low, part_high]; rfl)]
  refine checked_ok (by simp (disch := decide) only [asWord, part_low, part_high, part_all, bit_low, bit_high, bit_one, Nat.reduceSub]) ?_
  change _ &&& BitVec.ofNat (1+7+3+3+18) 0x7F03FFFF = _
  simp only [and_parts, Nat.reduceDiv, Nat.reduceMod, Nat.reducePow, BitVec.and_zero]; rfl

theorem Encoding.strike (c : Bool) (j : BitVec 3) (p : BitVec 3) : Encoding.Statement (.strike c j p) := by
  intro _ word
  unfold decodeWord
  rw [code_is (n := 106) (by simp (disch := decide) only [asWord, part_low, part_high]; rfl)]
  refine checked_ok (by simp (disch := decide) only [asWord, part_low, part_high, part_all, bit_low, bit_high, bit_one, Nat.reduceSub]) ?_
  change _ &&& BitVec.ofNat (1+7+3+3+18) 0x7F03FFFF = _
  simp only [and_parts, Nat.reduceDiv, Nat.reduceMod, Nat.reducePow, BitVec.and_zero]; rfl

theorem Encoding.yield (c : Bool) (p : BitVec 3) : Encoding.Statement (.yield c p) := by
  intro _ word
  unfold decodeWord
  rw [code_is (n := 107) (by simp (disch := decide) only [asWord, part_low, part_high]; rfl)]
  refine checked_ok (by simp (disch := decide) only [asWord, part_low, part_high, part_all, bit_low, bit_high, bit_one, Nat.reduceSub]) ?_
  change _ &&& BitVec.ofNat (1+10+3+18) 0x7FE3FFFF = _
  simp only [and_parts, Nat.reduceDiv, Nat.reduceMod, Nat.reducePow, BitVec.and_zero]; rfl

theorem Encoding.shflIdx (c : Bool) (d : BitVec 6) (s : BitVec 6) (m : BitVec 6) : Encoding.Statement (.shflIdx c d s m) := by
  intro _ word
  unfold decodeWord
  rw [code_is (n := 108) (by simp (disch := decide) only [asWord, part_low, part_high]; rfl)]
  change decodeOp6C _ = _
  unfold decodeOp6C
  rw [code_is (n := 0) (by simp (disch := decide) only [asWord, part_low, part_high]; rfl)]
  refine checked_ok (by simp (disch := decide) only [asWord, part_low, part_high, part_all, bit_low, bit_high, bit_one, Nat.reduceSub]) ?_
  change _ &&& BitVec.ofNat (1+7+6+6+6+6) 0x7F00003F = _
  simp only [and_parts, Nat.reduceDiv, Nat.reduceMod, Nat.reducePow, BitVec.and_zero]; rfl

theorem Encoding.shflUp (c : Bool) (d : BitVec 6) (s : BitVec 6) (m : BitVec 6) : Encoding.Statement (.shflUp c d s m) := by
  intro _ word
  unfold decodeWord
  rw [code_is (n := 108) (by simp (disch := decide) only [asWord, part_low, part_high]; rfl)]
  change decodeOp6C _ = _
  unfold decodeOp6C
  rw [code_is (n := 1) (by simp (disch := decide) only [asWord, part_low, part_high]; rfl)]
  refine checked_ok (by simp (disch := decide) only [asWord, part_low, part_high, part_all, bit_low, bit_high, bit_one, Nat.reduceSub]) ?_
  change _ &&& BitVec.ofNat (1+7+6+6+6+6) 0x7F00003F = _
  simp only [and_parts, Nat.reduceDiv, Nat.reduceMod, Nat.reducePow, BitVec.and_zero]; rfl

theorem Encoding.shflDn (c : Bool) (d : BitVec 6) (s : BitVec 6) (m : BitVec 6) : Encoding.Statement (.shflDn c d s m) := by
  intro _ word
  unfold decodeWord
  rw [code_is (n := 108) (by simp (disch := decide) only [asWord, part_low, part_high]; rfl)]
  change decodeOp6C _ = _
  unfold decodeOp6C
  rw [code_is (n := 2) (by simp (disch := decide) only [asWord, part_low, part_high]; rfl)]
  refine checked_ok (by simp (disch := decide) only [asWord, part_low, part_high, part_all, bit_low, bit_high, bit_one, Nat.reduceSub]) ?_
  change _ &&& BitVec.ofNat (1+7+6+6+6+6) 0x7F00003F = _
  simp only [and_parts, Nat.reduceDiv, Nat.reduceMod, Nat.reducePow, BitVec.and_zero]; rfl

theorem Encoding.shflXor (c : Bool) (d : BitVec 6) (s : BitVec 6) (m : BitVec 6) : Encoding.Statement (.shflXor c d s m) := by
  intro _ word
  unfold decodeWord
  rw [code_is (n := 108) (by simp (disch := decide) only [asWord, part_low, part_high]; rfl)]
  change decodeOp6C _ = _
  unfold decodeOp6C
  rw [code_is (n := 3) (by simp (disch := decide) only [asWord, part_low, part_high]; rfl)]
  refine checked_ok (by simp (disch := decide) only [asWord, part_low, part_high, part_all, bit_low, bit_high, bit_one, Nat.reduceSub]) ?_
  change _ &&& BitVec.ofNat (1+7+6+6+6+6) 0x7F00003F = _
  simp only [and_parts, Nat.reduceDiv, Nat.reduceMod, Nat.reducePow, BitVec.and_zero]; rfl

theorem Encoding.voteAll (c : Bool) (d : BitVec 6) (s : BitVec 6) (m : BitVec 6) : Encoding.Statement (.voteAll c d s m) := by
  intro _ word
  unfold decodeWord
  rw [code_is (n := 109) (by simp (disch := decide) only [asWord, part_low, part_high]; rfl)]
  change decodeOp6D _ = _
  unfold decodeOp6D
  rw [code_is (n := 0) (by simp (disch := decide) only [asWord, part_low, part_high]; rfl)]
  refine checked_ok (by simp (disch := decide) only [asWord, part_low, part_high, part_all, bit_low, bit_high, bit_one, Nat.reduceSub]) ?_
  change _ &&& BitVec.ofNat (1+7+6+6+6+6) 0x7F00003F = _
  simp only [and_parts, Nat.reduceDiv, Nat.reduceMod, Nat.reducePow, BitVec.and_zero]; rfl

theorem Encoding.voteAny (c : Bool) (d : BitVec 6) (s : BitVec 6) (m : BitVec 6) : Encoding.Statement (.voteAny c d s m) := by
  intro _ word
  unfold decodeWord
  rw [code_is (n := 109) (by simp (disch := decide) only [asWord, part_low, part_high]; rfl)]
  change decodeOp6D _ = _
  unfold decodeOp6D
  rw [code_is (n := 1) (by simp (disch := decide) only [asWord, part_low, part_high]; rfl)]
  refine checked_ok (by simp (disch := decide) only [asWord, part_low, part_high, part_all, bit_low, bit_high, bit_one, Nat.reduceSub]) ?_
  change _ &&& BitVec.ofNat (1+7+6+6+6+6) 0x7F00003F = _
  simp only [and_parts, Nat.reduceDiv, Nat.reduceMod, Nat.reducePow, BitVec.and_zero]; rfl

theorem Encoding.voteBallot (c : Bool) (d : BitVec 6) (s : BitVec 6) (m : BitVec 6) : Encoding.Statement (.voteBallot c d s m) := by
  intro _ word
  unfold decodeWord
  rw [code_is (n := 109) (by simp (disch := decide) only [asWord, part_low, part_high]; rfl)]
  change decodeOp6D _ = _
  unfold decodeOp6D
  rw [code_is (n := 2) (by simp (disch := decide) only [asWord, part_low, part_high]; rfl)]
  refine checked_ok (by simp (disch := decide) only [asWord, part_low, part_high, part_all, bit_low, bit_high, bit_one, Nat.reduceSub]) ?_
  change _ &&& BitVec.ofNat (1+7+6+6+6+6) 0x7F00003F = _
  simp only [and_parts, Nat.reduceDiv, Nat.reduceMod, Nat.reducePow, BitVec.and_zero]; rfl

theorem Encoding.voteEq (c : Bool) (d : BitVec 6) (s : BitVec 6) (m : BitVec 6) : Encoding.Statement (.voteEq c d s m) := by
  intro _ word
  unfold decodeWord
  rw [code_is (n := 109) (by simp (disch := decide) only [asWord, part_low, part_high]; rfl)]
  change decodeOp6D _ = _
  unfold decodeOp6D
  rw [code_is (n := 3) (by simp (disch := decide) only [asWord, part_low, part_high]; rfl)]
  refine checked_ok (by simp (disch := decide) only [asWord, part_low, part_high, part_all, bit_low, bit_high, bit_one, Nat.reduceSub]) ?_
  change _ &&& BitVec.ofNat (1+7+6+6+6+6) 0x7F00003F = _
  simp only [and_parts, Nat.reduceDiv, Nat.reduceMod, Nat.reducePow, BitVec.and_zero]; rfl

theorem Encoding.reduxAdd (c : Bool) (d : BitVec 6) (s : BitVec 6) (m : BitVec 6) : Encoding.Statement (.reduxAdd c d s m) := by
  intro _ word
  unfold decodeWord
  rw [code_is (n := 110) (by simp (disch := decide) only [asWord, part_low, part_high]; rfl)]
  change decodeOp6E _ = _
  unfold decodeOp6E
  rw [code_is (n := 0) (by simp (disch := decide) only [asWord, part_low, part_high]; rfl)]
  refine checked_ok (by simp (disch := decide) only [asWord, part_low, part_high, part_all, bit_low, bit_high, bit_one, Nat.reduceSub]) ?_
  change _ &&& BitVec.ofNat (1+7+6+6+6+6) 0x7F00003F = _
  simp only [and_parts, Nat.reduceDiv, Nat.reduceMod, Nat.reducePow, BitVec.and_zero]; rfl

theorem Encoding.reduxMin (c : Bool) (d : BitVec 6) (s : BitVec 6) (m : BitVec 6) : Encoding.Statement (.reduxMin c d s m) := by
  intro _ word
  unfold decodeWord
  rw [code_is (n := 110) (by simp (disch := decide) only [asWord, part_low, part_high]; rfl)]
  change decodeOp6E _ = _
  unfold decodeOp6E
  rw [code_is (n := 1) (by simp (disch := decide) only [asWord, part_low, part_high]; rfl)]
  refine checked_ok (by simp (disch := decide) only [asWord, part_low, part_high, part_all, bit_low, bit_high, bit_one, Nat.reduceSub]) ?_
  change _ &&& BitVec.ofNat (1+7+6+6+6+6) 0x7F00003F = _
  simp only [and_parts, Nat.reduceDiv, Nat.reduceMod, Nat.reducePow, BitVec.and_zero]; rfl

theorem Encoding.reduxMax (c : Bool) (d : BitVec 6) (s : BitVec 6) (m : BitVec 6) : Encoding.Statement (.reduxMax c d s m) := by
  intro _ word
  unfold decodeWord
  rw [code_is (n := 110) (by simp (disch := decide) only [asWord, part_low, part_high]; rfl)]
  change decodeOp6E _ = _
  unfold decodeOp6E
  rw [code_is (n := 2) (by simp (disch := decide) only [asWord, part_low, part_high]; rfl)]
  refine checked_ok (by simp (disch := decide) only [asWord, part_low, part_high, part_all, bit_low, bit_high, bit_one, Nat.reduceSub]) ?_
  change _ &&& BitVec.ofNat (1+7+6+6+6+6) 0x7F00003F = _
  simp only [and_parts, Nat.reduceDiv, Nat.reduceMod, Nat.reducePow, BitVec.and_zero]; rfl

theorem Encoding.reduxUmin (c : Bool) (d : BitVec 6) (s : BitVec 6) (m : BitVec 6) : Encoding.Statement (.reduxUmin c d s m) := by
  intro _ word
  unfold decodeWord
  rw [code_is (n := 110) (by simp (disch := decide) only [asWord, part_low, part_high]; rfl)]
  change decodeOp6E _ = _
  unfold decodeOp6E
  rw [code_is (n := 3) (by simp (disch := decide) only [asWord, part_low, part_high]; rfl)]
  refine checked_ok (by simp (disch := decide) only [asWord, part_low, part_high, part_all, bit_low, bit_high, bit_one, Nat.reduceSub]) ?_
  change _ &&& BitVec.ofNat (1+7+6+6+6+6) 0x7F00003F = _
  simp only [and_parts, Nat.reduceDiv, Nat.reduceMod, Nat.reducePow, BitVec.and_zero]; rfl

theorem Encoding.reduxUmax (c : Bool) (d : BitVec 6) (s : BitVec 6) (m : BitVec 6) : Encoding.Statement (.reduxUmax c d s m) := by
  intro _ word
  unfold decodeWord
  rw [code_is (n := 110) (by simp (disch := decide) only [asWord, part_low, part_high]; rfl)]
  change decodeOp6E _ = _
  unfold decodeOp6E
  rw [code_is (n := 4) (by simp (disch := decide) only [asWord, part_low, part_high]; rfl)]
  refine checked_ok (by simp (disch := decide) only [asWord, part_low, part_high, part_all, bit_low, bit_high, bit_one, Nat.reduceSub]) ?_
  change _ &&& BitVec.ofNat (1+7+6+6+6+6) 0x7F00003F = _
  simp only [and_parts, Nat.reduceDiv, Nat.reduceMod, Nat.reducePow, BitVec.and_zero]; rfl

theorem Encoding.reduxAnd (c : Bool) (d : BitVec 6) (s : BitVec 6) (m : BitVec 6) : Encoding.Statement (.reduxAnd c d s m) := by
  intro _ word
  unfold decodeWord
  rw [code_is (n := 110) (by simp (disch := decide) only [asWord, part_low, part_high]; rfl)]
  change decodeOp6E _ = _
  unfold decodeOp6E
  rw [code_is (n := 5) (by simp (disch := decide) only [asWord, part_low, part_high]; rfl)]
  refine checked_ok (by simp (disch := decide) only [asWord, part_low, part_high, part_all, bit_low, bit_high, bit_one, Nat.reduceSub]) ?_
  change _ &&& BitVec.ofNat (1+7+6+6+6+6) 0x7F00003F = _
  simp only [and_parts, Nat.reduceDiv, Nat.reduceMod, Nat.reducePow, BitVec.and_zero]; rfl

theorem Encoding.reduxOr (c : Bool) (d : BitVec 6) (s : BitVec 6) (m : BitVec 6) : Encoding.Statement (.reduxOr c d s m) := by
  intro _ word
  unfold decodeWord
  rw [code_is (n := 110) (by simp (disch := decide) only [asWord, part_low, part_high]; rfl)]
  change decodeOp6E _ = _
  unfold decodeOp6E
  rw [code_is (n := 6) (by simp (disch := decide) only [asWord, part_low, part_high]; rfl)]
  refine checked_ok (by simp (disch := decide) only [asWord, part_low, part_high, part_all, bit_low, bit_high, bit_one, Nat.reduceSub]) ?_
  change _ &&& BitVec.ofNat (1+7+6+6+6+6) 0x7F00003F = _
  simp only [and_parts, Nat.reduceDiv, Nat.reduceMod, Nat.reducePow, BitVec.and_zero]; rfl

theorem Encoding.reduxXor (c : Bool) (d : BitVec 6) (s : BitVec 6) (m : BitVec 6) : Encoding.Statement (.reduxXor c d s m) := by
  intro _ word
  unfold decodeWord
  rw [code_is (n := 110) (by simp (disch := decide) only [asWord, part_low, part_high]; rfl)]
  change decodeOp6E _ = _
  unfold decodeOp6E
  rw [code_is (n := 7) (by simp (disch := decide) only [asWord, part_low, part_high]; rfl)]
  refine checked_ok (by simp (disch := decide) only [asWord, part_low, part_high, part_all, bit_low, bit_high, bit_one, Nat.reduceSub]) ?_
  change _ &&& BitVec.ofNat (1+7+6+6+6+6) 0x7F00003F = _
  simp only [and_parts, Nat.reduceDiv, Nat.reduceMod, Nat.reducePow, BitVec.and_zero]; rfl

theorem Encoding.match (c : Bool) (d : BitVec 6) (s : BitVec 6) (m : BitVec 6) : Encoding.Statement (.match c d s m) := by
  intro _ word
  unfold decodeWord
  rw [code_is (n := 111) (by simp (disch := decide) only [asWord, part_low, part_high]; rfl)]
  change decodeOp6F _ = _
  unfold decodeOp6F
  rw [code_is (n := 0) (by simp (disch := decide) only [asWord, part_low, part_high]; rfl)]
  refine checked_ok (by simp (disch := decide) only [asWord, part_low, part_high, part_all, bit_low, bit_high, bit_one, Nat.reduceSub]) ?_
  change _ &&& BitVec.ofNat (1+7+6+6+6+6) 0x7F00003F = _
  simp only [and_parts, Nat.reduceDiv, Nat.reduceMod, Nat.reducePow, BitVec.and_zero]; rfl

theorem Encoding.mmaFwd (c : Bool) (a : BitVec 2) (k : Bool) (o : BitVec 6) (x : Bool) (f : BitVec 3) (g : BitVec 5) (m : BitVec 2) : Encoding.Statement (.mmaFwd c a k o x f g m) := by
  intro wf word
  unfold decodeWord
  rw [code_is (n := 112) (by simp (disch := decide) only [asWord, part_low, part_high]; rfl)]
  change decodeOp70 _ = _
  unfold decodeOp70
  rw [code_is (n := 0) (by simp (disch := decide) only [asWord, part_low, part_high]; rfl)]
  change mmaChecked _ (checked _ _ _ _) = _
  have h := mma_fmt wf
  simp [mmaFmtOk] at h
  rw [mma_ok f 0 (by simp (disch := decide) only [asWord, part_low, part_high, part_all, bit_low, bit_high, bit_one, Nat.reduceSub]) (by simp (disch := decide) only [asWord, part_low, part_high]; rfl) h (fun a => absurd a (by decide)) (fun a => absurd a (by decide))]
  refine checked_ok (by simp (disch := decide) only [asWord, part_low, part_high, part_all, bit_low, bit_high, bit_one, Nat.reduceSub]) ?_
  change _ &&& BitVec.ofNat (1+7+2+1+3+6+1+3+5+2+1) 0x7F1C0001 = _
  simp only [and_parts, Nat.reduceDiv, Nat.reduceMod, Nat.reducePow, BitVec.and_zero]; rfl

theorem Encoding.mmaFwd2 (c : Bool) (a : BitVec 2) (k : Bool) (o : BitVec 6) (x : Bool) (f : BitVec 3) (g : BitVec 5) (m : BitVec 2) : Encoding.Statement (.mmaFwd2 c a k o x f g m) := by
  intro wf word
  unfold decodeWord
  rw [code_is (n := 112) (by simp (disch := decide) only [asWord, part_low, part_high]; rfl)]
  change decodeOp70 _ = _
  unfold decodeOp70
  rw [code_is (n := 1) (by simp (disch := decide) only [asWord, part_low, part_high]; rfl)]
  change mmaChecked _ (checked _ _ _ _) = _
  have h := mma_fmt wf
  simp [mmaFmtOk] at h
  rw [mma_ok f 1 (by simp (disch := decide) only [asWord, part_low, part_high, part_all, bit_low, bit_high, bit_one, Nat.reduceSub]) (by simp (disch := decide) only [asWord, part_low, part_high]; rfl) h (fun a => absurd a (by decide)) (fun a => absurd a (by decide))]
  refine checked_ok (by simp (disch := decide) only [asWord, part_low, part_high, part_all, bit_low, bit_high, bit_one, Nat.reduceSub]) ?_
  change _ &&& BitVec.ofNat (1+7+2+1+3+6+1+3+5+2+1) 0x7F1C0001 = _
  simp only [and_parts, Nat.reduceDiv, Nat.reduceMod, Nat.reducePow, BitVec.and_zero]; rfl

theorem Encoding.mmaFwdk (c : Bool) (a : BitVec 2) (k : Bool) (o : BitVec 6) (x : Bool) (f : BitVec 3) (g : BitVec 5) (m : BitVec 2) : Encoding.Statement (.mmaFwdk c a k o x f g m) := by
  intro wf word
  unfold decodeWord
  rw [code_is (n := 112) (by simp (disch := decide) only [asWord, part_low, part_high]; rfl)]
  change decodeOp70 _ = _
  unfold decodeOp70
  rw [code_is (n := 2) (by simp (disch := decide) only [asWord, part_low, part_high]; rfl)]
  change mmaChecked _ (checked _ _ _ _) = _
  have h := mma_fmt wf
  simp [mmaFmtOk] at h
  rw [mma_ok f 2 (by simp (disch := decide) only [asWord, part_low, part_high, part_all, bit_low, bit_high, bit_one, Nat.reduceSub]) (by simp (disch := decide) only [asWord, part_low, part_high]; rfl) h (fun a => absurd a (by decide)) (fun a => absurd a (by decide))]
  refine checked_ok (by simp (disch := decide) only [asWord, part_low, part_high, part_all, bit_low, bit_high, bit_one, Nat.reduceSub]) ?_
  change _ &&& BitVec.ofNat (1+7+2+1+3+6+1+3+5+2+1) 0x7F1C0001 = _
  simp only [and_parts, Nat.reduceDiv, Nat.reduceMod, Nat.reducePow, BitVec.and_zero]; rfl

theorem Encoding.mmaBwd (c : Bool) (a : BitVec 2) (k : Bool) (o : BitVec 6) (x : Bool) (f : BitVec 3) (g : BitVec 5) (m : BitVec 2) : Encoding.Statement (.mmaBwd c a k o x f g m) := by
  intro wf word
  unfold decodeWord
  rw [code_is (n := 112) (by simp (disch := decide) only [asWord, part_low, part_high]; rfl)]
  change decodeOp70 _ = _
  unfold decodeOp70
  rw [code_is (n := 3) (by simp (disch := decide) only [asWord, part_low, part_high]; rfl)]
  change mmaChecked _ (checked _ _ _ _) = _
  have h := mma_fmt wf
  simp [mmaFmtOk] at h
  rw [mma_ok f 3 (by simp (disch := decide) only [asWord, part_low, part_high, part_all, bit_low, bit_high, bit_one, Nat.reduceSub]) (by simp (disch := decide) only [asWord, part_low, part_high]; rfl) (by rcases h with rfl | rfl <;> decide) (fun _ => h) (fun a => absurd a (by decide))]
  refine checked_ok (by simp (disch := decide) only [asWord, part_low, part_high, part_all, bit_low, bit_high, bit_one, Nat.reduceSub]) ?_
  change _ &&& BitVec.ofNat (1+7+2+1+3+6+1+3+5+2+1) 0x7F1C0001 = _
  simp only [and_parts, Nat.reduceDiv, Nat.reduceMod, Nat.reducePow, BitVec.and_zero]; rfl

theorem Encoding.mmaGrad (c : Bool) (a : BitVec 2) (o : BitVec 6) (f : BitVec 3) (g : BitVec 5) (m : BitVec 2) : Encoding.Statement (.mmaGrad c a o f g m) := by
  intro wf word
  unfold decodeWord
  rw [code_is (n := 112) (by simp (disch := decide) only [asWord, part_low, part_high]; rfl)]
  change decodeOp70 _ = _
  unfold decodeOp70
  rw [code_is (n := 4) (by simp (disch := decide) only [asWord, part_low, part_high]; rfl)]
  change mmaChecked _ (checked _ _ _ _) = _
  have h := mma_fmt wf
  simp [mmaFmtOk] at h
  rw [mma_ok f 4 (by simp (disch := decide) only [asWord, part_low, part_high, part_all, bit_low, bit_high, bit_one, Nat.reduceSub]) (by simp (disch := decide) only [asWord, part_low, part_high]; rfl) (by rcases h with rfl | rfl <;> decide) (fun _ => h) (fun _ => by simp (disch := decide) only [asWord, bit_low, bit_high, Nat.reduceSub]; rfl)]
  refine checked_ok (by simp (disch := decide) only [asWord, part_low, part_high, part_all, bit_low, bit_high, bit_one, Nat.reduceSub]) ?_
  change _ &&& BitVec.ofNat (1+7+2+4+6+1+3+5+2+1) 0x7F3C0801 = _
  simp only [and_parts, Nat.reduceDiv, Nat.reduceMod, Nat.reducePow, BitVec.and_zero]; rfl

theorem Encoding.bankLd (c : Bool) (b : BitVec 2) (s : BitVec 6) (i : BitVec 8) (g : BitVec 5) : Encoding.Statement (.bankLd c b s i g) := by
  intro _ word
  unfold decodeWord
  rw [code_is (n := 113) (by simp (disch := decide) only [asWord, part_low, part_high]; rfl)]
  change decodeOp71 _ = _
  unfold decodeOp71
  rw [code_is (n := 0) (by simp (disch := decide) only [asWord, part_low, part_high]; rfl)]
  refine checked_ok (by simp (disch := decide) only [asWord, part_low, part_high, part_all, bit_low, bit_high, bit_one, Nat.reduceSub]) ?_
  change _ &&& BitVec.ofNat (1+10+2+6+8+5) 0x7FE00000 = _
  simp only [and_parts, Nat.reduceDiv, Nat.reduceMod, Nat.reducePow, BitVec.and_zero]; rfl

theorem Encoding.bankLdq (c : Bool) (b : BitVec 2) (s : BitVec 6) (i : BitVec 8) (g : BitVec 5) : Encoding.Statement (.bankLdq c b s i g) := by
  intro _ word
  unfold decodeWord
  rw [code_is (n := 113) (by simp (disch := decide) only [asWord, part_low, part_high]; rfl)]
  change decodeOp71 _ = _
  unfold decodeOp71
  rw [code_is (n := 1) (by simp (disch := decide) only [asWord, part_low, part_high]; rfl)]
  refine checked_ok (by simp (disch := decide) only [asWord, part_low, part_high, part_all, bit_low, bit_high, bit_one, Nat.reduceSub]) ?_
  change _ &&& BitVec.ofNat (1+10+2+6+8+5) 0x7FE00000 = _
  simp only [and_parts, Nat.reduceDiv, Nat.reduceMod, Nat.reducePow, BitVec.and_zero]; rfl

theorem Encoding.bankEvict (c : Bool) (b : BitVec 2) (i : BitVec 8) (g : BitVec 5) : Encoding.Statement (.bankEvict c b i g) := by
  intro _ word
  unfold decodeWord
  rw [code_is (n := 113) (by simp (disch := decide) only [asWord, part_low, part_high]; rfl)]
  change decodeOp71 _ = _
  unfold decodeOp71
  rw [code_is (n := 2) (by simp (disch := decide) only [asWord, part_low, part_high]; rfl)]
  refine checked_ok (by simp (disch := decide) only [asWord, part_low, part_high, part_all, bit_low, bit_high, bit_one, Nat.reduceSub]) ?_
  change _ &&& BitVec.ofNat (1+10+2+6+8+5) 0x7FE7E000 = _
  simp only [and_parts, Nat.reduceDiv, Nat.reduceMod, Nat.reducePow, BitVec.and_zero]; rfl

theorem Encoding.bankGzero (c : Bool) (b : BitVec 2) (i : BitVec 8) (g : BitVec 5) : Encoding.Statement (.bankGzero c b i g) := by
  intro _ word
  unfold decodeWord
  rw [code_is (n := 113) (by simp (disch := decide) only [asWord, part_low, part_high]; rfl)]
  change decodeOp71 _ = _
  unfold decodeOp71
  rw [code_is (n := 3) (by simp (disch := decide) only [asWord, part_low, part_high]; rfl)]
  refine checked_ok (by simp (disch := decide) only [asWord, part_low, part_high, part_all, bit_low, bit_high, bit_one, Nat.reduceSub]) ?_
  change _ &&& BitVec.ofNat (1+10+2+6+8+5) 0x7FE7E000 = _
  simp only [and_parts, Nat.reduceDiv, Nat.reduceMod, Nat.reducePow, BitVec.and_zero]; rfl

theorem Encoding.bankGdrain (c : Bool) (b : BitVec 2) (s : BitVec 6) (i : BitVec 8) (g : BitVec 5) : Encoding.Statement (.bankGdrain c b s i g) := by
  intro _ word
  unfold decodeWord
  rw [code_is (n := 113) (by simp (disch := decide) only [asWord, part_low, part_high]; rfl)]
  change decodeOp71 _ = _
  unfold decodeOp71
  rw [code_is (n := 4) (by simp (disch := decide) only [asWord, part_low, part_high]; rfl)]
  refine checked_ok (by simp (disch := decide) only [asWord, part_low, part_high, part_all, bit_low, bit_high, bit_one, Nat.reduceSub]) ?_
  change _ &&& BitVec.ofNat (1+10+2+6+8+5) 0x7FE00000 = _
  simp only [and_parts, Nat.reduceDiv, Nat.reduceMod, Nat.reducePow, BitVec.and_zero]; rfl

theorem Encoding.bankQuery (c : Bool) (b : BitVec 2) (s : BitVec 6) (i : BitVec 8) (g : BitVec 5) : Encoding.Statement (.bankQuery c b s i g) := by
  intro _ word
  unfold decodeWord
  rw [code_is (n := 113) (by simp (disch := decide) only [asWord, part_low, part_high]; rfl)]
  change decodeOp71 _ = _
  unfold decodeOp71
  rw [code_is (n := 5) (by simp (disch := decide) only [asWord, part_low, part_high]; rfl)]
  refine checked_ok (by simp (disch := decide) only [asWord, part_low, part_high, part_all, bit_low, bit_high, bit_one, Nat.reduceSub]) ?_
  change _ &&& BitVec.ofNat (1+10+2+6+8+5) 0x7FE00000 = _
  simp only [and_parts, Nat.reduceDiv, Nat.reduceMod, Nat.reducePow, BitVec.and_zero]; rfl

theorem Encoding.topkInit (c : Bool) (k : Bool) (s : BitVec 2) : Encoding.Statement (.topkInit c k s) := by
  intro _ word
  unfold decodeWord
  rw [code_is (n := 114) (by simp (disch := decide) only [asWord, part_low, part_high]; rfl)]
  change decodeOp72 _ = _
  unfold decodeOp72
  rw [code_is (n := 0) (by simp (disch := decide) only [asWord, part_low, part_high]; rfl)]
  refine checked_ok (by simp (disch := decide) only [asWord, part_low, part_high, part_all, bit_low, bit_high, bit_one, Nat.reduceSub]) ?_
  change _ &&& BitVec.ofNat (1+10+1+2+18) 0x7FE3FFFF = _
  simp only [and_parts, Nat.reduceDiv, Nat.reduceMod, Nat.reducePow, BitVec.and_zero]; rfl

theorem Encoding.topkRead (c : Bool) (s : BitVec 2) (d : BitVec 6) : Encoding.Statement (.topkRead c s d) := by
  intro _ word
  unfold decodeWord
  rw [code_is (n := 114) (by simp (disch := decide) only [asWord, part_low, part_high]; rfl)]
  change decodeOp72 _ = _
  unfold decodeOp72
  rw [code_is (n := 1) (by simp (disch := decide) only [asWord, part_low, part_high]; rfl)]
  refine checked_ok (by simp (disch := decide) only [asWord, part_low, part_high, part_all, bit_low, bit_high, bit_one, Nat.reduceSub]) ?_
  change _ &&& BitVec.ofNat (1+11+2+6+12) 0x7FF00FFF = _
  simp only [and_parts, Nat.reduceDiv, Nat.reduceMod, Nat.reducePow, BitVec.and_zero]; rfl

theorem Encoding.cpy (c : Bool) (a : BitVec 6) (s : BitVec 6) (n : BitVec 6) (t : BitVec 2) (p : BitVec 3) : Encoding.Statement (.cpy c a s n t p) := by
  intro _ word
  unfold decodeWord
  rw [code_is (n := 115) (by simp (disch := decide) only [asWord, part_low, part_high]; rfl)]
  refine checked_ok (by simp (disch := decide) only [asWord, part_low, part_high, part_all, bit_low, bit_high, bit_one, Nat.reduceSub]) ?_
  change _ &&& BitVec.ofNat (1+7+6+6+6+2+3+1) 0x7F000001 = _
  simp only [and_parts, Nat.reduceDiv, Nat.reduceMod, Nat.reducePow, BitVec.and_zero]; rfl

theorem Encoding.cpw (c : Bool) (t : BitVec 2) (n : BitVec 6) : Encoding.Statement (.cpw c t n) := by
  intro _ word
  unfold decodeWord
  rw [code_is (n := 116) (by simp (disch := decide) only [asWord, part_low, part_high]; rfl)]
  refine checked_ok (by simp (disch := decide) only [asWord, part_low, part_high, part_all, bit_low, bit_high, bit_one, Nat.reduceSub]) ?_
  change _ &&& BitVec.ofNat (1+7+2+6+16) 0x7F00FFFF = _
  simp only [and_parts, Nat.reduceDiv, Nat.reduceMod, Nat.reducePow, BitVec.and_zero]; rfl

theorem Encoding.twkLoad (c : Bool) (r : BitVec 6) (cc : BitVec 6) (g : BitVec 5) (p : BitVec 3) : Encoding.Statement (.twkLoad c r cc g p) := by
  intro _ word
  unfold decodeWord
  rw [code_is (n := 117) (by simp (disch := decide) only [asWord, part_low, part_high]; rfl)]
  change decodeOp75 _ = _
  unfold decodeOp75
  rw [code_is (n := 0) (by simp (disch := decide) only [asWord, part_low, part_high]; rfl)]
  refine checked_ok (by simp (disch := decide) only [asWord, part_low, part_high, part_all, bit_low, bit_high, bit_one, Nat.reduceSub]) ?_
  change _ &&& BitVec.ofNat (1+10+6+6+5+3+1) 0x7FE00001 = _
  simp only [and_parts, Nat.reduceDiv, Nat.reduceMod, Nat.reducePow, BitVec.and_zero]; rfl

theorem Encoding.twkStore (c : Bool) (r : BitVec 6) (cc : BitVec 6) (g : BitVec 5) (p : BitVec 3) : Encoding.Statement (.twkStore c r cc g p) := by
  intro _ word
  unfold decodeWord
  rw [code_is (n := 117) (by simp (disch := decide) only [asWord, part_low, part_high]; rfl)]
  change decodeOp75 _ = _
  unfold decodeOp75
  rw [code_is (n := 1) (by simp (disch := decide) only [asWord, part_low, part_high]; rfl)]
  refine checked_ok (by simp (disch := decide) only [asWord, part_low, part_high, part_all, bit_low, bit_high, bit_one, Nat.reduceSub]) ?_
  change _ &&& BitVec.ofNat (1+10+6+6+5+3+1) 0x7FE00001 = _
  simp only [and_parts, Nat.reduceDiv, Nat.reduceMod, Nat.reducePow, BitVec.and_zero]; rfl

theorem Encoding.twkGather (c : Bool) (r : BitVec 6) (cc : BitVec 6) (g : BitVec 5) (p : BitVec 3) : Encoding.Statement (.twkGather c r cc g p) := by
  intro _ word
  unfold decodeWord
  rw [code_is (n := 117) (by simp (disch := decide) only [asWord, part_low, part_high]; rfl)]
  change decodeOp75 _ = _
  unfold decodeOp75
  rw [code_is (n := 2) (by simp (disch := decide) only [asWord, part_low, part_high]; rfl)]
  refine checked_ok (by simp (disch := decide) only [asWord, part_low, part_high, part_all, bit_low, bit_high, bit_one, Nat.reduceSub]) ?_
  change _ &&& BitVec.ofNat (1+10+6+6+5+3+1) 0x7FE00001 = _
  simp only [and_parts, Nat.reduceDiv, Nat.reduceMod, Nat.reducePow, BitVec.and_zero]; rfl

theorem Encoding.twkScatteradd (c : Bool) (r : BitVec 6) (cc : BitVec 6) (g : BitVec 5) (p : BitVec 3) : Encoding.Statement (.twkScatteradd c r cc g p) := by
  intro _ word
  unfold decodeWord
  rw [code_is (n := 117) (by simp (disch := decide) only [asWord, part_low, part_high]; rfl)]
  change decodeOp75 _ = _
  unfold decodeOp75
  rw [code_is (n := 3) (by simp (disch := decide) only [asWord, part_low, part_high]; rfl)]
  refine checked_ok (by simp (disch := decide) only [asWord, part_low, part_high, part_all, bit_low, bit_high, bit_one, Nat.reduceSub]) ?_
  change _ &&& BitVec.ofNat (1+10+6+6+5+3+1) 0x7FE00001 = _
  simp only [and_parts, Nat.reduceDiv, Nat.reduceMod, Nat.reducePow, BitVec.and_zero]; rfl

theorem Encoding.syncInit (c : Bool) (s : BitVec 3) (o : BitVec 6) (v : BitVec 6) (p : BitVec 3) : Encoding.Statement (.syncInit c s o v p) := by
  intro _ word
  unfold decodeWord
  rw [code_is (n := 120) (by simp (disch := decide) only [asWord, part_low, part_high]; rfl)]
  change decodeOp78 _ = _
  unfold decodeOp78
  rw [code_is (n := 0) (by simp (disch := decide) only [asWord, part_low, part_high]; rfl)]
  refine checked_ok (by simp (disch := decide) only [asWord, part_low, part_high, part_all, bit_low, bit_high, bit_one, Nat.reduceSub]) ?_
  change _ &&& BitVec.ofNat (1+11+3+6+6+3+2) 0x7FF00003 = _
  simp only [and_parts, Nat.reduceDiv, Nat.reduceMod, Nat.reducePow, BitVec.and_zero]; rfl

theorem Encoding.syncArrive (c : Bool) (s : BitVec 3) (o : BitVec 6) (v : BitVec 6) (p : BitVec 3) : Encoding.Statement (.syncArrive c s o v p) := by
  intro _ word
  unfold decodeWord
  rw [code_is (n := 120) (by simp (disch := decide) only [asWord, part_low, part_high]; rfl)]
  change decodeOp78 _ = _
  unfold decodeOp78
  rw [code_is (n := 1) (by simp (disch := decide) only [asWord, part_low, part_high]; rfl)]
  refine checked_ok (by simp (disch := decide) only [asWord, part_low, part_high, part_all, bit_low, bit_high, bit_one, Nat.reduceSub]) ?_
  change _ &&& BitVec.ofNat (1+11+3+6+6+3+2) 0x7FF00003 = _
  simp only [and_parts, Nat.reduceDiv, Nat.reduceMod, Nat.reducePow, BitVec.and_zero]; rfl

theorem Encoding.syncWait (c : Bool) (s : BitVec 3) (o : BitVec 6) (v : BitVec 6) (p : BitVec 3) : Encoding.Statement (.syncWait c s o v p) := by
  intro _ word
  unfold decodeWord
  rw [code_is (n := 120) (by simp (disch := decide) only [asWord, part_low, part_high]; rfl)]
  change decodeOp78 _ = _
  unfold decodeOp78
  rw [code_is (n := 2) (by simp (disch := decide) only [asWord, part_low, part_high]; rfl)]
  refine checked_ok (by simp (disch := decide) only [asWord, part_low, part_high, part_all, bit_low, bit_high, bit_one, Nat.reduceSub]) ?_
  change _ &&& BitVec.ofNat (1+11+3+6+6+3+2) 0x7FF00003 = _
  simp only [and_parts, Nat.reduceDiv, Nat.reduceMod, Nat.reducePow, BitVec.and_zero]; rfl

theorem Encoding.syncArrw (c : Bool) (s : BitVec 3) (o : BitVec 6) (v : BitVec 6) (p : BitVec 3) : Encoding.Statement (.syncArrw c s o v p) := by
  intro _ word
  unfold decodeWord
  rw [code_is (n := 120) (by simp (disch := decide) only [asWord, part_low, part_high]; rfl)]
  change decodeOp78 _ = _
  unfold decodeOp78
  rw [code_is (n := 3) (by simp (disch := decide) only [asWord, part_low, part_high]; rfl)]
  refine checked_ok (by simp (disch := decide) only [asWord, part_low, part_high, part_all, bit_low, bit_high, bit_one, Nat.reduceSub]) ?_
  change _ &&& BitVec.ofNat (1+11+3+6+6+3+2) 0x7FF00003 = _
  simp only [and_parts, Nat.reduceDiv, Nat.reduceMod, Nat.reducePow, BitVec.and_zero]; rfl

theorem Encoding.syncTest (c : Bool) (s : BitVec 3) (o : BitVec 6) (v : BitVec 6) (p : BitVec 3) : Encoding.Statement (.syncTest c s o v p) := by
  intro _ word
  unfold decodeWord
  rw [code_is (n := 120) (by simp (disch := decide) only [asWord, part_low, part_high]; rfl)]
  change decodeOp78 _ = _
  unfold decodeOp78
  rw [code_is (n := 4) (by simp (disch := decide) only [asWord, part_low, part_high]; rfl)]
  refine checked_ok (by simp (disch := decide) only [asWord, part_low, part_high, part_all, bit_low, bit_high, bit_one, Nat.reduceSub]) ?_
  change _ &&& BitVec.ofNat (1+11+3+6+6+3+2) 0x7FF00003 = _
  simp only [and_parts, Nat.reduceDiv, Nat.reduceMod, Nat.reducePow, BitVec.and_zero]; rfl

theorem Encoding.syncRel (c : Bool) (s : BitVec 3) (o : BitVec 6) (p : BitVec 3) : Encoding.Statement (.syncRel c s o p) := by
  intro _ word
  unfold decodeWord
  rw [code_is (n := 120) (by simp (disch := decide) only [asWord, part_low, part_high]; rfl)]
  change decodeOp78 _ = _
  unfold decodeOp78
  rw [code_is (n := 5) (by simp (disch := decide) only [asWord, part_low, part_high]; rfl)]
  refine checked_ok (by simp (disch := decide) only [asWord, part_low, part_high, part_all, bit_low, bit_high, bit_one, Nat.reduceSub]) ?_
  change _ &&& BitVec.ofNat (1+11+3+6+6+3+2) 0x7FF007E3 = _
  simp only [and_parts, Nat.reduceDiv, Nat.reduceMod, Nat.reducePow, BitVec.and_zero]; rfl

theorem Encoding.syncAcq (c : Bool) (s : BitVec 3) (o : BitVec 6) (v : BitVec 6) (p : BitVec 3) : Encoding.Statement (.syncAcq c s o v p) := by
  intro _ word
  unfold decodeWord
  rw [code_is (n := 120) (by simp (disch := decide) only [asWord, part_low, part_high]; rfl)]
  change decodeOp78 _ = _
  unfold decodeOp78
  rw [code_is (n := 6) (by simp (disch := decide) only [asWord, part_low, part_high]; rfl)]
  refine checked_ok (by simp (disch := decide) only [asWord, part_low, part_high, part_all, bit_low, bit_high, bit_one, Nat.reduceSub]) ?_
  change _ &&& BitVec.ofNat (1+11+3+6+6+3+2) 0x7FF00003 = _
  simp only [and_parts, Nat.reduceDiv, Nat.reduceMod, Nat.reducePow, BitVec.and_zero]; rfl

theorem Encoding.syncBind (c : Bool) (s : BitVec 3) (o : BitVec 6) (v : BitVec 6) (p : BitVec 3) : Encoding.Statement (.syncBind c s o v p) := by
  intro _ word
  unfold decodeWord
  rw [code_is (n := 120) (by simp (disch := decide) only [asWord, part_low, part_high]; rfl)]
  change decodeOp78 _ = _
  unfold decodeOp78
  rw [code_is (n := 7) (by simp (disch := decide) only [asWord, part_low, part_high]; rfl)]
  refine checked_ok (by simp (disch := decide) only [asWord, part_low, part_high, part_all, bit_low, bit_high, bit_one, Nat.reduceSub]) ?_
  change _ &&& BitVec.ofNat (1+11+3+6+6+3+2) 0x7FF00003 = _
  simp only [and_parts, Nat.reduceDiv, Nat.reduceMod, Nat.reducePow, BitVec.and_zero]; rfl

theorem Encoding.syncUnbind (c : Bool) (s : BitVec 3) (o : BitVec 6) (v : BitVec 6) (p : BitVec 3) : Encoding.Statement (.syncUnbind c s o v p) := by
  intro _ word
  unfold decodeWord
  rw [code_is (n := 120) (by simp (disch := decide) only [asWord, part_low, part_high]; rfl)]
  change decodeOp78 _ = _
  unfold decodeOp78
  rw [code_is (n := 8) (by simp (disch := decide) only [asWord, part_low, part_high]; rfl)]
  refine checked_ok (by simp (disch := decide) only [asWord, part_low, part_high, part_all, bit_low, bit_high, bit_one, Nat.reduceSub]) ?_
  change _ &&& BitVec.ofNat (1+11+3+6+6+3+2) 0x7FF00003 = _
  simp only [and_parts, Nat.reduceDiv, Nat.reduceMod, Nat.reducePow, BitVec.and_zero]; rfl

theorem Encoding.syncExpect (c : Bool) (s : BitVec 3) (o : BitVec 6) (v : BitVec 6) (p : BitVec 3) : Encoding.Statement (.syncExpect c s o v p) := by
  intro _ word
  unfold decodeWord
  rw [code_is (n := 120) (by simp (disch := decide) only [asWord, part_low, part_high]; rfl)]
  change decodeOp78 _ = _
  unfold decodeOp78
  rw [code_is (n := 9) (by simp (disch := decide) only [asWord, part_low, part_high]; rfl)]
  refine checked_ok (by simp (disch := decide) only [asWord, part_low, part_high, part_all, bit_low, bit_high, bit_one, Nat.reduceSub]) ?_
  change _ &&& BitVec.ofNat (1+11+3+6+6+3+2) 0x7FF00003 = _
  simp only [and_parts, Nat.reduceDiv, Nat.reduceMod, Nat.reducePow, BitVec.and_zero]; rfl

theorem Encoding.syncErr (c : Bool) (s : BitVec 3) (o : BitVec 6) (v : BitVec 6) (p : BitVec 3) : Encoding.Statement (.syncErr c s o v p) := by
  intro _ word
  unfold decodeWord
  rw [code_is (n := 120) (by simp (disch := decide) only [asWord, part_low, part_high]; rfl)]
  change decodeOp78 _ = _
  unfold decodeOp78
  rw [code_is (n := 10) (by simp (disch := decide) only [asWord, part_low, part_high]; rfl)]
  refine checked_ok (by simp (disch := decide) only [asWord, part_low, part_high, part_all, bit_low, bit_high, bit_one, Nat.reduceSub]) ?_
  change _ &&& BitVec.ofNat (1+11+3+6+6+3+2) 0x7FF00003 = _
  simp only [and_parts, Nat.reduceDiv, Nat.reduceMod, Nat.reducePow, BitVec.and_zero]; rfl

theorem Encoding.fenceRel (c : Bool) (s : BitVec 3) (p : BitVec 3) : Encoding.Statement (.fenceRel c s p) := by
  intro _ word
  unfold decodeWord
  rw [code_is (n := 121) (by simp (disch := decide) only [asWord, part_low, part_high]; rfl)]
  change decodeOp79 _ = _
  unfold decodeOp79
  rw [code_is (n := 0) (by simp (disch := decide) only [asWord, part_low, part_high]; rfl)]
  refine checked_ok (by simp (disch := decide) only [asWord, part_low, part_high, part_all, bit_low, bit_high, bit_one, Nat.reduceSub]) ?_
  change _ &&& BitVec.ofNat (1+11+3+12+3+2) 0x7FF1FFE3 = _
  simp only [and_parts, Nat.reduceDiv, Nat.reduceMod, Nat.reducePow, BitVec.and_zero]; rfl

theorem Encoding.fenceAcq (c : Bool) (s : BitVec 3) (p : BitVec 3) : Encoding.Statement (.fenceAcq c s p) := by
  intro _ word
  unfold decodeWord
  rw [code_is (n := 121) (by simp (disch := decide) only [asWord, part_low, part_high]; rfl)]
  change decodeOp79 _ = _
  unfold decodeOp79
  rw [code_is (n := 1) (by simp (disch := decide) only [asWord, part_low, part_high]; rfl)]
  refine checked_ok (by simp (disch := decide) only [asWord, part_low, part_high, part_all, bit_low, bit_high, bit_one, Nat.reduceSub]) ?_
  change _ &&& BitVec.ofNat (1+11+3+12+3+2) 0x7FF1FFE3 = _
  simp only [and_parts, Nat.reduceDiv, Nat.reduceMod, Nat.reducePow, BitVec.and_zero]; rfl

theorem Encoding.fenceFull (c : Bool) (s : BitVec 3) (p : BitVec 3) : Encoding.Statement (.fenceFull c s p) := by
  intro _ word
  unfold decodeWord
  rw [code_is (n := 121) (by simp (disch := decide) only [asWord, part_low, part_high]; rfl)]
  change decodeOp79 _ = _
  unfold decodeOp79
  rw [code_is (n := 2) (by simp (disch := decide) only [asWord, part_low, part_high]; rfl)]
  refine checked_ok (by simp (disch := decide) only [asWord, part_low, part_high, part_all, bit_low, bit_high, bit_one, Nat.reduceSub]) ?_
  change _ &&& BitVec.ofNat (1+11+3+12+3+2) 0x7FF1FFE3 = _
  simp only [and_parts, Nat.reduceDiv, Nat.reduceMod, Nat.reducePow, BitVec.and_zero]; rfl

theorem Encoding.fenceOprdy (c : Bool) (p : BitVec 3) : Encoding.Statement (.fenceOprdy c p) := by
  intro _ word
  unfold decodeWord
  rw [code_is (n := 121) (by simp (disch := decide) only [asWord, part_low, part_high]; rfl)]
  change decodeOp79 _ = _
  unfold decodeOp79
  rw [code_is (n := 3) (by simp (disch := decide) only [asWord, part_low, part_high]; rfl)]
  refine checked_ok (by simp (disch := decide) only [asWord, part_low, part_high, part_all, bit_low, bit_high, bit_one, Nat.reduceSub]) ?_
  change _ &&& BitVec.ofNat (1+26+3+2) 0x7FFFFFE3 = _
  simp only [and_parts, Nat.reduceDiv, Nat.reduceMod, Nat.reducePow, BitVec.and_zero]; rfl

theorem Encoding.fenceTfence (c : Bool) (p : BitVec 3) : Encoding.Statement (.fenceTfence c p) := by
  intro _ word
  unfold decodeWord
  rw [code_is (n := 121) (by simp (disch := decide) only [asWord, part_low, part_high]; rfl)]
  change decodeOp79 _ = _
  unfold decodeOp79
  rw [code_is (n := 4) (by simp (disch := decide) only [asWord, part_low, part_high]; rfl)]
  refine checked_ok (by simp (disch := decide) only [asWord, part_low, part_high, part_all, bit_low, bit_high, bit_one, Nat.reduceSub]) ?_
  change _ &&& BitVec.ofNat (1+26+3+2) 0x7FFFFFE3 = _
  simp only [and_parts, Nat.reduceDiv, Nat.reduceMod, Nat.reducePow, BitVec.and_zero]; rfl

theorem Encoding.nobjCreate (c : Bool) (v : BitVec 6) (p : BitVec 3) : Encoding.Statement (.nobjCreate c v p) := by
  intro _ word
  unfold decodeWord
  rw [code_is (n := 122) (by simp (disch := decide) only [asWord, part_low, part_high]; rfl)]
  change decodeOp7A _ = _
  unfold decodeOp7A
  rw [code_is (n := 0) (by simp (disch := decide) only [asWord, part_low, part_high]; rfl)]
  refine checked_ok (by simp (disch := decide) only [asWord, part_low, part_high, part_all, bit_low, bit_high, bit_one, Nat.reduceSub]) ?_
  change _ &&& BitVec.ofNat (1+20+6+3+2) 0x7FFFF803 = _
  simp only [and_parts, Nat.reduceDiv, Nat.reduceMod, Nat.reducePow, BitVec.and_zero]; rfl

theorem Encoding.nobjOpen (c : Bool) (v : BitVec 6) (p : BitVec 3) : Encoding.Statement (.nobjOpen c v p) := by
  intro _ word
  unfold decodeWord
  rw [code_is (n := 122) (by simp (disch := decide) only [asWord, part_low, part_high]; rfl)]
  change decodeOp7A _ = _
  unfold decodeOp7A
  rw [code_is (n := 1) (by simp (disch := decide) only [asWord, part_low, part_high]; rfl)]
  refine checked_ok (by simp (disch := decide) only [asWord, part_low, part_high, part_all, bit_low, bit_high, bit_one, Nat.reduceSub]) ?_
  change _ &&& BitVec.ofNat (1+20+6+3+2) 0x7FFFF803 = _
  simp only [and_parts, Nat.reduceDiv, Nat.reduceMod, Nat.reducePow, BitVec.and_zero]; rfl

theorem Encoding.nobjClose (c : Bool) (v : BitVec 6) (p : BitVec 3) : Encoding.Statement (.nobjClose c v p) := by
  intro _ word
  unfold decodeWord
  rw [code_is (n := 122) (by simp (disch := decide) only [asWord, part_low, part_high]; rfl)]
  change decodeOp7A _ = _
  unfold decodeOp7A
  rw [code_is (n := 2) (by simp (disch := decide) only [asWord, part_low, part_high]; rfl)]
  refine checked_ok (by simp (disch := decide) only [asWord, part_low, part_high, part_all, bit_low, bit_high, bit_one, Nat.reduceSub]) ?_
  change _ &&& BitVec.ofNat (1+20+6+3+2) 0x7FFFF803 = _
  simp only [and_parts, Nat.reduceDiv, Nat.reduceMod, Nat.reducePow, BitVec.and_zero]; rfl

theorem Encoding.nobjHand (c : Bool) (v : BitVec 6) (p : BitVec 3) : Encoding.Statement (.nobjHand c v p) := by
  intro _ word
  unfold decodeWord
  rw [code_is (n := 122) (by simp (disch := decide) only [asWord, part_low, part_high]; rfl)]
  change decodeOp7A _ = _
  unfold decodeOp7A
  rw [code_is (n := 3) (by simp (disch := decide) only [asWord, part_low, part_high]; rfl)]
  refine checked_ok (by simp (disch := decide) only [asWord, part_low, part_high, part_all, bit_low, bit_high, bit_one, Nat.reduceSub]) ?_
  change _ &&& BitVec.ofNat (1+20+6+3+2) 0x7FFFF803 = _
  simp only [and_parts, Nat.reduceDiv, Nat.reduceMod, Nat.reducePow, BitVec.and_zero]; rfl

theorem Encoding.nobjDrop (c : Bool) (v : BitVec 6) (p : BitVec 3) : Encoding.Statement (.nobjDrop c v p) := by
  intro _ word
  unfold decodeWord
  rw [code_is (n := 122) (by simp (disch := decide) only [asWord, part_low, part_high]; rfl)]
  change decodeOp7A _ = _
  unfold decodeOp7A
  rw [code_is (n := 4) (by simp (disch := decide) only [asWord, part_low, part_high]; rfl)]
  refine checked_ok (by simp (disch := decide) only [asWord, part_low, part_high, part_all, bit_low, bit_high, bit_one, Nat.reduceSub]) ?_
  change _ &&& BitVec.ofNat (1+20+6+3+2) 0x7FFFF803 = _
  simp only [and_parts, Nat.reduceDiv, Nat.reduceMod, Nat.reducePow, BitVec.and_zero]; rfl

theorem Encoding.nobjQuery (c : Bool) (v : BitVec 6) (p : BitVec 3) : Encoding.Statement (.nobjQuery c v p) := by
  intro _ word
  unfold decodeWord
  rw [code_is (n := 122) (by simp (disch := decide) only [asWord, part_low, part_high]; rfl)]
  change decodeOp7A _ = _
  unfold decodeOp7A
  rw [code_is (n := 5) (by simp (disch := decide) only [asWord, part_low, part_high]; rfl)]
  refine checked_ok (by simp (disch := decide) only [asWord, part_low, part_high, part_all, bit_low, bit_high, bit_one, Nat.reduceSub]) ?_
  change _ &&& BitVec.ofNat (1+20+6+3+2) 0x7FFFF803 = _
  simp only [and_parts, Nat.reduceDiv, Nat.reduceMod, Nat.reducePow, BitVec.and_zero]; rfl

theorem Encoding.nobjMirror (c : Bool) (v : BitVec 6) (p : BitVec 3) : Encoding.Statement (.nobjMirror c v p) := by
  intro _ word
  unfold decodeWord
  rw [code_is (n := 122) (by simp (disch := decide) only [asWord, part_low, part_high]; rfl)]
  change decodeOp7A _ = _
  unfold decodeOp7A
  rw [code_is (n := 6) (by simp (disch := decide) only [asWord, part_low, part_high]; rfl)]
  refine checked_ok (by simp (disch := decide) only [asWord, part_low, part_high, part_all, bit_low, bit_high, bit_one, Nat.reduceSub]) ?_
  change _ &&& BitVec.ofNat (1+20+6+3+2) 0x7FFFF803 = _
  simp only [and_parts, Nat.reduceDiv, Nat.reduceMod, Nat.reducePow, BitVec.and_zero]; rfl

theorem Encoding.taskPush (c : Bool) (s : BitVec 3) (v : BitVec 6) (p : BitVec 3) : Encoding.Statement (.taskPush c s v p) := by
  intro _ word
  unfold decodeWord
  rw [code_is (n := 123) (by simp (disch := decide) only [asWord, part_low, part_high]; rfl)]
  change decodeOp7B _ = _
  unfold decodeOp7B
  rw [code_is (n := 0) (by simp (disch := decide) only [asWord, part_low, part_high]; rfl)]
  refine checked_ok (by simp (disch := decide) only [asWord, part_low, part_high, part_all, bit_low, bit_high, bit_one, Nat.reduceSub]) ?_
  change _ &&& BitVec.ofNat (1+11+3+6+6+3+2) 0x7FF1F803 = _
  simp only [and_parts, Nat.reduceDiv, Nat.reduceMod, Nat.reducePow, BitVec.and_zero]; rfl

theorem Encoding.taskPop (c : Bool) (s : BitVec 3) (v : BitVec 6) (p : BitVec 3) : Encoding.Statement (.taskPop c s v p) := by
  intro _ word
  unfold decodeWord
  rw [code_is (n := 123) (by simp (disch := decide) only [asWord, part_low, part_high]; rfl)]
  change decodeOp7B _ = _
  unfold decodeOp7B
  rw [code_is (n := 1) (by simp (disch := decide) only [asWord, part_low, part_high]; rfl)]
  refine checked_ok (by simp (disch := decide) only [asWord, part_low, part_high, part_all, bit_low, bit_high, bit_one, Nat.reduceSub]) ?_
  change _ &&& BitVec.ofNat (1+11+3+6+6+3+2) 0x7FF1F803 = _
  simp only [and_parts, Nat.reduceDiv, Nat.reduceMod, Nat.reducePow, BitVec.and_zero]; rfl

theorem Encoding.taskTrypop (c : Bool) (s : BitVec 3) (v : BitVec 6) (p : BitVec 3) : Encoding.Statement (.taskTrypop c s v p) := by
  intro _ word
  unfold decodeWord
  rw [code_is (n := 123) (by simp (disch := decide) only [asWord, part_low, part_high]; rfl)]
  change decodeOp7B _ = _
  unfold decodeOp7B
  rw [code_is (n := 2) (by simp (disch := decide) only [asWord, part_low, part_high]; rfl)]
  refine checked_ok (by simp (disch := decide) only [asWord, part_low, part_high, part_all, bit_low, bit_high, bit_one, Nat.reduceSub]) ?_
  change _ &&& BitVec.ofNat (1+11+3+6+6+3+2) 0x7FF1F803 = _
  simp only [and_parts, Nat.reduceDiv, Nat.reduceMod, Nat.reducePow, BitVec.and_zero]; rfl

theorem Encoding.taskEos (c : Bool) (s : BitVec 3) (p : BitVec 3) : Encoding.Statement (.taskEos c s p) := by
  intro _ word
  unfold decodeWord
  rw [code_is (n := 123) (by simp (disch := decide) only [asWord, part_low, part_high]; rfl)]
  change decodeOp7B _ = _
  unfold decodeOp7B
  rw [code_is (n := 3) (by simp (disch := decide) only [asWord, part_low, part_high]; rfl)]
  refine checked_ok (by simp (disch := decide) only [asWord, part_low, part_high, part_all, bit_low, bit_high, bit_one, Nat.reduceSub]) ?_
  change _ &&& BitVec.ofNat (1+11+3+12+3+2) 0x7FF1FFE3 = _
  simp only [and_parts, Nat.reduceDiv, Nat.reduceMod, Nat.reducePow, BitVec.and_zero]; rfl

theorem Encoding.taskDone (c : Bool) (s : BitVec 3) (v : BitVec 6) (p : BitVec 3) : Encoding.Statement (.taskDone c s v p) := by
  intro _ word
  unfold decodeWord
  rw [code_is (n := 123) (by simp (disch := decide) only [asWord, part_low, part_high]; rfl)]
  change decodeOp7B _ = _
  unfold decodeOp7B
  rw [code_is (n := 4) (by simp (disch := decide) only [asWord, part_low, part_high]; rfl)]
  refine checked_ok (by simp (disch := decide) only [asWord, part_low, part_high, part_all, bit_low, bit_high, bit_one, Nat.reduceSub]) ?_
  change _ &&& BitVec.ofNat (1+11+3+6+6+3+2) 0x7FF1F803 = _
  simp only [and_parts, Nat.reduceDiv, Nat.reduceMod, Nat.reducePow, BitVec.and_zero]; rfl

theorem Encoding.sysTrap (c : Bool) (n : BitVec 6) (p : BitVec 3) : Encoding.Statement (.sysTrap c n p) := by
  intro _ word
  unfold decodeWord
  rw [code_is (n := 124) (by simp (disch := decide) only [asWord, part_low, part_high]; rfl)]
  change decodeOp7C _ = _
  unfold decodeOp7C
  rw [code_is (n := 0) (by simp (disch := decide) only [asWord, part_low, part_high]; rfl)]
  refine checked_ok (by simp (disch := decide) only [asWord, part_low, part_high, part_all, bit_low, bit_high, bit_one, Nat.reduceSub]) ?_
  change _ &&& BitVec.ofNat (1+14+6+6+3+2) 0x7FFE07E3 = _
  simp only [and_parts, Nat.reduceDiv, Nat.reduceMod, Nat.reducePow, BitVec.and_zero]; rfl

theorem Encoding.sysEret (c : Bool) (p : BitVec 3) : Encoding.Statement (.sysEret c p) := by
  intro _ word
  unfold decodeWord
  rw [code_is (n := 124) (by simp (disch := decide) only [asWord, part_low, part_high]; rfl)]
  change decodeOp7C _ = _
  unfold decodeOp7C
  rw [code_is (n := 1) (by simp (disch := decide) only [asWord, part_low, part_high]; rfl)]
  refine checked_ok (by simp (disch := decide) only [asWord, part_low, part_high, part_all, bit_low, bit_high, bit_one, Nat.reduceSub]) ?_
  change _ &&& BitVec.ofNat (1+26+3+2) 0x7FFFFFE3 = _
  simp only [and_parts, Nat.reduceDiv, Nat.reduceMod, Nat.reducePow, BitVec.and_zero]; rfl

theorem Encoding.sysBkpt (c : Bool) (p : BitVec 3) : Encoding.Statement (.sysBkpt c p) := by
  intro _ word
  unfold decodeWord
  rw [code_is (n := 124) (by simp (disch := decide) only [asWord, part_low, part_high]; rfl)]
  change decodeOp7C _ = _
  unfold decodeOp7C
  rw [code_is (n := 2) (by simp (disch := decide) only [asWord, part_low, part_high]; rfl)]
  refine checked_ok (by simp (disch := decide) only [asWord, part_low, part_high, part_all, bit_low, bit_high, bit_one, Nat.reduceSub]) ?_
  change _ &&& BitVec.ofNat (1+26+3+2) 0x7FFFFFE3 = _
  simp only [and_parts, Nat.reduceDiv, Nat.reduceMod, Nat.reducePow, BitVec.and_zero]; rfl

theorem Encoding.sysExit (c : Bool) (p : BitVec 3) : Encoding.Statement (.sysExit c p) := by
  intro _ word
  unfold decodeWord
  rw [code_is (n := 124) (by simp (disch := decide) only [asWord, part_low, part_high]; rfl)]
  change decodeOp7C _ = _
  unfold decodeOp7C
  rw [code_is (n := 3) (by simp (disch := decide) only [asWord, part_low, part_high]; rfl)]
  refine checked_ok (by simp (disch := decide) only [asWord, part_low, part_high, part_all, bit_low, bit_high, bit_one, Nat.reduceSub]) ?_
  change _ &&& BitVec.ofNat (1+26+3+2) 0x7FFFFFE3 = _
  simp only [and_parts, Nat.reduceDiv, Nat.reduceMod, Nat.reducePow, BitVec.and_zero]; rfl

theorem Encoding.sysPyld (c : Bool) (p : BitVec 3) : Encoding.Statement (.sysPyld c p) := by
  intro _ word
  unfold decodeWord
  rw [code_is (n := 124) (by simp (disch := decide) only [asWord, part_low, part_high]; rfl)]
  change decodeOp7C _ = _
  unfold decodeOp7C
  rw [code_is (n := 4) (by simp (disch := decide) only [asWord, part_low, part_high]; rfl)]
  refine checked_ok (by simp (disch := decide) only [asWord, part_low, part_high, part_all, bit_low, bit_high, bit_one, Nat.reduceSub]) ?_
  change _ &&& BitVec.ofNat (1+26+3+2) 0x7FFFFFE3 = _
  simp only [and_parts, Nat.reduceDiv, Nat.reduceMod, Nat.reducePow, BitVec.and_zero]; rfl

theorem Encoding.sysCclr (c : Bool) (v : BitVec 6) (p : BitVec 3) : Encoding.Statement (.sysCclr c v p) := by
  intro _ word
  unfold decodeWord
  rw [code_is (n := 124) (by simp (disch := decide) only [asWord, part_low, part_high]; rfl)]
  change decodeOp7C _ = _
  unfold decodeOp7C
  rw [code_is (n := 5) (by simp (disch := decide) only [asWord, part_low, part_high]; rfl)]
  refine checked_ok (by simp (disch := decide) only [asWord, part_low, part_high, part_all, bit_low, bit_high, bit_one, Nat.reduceSub]) ?_
  change _ &&& BitVec.ofNat (1+20+6+3+2) 0x7FFFF803 = _
  simp only [and_parts, Nat.reduceDiv, Nat.reduceMod, Nat.reducePow, BitVec.and_zero]; rfl

theorem Encoding.sysSleep (c : Bool) (v : BitVec 6) (p : BitVec 3) : Encoding.Statement (.sysSleep c v p) := by
  intro _ word
  unfold decodeWord
  rw [code_is (n := 124) (by simp (disch := decide) only [asWord, part_low, part_high]; rfl)]
  change decodeOp7C _ = _
  unfold decodeOp7C
  rw [code_is (n := 6) (by simp (disch := decide) only [asWord, part_low, part_high]; rfl)]
  refine checked_ok (by simp (disch := decide) only [asWord, part_low, part_high, part_all, bit_low, bit_high, bit_one, Nat.reduceSub]) ?_
  change _ &&& BitVec.ofNat (1+20+6+3+2) 0x7FFFF803 = _
  simp only [and_parts, Nat.reduceDiv, Nat.reduceMod, Nat.reducePow, BitVec.and_zero]; rfl

theorem Encoding.sysHaltctx (c : Bool) (v : BitVec 6) (p : BitVec 3) : Encoding.Statement (.sysHaltctx c v p) := by
  intro _ word
  unfold decodeWord
  rw [code_is (n := 124) (by simp (disch := decide) only [asWord, part_low, part_high]; rfl)]
  change decodeOp7C _ = _
  unfold decodeOp7C
  rw [code_is (n := 7) (by simp (disch := decide) only [asWord, part_low, part_high]; rfl)]
  refine checked_ok (by simp (disch := decide) only [asWord, part_low, part_high, part_all, bit_low, bit_high, bit_one, Nat.reduceSub]) ?_
  change _ &&& BitVec.ofNat (1+20+6+3+2) 0x7FFFF803 = _
  simp only [and_parts, Nat.reduceDiv, Nat.reduceMod, Nat.reducePow, BitVec.and_zero]; rfl

theorem Encoding.sendEmark (c : Bool) (v : BitVec 6) (p : BitVec 3) : Encoding.Statement (.sendEmark c v p) := by
  intro _ word
  unfold decodeWord
  rw [code_is (n := 125) (by simp (disch := decide) only [asWord, part_low, part_high]; rfl)]
  change decodeOp7D _ = _
  unfold decodeOp7D
  rw [code_is (n := 0) (by simp (disch := decide) only [asWord, part_low, part_high]; rfl)]
  refine checked_ok (by simp (disch := decide) only [asWord, part_low, part_high, part_all, bit_low, bit_high, bit_one, Nat.reduceSub]) ?_
  change _ &&& BitVec.ofNat (1+20+6+3+2) 0x7FFFF803 = _
  simp only [and_parts, Nat.reduceDiv, Nat.reduceMod, Nat.reducePow, BitVec.and_zero]; rfl

theorem Encoding.rep (n : BitVec 6) (d : Bool) (s : Bool) (t : Bool) (l : BitVec 2) : Encoding.Statement (.rep n d s t l) := by
  intro _ word
  unfold decodeWord
  rw [code_is (n := 126) (by simp (disch := decide) only [asWord, part_low, part_high]; rfl)]
  rw [if_pos (by simp (disch := decide) only [asWord, bit_high, Nat.reduceSub]; rfl)]
  refine checked_ok (by simp (disch := decide) only [asWord, part_low, part_high, part_all, bit_low, bit_high, bit_one, Nat.reduceSub]) ?_
  change _ &&& BitVec.ofNat (8+6+1+1+1+2+13) 0xFF001FFF = _
  simp only [and_parts, Nat.reduceDiv, Nat.reduceMod, Nat.reducePow, BitVec.and_zero]; rfl

theorem Encoding.registerWrite (space : Nat) (fn : Nat) (off : Nat) (value : BitVec 64) : Encoding.Statement (.registerWrite space fn off value) := fun _ => trivial

theorem Encoding.qnotify (fn : Nat) (q : Nat) (n : BitVec 32) : Encoding.Statement (.qnotify fn q n) := fun _ => trivial

theorem Encoding.qctlEnable (fn : Nat) (q : Nat) (v : BitVec 32) : Encoding.Statement (.qctlEnable fn q v) := fun _ => trivial

theorem Encoding.qctlDisable (fn : Nat) (q : Nat) (v : BitVec 32) : Encoding.Statement (.qctlDisable fn q v) := fun _ => trivial

theorem Encoding.qctlResume (fn : Nat) (q : Nat) (v : BitVec 32) : Encoding.Statement (.qctlResume fn q v) := fun _ => trivial

theorem Encoding.qctlSkip (fn : Nat) (q : Nat) (v : BitVec 32) : Encoding.Statement (.qctlSkip fn q v) := fun _ => trivial

theorem Encoding.packetNop (fn : Nat) (q : Nat) : Encoding.Statement (.packetNop fn q) := fun _ => trivial

theorem Encoding.packetLaunch (fn : Nat) (q : Nat) : Encoding.Statement (.packetLaunch fn q) := fun _ => trivial

theorem Encoding.packetSignal (fn : Nat) (q : Nat) : Encoding.Statement (.packetSignal fn q) := fun _ => trivial

theorem Encoding.packetWaitval (fn : Nat) (q : Nat) : Encoding.Statement (.packetWaitval fn q) := fun _ => trivial

theorem Encoding.packetCheckpoint (fn : Nat) (q : Nat) : Encoding.Statement (.packetCheckpoint fn q) := fun _ => trivial

theorem Encoding.heldPacketDispatch (fn : Nat) (q : Nat) : Encoding.Statement (.heldPacketDispatch fn q) := fun _ => trivial

theorem Encoding.waitvalMet (fn : Nat) (q : Nat) : Encoding.Statement (.waitvalMet fn q) := fun _ => trivial

theorem Encoding.waitvalTimeout (fn : Nat) (q : Nat) : Encoding.Statement (.waitvalTimeout fn q) := fun _ => trivial

theorem Encoding.functionLevelReset (fn : Nat) : Encoding.Statement (.functionLevelReset fn) := fun _ => trivial

theorem Encoding.queueThaw (fn : Nat) : Encoding.Statement (.queueThaw fn) := fun _ => trivial

theorem Encoding.vfAssign (ctx : Nat) (fn : Nat) : Encoding.Statement (.vfAssign ctx fn) := fun _ => trivial

theorem Encoding.vfWithdraw (ctx : Nat) (fn : Nat) : Encoding.Statement (.vfWithdraw ctx fn) := fun _ => trivial

theorem Encoding.tenantTableWrite (ix : Nat) (valid : Bool) (frozen : Bool) (srcdev : BitVec 12) (tag : BitVec 16) (reclo : BitVec 56) (rechi : BitVec 56) (func : BitVec 8) (queue : BitVec 4) (maxgrid : BitVec 32) : Encoding.Statement (.tenantTableWrite ix valid frozen srcdev tag reclo rechi func queue maxgrid) := fun _ => trivial

theorem Encoding.chunkRequest (launch : Nat) (die : Nat) : Encoding.Statement (.chunkRequest launch die) := fun _ => trivial

theorem Encoding.clusterPlace (launch : Nat) (die : Nat) : Encoding.Statement (.clusterPlace launch die) := fun _ => trivial

theorem Encoding.corReservationComplete (launch : Nat) : Encoding.Statement (.corReservationComplete launch) := fun _ => trivial

theorem Encoding.dispatchRoundExpiry (launch : Nat) : Encoding.Statement (.dispatchRoundExpiry launch) := fun _ => trivial

theorem Encoding.objectCopyComplete (ctx : Nat) (name : BitVec 64) : Encoding.Statement (.objectCopyComplete ctx name) := fun _ => trivial

theorem Encoding.objectRestoreComplete (ctx : Nat) (name : BitVec 64) : Encoding.Statement (.objectRestoreComplete ctx name) := fun _ => trivial

theorem Encoding.dieFence (die : Nat) : Encoding.Statement (.dieFence die) := fun _ => trivial

theorem Encoding.directoryRebuildComplete (die : Nat) : Encoding.Statement (.directoryRebuildComplete die) := fun _ => trivial

theorem Encoding.coreLost (core : Nat) : Encoding.Statement (.coreLost core) := fun _ => trivial

theorem Encoding.launchComplete (launch : Nat) : Encoding.Statement (.launchComplete launch) := fun _ => trivial

theorem Encoding.contextCreate (desc : List (BitVec 8)) : Encoding.Statement (.contextCreate desc) := fun _ => trivial

theorem Encoding.contextConfigWrite (ctx : Nat) (off : Nat) (bytes : List (BitVec 8)) : Encoding.Statement (.contextConfigWrite ctx off bytes) := fun _ => trivial

theorem Encoding.preemptRequest (ctx : Nat) : Encoding.Statement (.preemptRequest ctx) := fun _ => trivial

theorem Encoding.preemptWithdraw (ctx : Nat) : Encoding.Statement (.preemptWithdraw ctx) := fun _ => trivial

theorem Encoding.preemptDeadline (team : Nat) : Encoding.Statement (.preemptDeadline team) := fun _ => trivial

theorem Encoding.contextResume (ctx : Nat) : Encoding.Statement (.contextResume ctx) := fun _ => trivial

theorem Encoding.checkpointRequest (ctx : Nat) (base : Bool) : Encoding.Statement (.checkpointRequest ctx base) := fun _ => trivial

theorem Encoding.checkpointRecorded (ctx : Nat) (buddyOk : Bool) : Encoding.Statement (.checkpointRecorded ctx buddyOk) := fun _ => trivial

theorem Encoding.contextThaw (ctx : Nat) : Encoding.Statement (.contextThaw ctx) := fun _ => trivial

theorem Encoding.restoreRequest (ctx : Nat) : Encoding.Statement (.restoreRequest ctx) := fun _ => trivial

theorem Encoding.contextTeardown (ctx : Nat) : Encoding.Statement (.contextTeardown ctx) := fun _ => trivial

theorem Encoding.coreReassign (core : Nat) (ctx : Nat) : Encoding.Statement (.coreReassign core ctx) := fun _ => trivial

theorem Encoding.scrubComplete (core : Nat) : Encoding.Statement (.scrubComplete core) := fun _ => trivial

theorem Encoding.agemaxExceeded (core : Nat) : Encoding.Statement (.agemaxExceeded core) := fun _ => trivial

theorem Encoding.teamSwap (team : Nat) : Encoding.Statement (.teamSwap team) := fun _ => trivial

theorem Encoding.teamSaveComplete (team : Nat) : Encoding.Statement (.teamSaveComplete team) := fun _ => trivial

theorem Encoding.teamReadmit (team : Nat) : Encoding.Statement (.teamReadmit team) := fun _ => trivial

theorem Encoding.readmitRoundExpiry (team : Nat) : Encoding.Statement (.readmitRoundExpiry team) := fun _ => trivial

theorem Encoding.convergenceTimeout (team : Nat) (grp : Nat) (pkt : BitVec 32) (slot : Nat) : Encoding.Statement (.convergenceTimeout team grp pkt slot) := fun _ => trivial

theorem Encoding.loadLand (core : Nat) (ix : Nat) : Encoding.Statement (.loadLand core ix) := fun _ => trivial

theorem Encoding.teamKillDrained (team : Nat) : Encoding.Statement (.teamKillDrained team) := fun _ => trivial

theorem Encoding.debugStopRequest (team : Nat) (grp : Nat) : Encoding.Statement (.debugStopRequest team grp) := fun _ => trivial

theorem Encoding.groupStopped (team : Nat) (grp : Nat) : Encoding.Statement (.groupStopped team grp) := fun _ => trivial

theorem Encoding.debugWrite (team : Nat) (tid : Nat) (what : Nat) (ix : Nat) (value : BitVec 32) : Encoding.Statement (.debugWrite team tid what ix value) := fun _ => trivial

theorem Encoding.debugResume (team : Nat) (grp : Nat) : Encoding.Statement (.debugResume team grp) := fun _ => trivial

theorem Encoding.engineWordStart (core : Nat) : Encoding.Statement (.engineWordStart core) := fun _ => trivial

theorem Encoding.mmaComplete (core : Nat) : Encoding.Statement (.mmaComplete core) := fun _ => trivial

theorem Encoding.bankLoadComplete (core : Nat) (bank : Nat) : Encoding.Statement (.bankLoadComplete core bank) := fun _ => trivial

theorem Encoding.bankDrainComplete (core : Nat) (bank : Nat) : Encoding.Statement (.bankDrainComplete core bank) := fun _ => trivial

theorem Encoding.bankQueryComplete (core : Nat) : Encoding.Statement (.bankQueryComplete core) := fun _ => trivial

theorem Encoding.twkJobStart (core : Nat) : Encoding.Statement (.twkJobStart core) := fun _ => trivial

theorem Encoding.twkTileDone (core : Nat) (job : Nat) : Encoding.Statement (.twkTileDone core job) := fun _ => trivial

theorem Encoding.twkJobComplete (core : Nat) (job : Nat) : Encoding.Statement (.twkJobComplete core job) := fun _ => trivial

theorem Encoding.cpyRetire (core : Nat) (ix : Nat) : Encoding.Statement (.cpyRetire core ix) := fun _ => trivial

theorem Encoding.ackReceive (core : Nat) (ix : Nat) (nack : Bool) : Encoding.Statement (.ackReceive core ix nack) := fun _ => trivial

theorem Encoding.lockRetry (team : Nat) (tid : Nat) : Encoding.Statement (.lockRetry team tid) := fun _ => trivial

theorem Encoding.yieldExpiry (team : Nat) (tid : Nat) : Encoding.Statement (.yieldExpiry team tid) := fun _ => trivial

theorem Encoding.sleepExpiry (team : Nat) (tid : Nat) : Encoding.Statement (.sleepExpiry team tid) := fun _ => trivial

theorem Encoding.pageRequestPost : Encoding.Statement .pageRequestPost := fun _ => trivial

theorem Encoding.resolveResolved (ctx : Nat) (va : BitVec 56) : Encoding.Statement (.resolveResolved ctx va) := fun _ => trivial

theorem Encoding.resolveRefuseKill (ctx : Nat) (va : BitVec 56) : Encoding.Statement (.resolveRefuseKill ctx va) := fun _ => trivial

theorem Encoding.resolveRefuseFreeze (ctx : Nat) (va : BitVec 56) : Encoding.Statement (.resolveRefuseFreeze ctx va) := fun _ => trivial

theorem Encoding.frameopGrant (value : BitVec 64) : Encoding.Statement (.frameopGrant value) := fun _ => trivial

theorem Encoding.frameopReclaim (value : BitVec 64) : Encoding.Statement (.frameopReclaim value) := fun _ => trivial

theorem Encoding.rangeInvalidateRequest (ctx : Nat) (base : BitVec 64) (len : BitVec 64) : Encoding.Statement (.rangeInvalidateRequest ctx base len) := fun _ => trivial

theorem Encoding.rangeInvalidateComplete (ix : Nat) : Encoding.Statement (.rangeInvalidateComplete ix) := fun _ => trivial

theorem Encoding.backgroundWalkComplete (die : Nat) (ix : Nat) : Encoding.Statement (.backgroundWalkComplete die ix) := fun _ => trivial

theorem Encoding.sluiceEpochEnd (die : Nat) (depths : List Nat) : Encoding.Statement (.sluiceEpochEnd die depths) := fun _ => trivial

theorem Encoding.migrationComplete (ix : Nat) : Encoding.Statement (.migrationComplete ix) := fun _ => trivial

theorem Encoding.portEnable (port : Nat) : Encoding.Statement (.portEnable port) := fun _ => trivial

theorem Encoding.trainingComplete (port : Nat) (lanes : BitVec 8) : Encoding.Statement (.trainingComplete port lanes) := fun _ => trivial

theorem Encoding.trainingRetryTimer (port : Nat) : Encoding.Statement (.trainingRetryTimer port) := fun _ => trivial

theorem Encoding.laneFault (port : Nat) : Encoding.Statement (.laneFault port) := fun _ => trivial

theorem Encoding.portFence (port : Nat) : Encoding.Statement (.portFence port) := fun _ => trivial

theorem Encoding.portUnfence (port : Nat) : Encoding.Statement (.portUnfence port) := fun _ => trivial

theorem Encoding.frameResendTimeout (ix : Nat) : Encoding.Statement (.frameResendTimeout ix) := fun _ => trivial

theorem Encoding.routeDetour (src : Nat) (dst : Nat) : Encoding.Statement (.routeDetour src dst) := fun _ => trivial

theorem Encoding.frameLnack (hdr : BitVec 256) (payload : List (BitVec 8)) : Encoding.Statement (.frameLnack hdr payload) := fun _ => trivial

theorem Encoding.frameAckonly (hdr : BitVec 256) (payload : List (BitVec 8)) : Encoding.Statement (.frameAckonly hdr payload) := fun _ => trivial

theorem Encoding.frameRead (hdr : BitVec 256) (payload : List (BitVec 8)) : Encoding.Statement (.frameRead hdr payload) := fun _ => trivial

theorem Encoding.frameWrite (hdr : BitVec 256) (payload : List (BitVec 8)) : Encoding.Statement (.frameWrite hdr payload) := fun _ => trivial

theorem Encoding.frameAtomic (hdr : BitVec 256) (payload : List (BitVec 8)) : Encoding.Statement (.frameAtomic hdr payload) := fun _ => trivial

theorem Encoding.frameResp (hdr : BitVec 256) (payload : List (BitVec 8)) : Encoding.Statement (.frameResp hdr payload) := fun _ => trivial

theorem Encoding.frameWrack (hdr : BitVec 256) (payload : List (BitVec 8)) : Encoding.Statement (.frameWrack hdr payload) := fun _ => trivial

theorem Encoding.frameMarker (hdr : BitVec 256) (payload : List (BitVec 8)) : Encoding.Statement (.frameMarker hdr payload) := fun _ => trivial

theorem Encoding.frameLaunch (hdr : BitVec 256) (payload : List (BitVec 8)) : Encoding.Statement (.frameLaunch hdr payload) := fun _ => trivial

theorem Encoding.frameLaunchnack (hdr : BitVec 256) (payload : List (BitVec 8)) : Encoding.Statement (.frameLaunchnack hdr payload) := fun _ => trivial

theorem Encoding.remoteTimeout (core : Nat) (txid : BitVec 32) : Encoding.Statement (.remoteTimeout core txid) := fun _ => trivial

theorem Encoding.clockSettingRequest (die : Nat) (quarter : Nat) (front : Nat) (ratio : Nat) : Encoding.Statement (.clockSettingRequest die quarter front ratio) := fun _ => trivial

theorem Encoding.clockRelockComplete (die : Nat) (quarter : Nat) : Encoding.Statement (.clockRelockComplete die quarter) := fun _ => trivial

theorem Encoding.pcapWrite (watts : Nat) : Encoding.Statement (.pcapWrite watts) := fun _ => trivial

theorem Encoding.slewWrite (die : Nat) (slew : Nat) (cload : Nat) : Encoding.Statement (.slewWrite die slew cload) := fun _ => trivial

theorem Encoding.slopeStep (die : Nat) (load : Nat) : Encoding.Statement (.slopeStep die load) := fun _ => trivial

theorem Encoding.powerOnBoot (monitorA : Bool) (imagesA : Bool) (monitorB : Bool) (imagesB : Bool) (recordsOk : Bool) (plugins : List (List (BitVec 8))) : Encoding.Statement (.powerOnBoot monitorA imagesA monitorB imagesB recordsOk plugins) := fun _ => trivial

theorem Encoding.imageWrite (slot : Nat) (image : List (BitVec 8) × Option ConfigRecords) (sigOk : Bool) : Encoding.Statement (.imageWrite slot image sigOk) := fun _ => trivial

theorem Encoding.liveUpdate (sigOk : Bool) : Encoding.Statement (.liveUpdate sigOk) := fun _ => trivial

theorem Encoding.updateHeartbeat : Encoding.Statement .updateHeartbeat := fun _ => trivial

theorem Encoding.heartbeatTimeout : Encoding.Statement .heartbeatTimeout := fun _ => trivial

theorem Encoding.pluginTimeout (tenant : Nat) : Encoding.Statement (.pluginTimeout tenant) := fun _ => trivial

theorem Encoding.getVersion : Encoding.Statement .getVersion := fun _ => trivial

theorem Encoding.getCapabilities : Encoding.Statement .getCapabilities := fun _ => trivial

theorem Encoding.negotiateAlgorithms : Encoding.Statement .negotiateAlgorithms := fun _ => trivial

theorem Encoding.getDigests : Encoding.Statement .getDigests := fun _ => trivial

theorem Encoding.getCertificate : Encoding.Statement .getCertificate := fun _ => trivial

theorem Encoding.challenge (nonce : BitVec 256) : Encoding.Statement (.challenge nonce) := fun _ => trivial

theorem Encoding.getMeasurements (ix : Nat) : Encoding.Statement (.getMeasurements ix) := fun _ => trivial

theorem Encoding.wakeFrame (frame : List (BitVec 8)) : Encoding.Statement (.wakeFrame frame) := fun _ => trivial

theorem Encoding.reservedEncoding (code : BitVec 8) : Encoding.Statement (.reservedEncoding code) := fun _ => trivial

theorem Encoding.reservedTypePacket (fn : Nat) (q : Nat) : Encoding.Statement (.reservedTypePacket fn q) := fun _ => trivial

theorem Encoding.discardedFrame (hdr : BitVec 256) (payload : List (BitVec 8)) (crc : BitVec 32) : Encoding.Statement (.discardedFrame hdr payload crc) := fun _ => trivial

theorem Encoding.unreachableClear (dev : BitVec 12) : Encoding.Statement (.unreachableClear dev) := fun _ => trivial

theorem Encoding.powerLoss : Encoding.Statement .powerLoss := fun _ => trivial

theorem Encoding.restoreComplete (ctx : Nat) (bad : List Nat × List Nat) (tagBad : Bool) : Encoding.Statement (.restoreComplete ctx bad tagBad) := fun _ => trivial

theorem Encoding.contextReplay (desc : List (BitVec 8)) (src : Nat × Nat) (log : List LogRec) : Encoding.Statement (.contextReplay desc src log) := fun _ => trivial

theorem Encoding.debuggerAttach (ctx : Nat) (attach : Bool) : Encoding.Statement (.debuggerAttach ctx attach) := fun _ => trivial

theorem Encoding.controlCoreWake : Encoding.Statement .controlCoreWake := fun _ => trivial

end Sys2Proof.Laws
end

