-- ==== Sys2Proof/Laws/State.lean ====
section
/-!
SUPPORT. What each named update of the state leaves alone, field by field.
-/
namespace Sys2Proof.Machine

/-! ## State.updCtx -/

@[simp] theorem updCtx_inputs (s : State) (c : Nat) (f : Ctx → Ctx) : (s.updCtx c f).inputs = s.inputs := rfl
@[simp] theorem updCtx_sched (s : State) (c : Nat) (f : Ctx → Ctx) : (s.updCtx c f).sched = s.sched := rfl
@[simp] theorem updCtx_fresh (s : State) (c : Nat) (f : Ctx → Ctx) : (s.updCtx c f).fresh = s.fresh := rfl
@[simp] theorem updCtx_tick (s : State) (c : Nat) (f : Ctx → Ctx) : (s.updCtx c f).tick = s.tick := rfl
@[simp] theorem updCtx_ns (s : State) (c : Nat) (f : Ctx → Ctx) : (s.updCtx c f).ns = s.ns := rfl
@[simp] theorem updCtx_issue (s : State) (c : Nat) (f : Ctx → Ctx) : (s.updCtx c f).issue = s.issue := rfl
@[simp] theorem updCtx_mem (s : State) (c : Nat) (f : Ctx → Ctx) : (s.updCtx c f).mem = s.mem := rfl
@[simp] theorem updCtx_ecc (s : State) (c : Nat) (f : Ctx → Ctx) : (s.updCtx c f).ecc = s.ecc := rfl
@[simp] theorem updCtx_hostMem (s : State) (c : Nat) (f : Ctx → Ctx) : (s.updCtx c f).hostMem = s.hostMem := rfl
@[simp] theorem updCtx_booted (s : State) (c : Nat) (f : Ctx → Ctx) : (s.updCtx c f).booted = s.booted := rfl
@[simp] theorem updCtx_failedBoot (s : State) (c : Nat) (f : Ctx → Ctx) : (s.updCtx c f).failedBoot = s.failedBoot := rfl
@[simp] theorem updCtx_flash (s : State) (c : Nat) (f : Ctx → Ctx) : (s.updCtx c f).flash = s.flash := rfl
@[simp] theorem updCtx_records (s : State) (c : Nat) (f : Ctx → Ctx) : (s.updCtx c f).records = s.records := rfl
@[simp] theorem updCtx_update (s : State) (c : Nat) (f : Ctx → Ctx) : (s.updCtx c f).update = s.update := rfl
@[simp] theorem updCtx_handover (s : State) (c : Nat) (f : Ctx → Ctx) : (s.updCtx c f).handover = s.handover := rfl
@[simp] theorem updCtx_running (s : State) (c : Nat) (f : Ctx → Ctx) : (s.updCtx c f).running = s.running := rfl
@[simp] theorem updCtx_rootBlock (s : State) (c : Nat) (f : Ctx → Ctx) : (s.updCtx c f).rootBlock = s.rootBlock := rfl
@[simp] theorem updCtx_signing (s : State) (c : Nat) (f : Ctx → Ctx) : (s.updCtx c f).signing = s.signing := rfl
@[simp] theorem updCtx_signs (s : State) (c : Nat) (f : Ctx → Ctx) : (s.updCtx c f).signs = s.signs := rfl
@[simp] theorem updCtx_heldTeardowns (s : State) (c : Nat) (f : Ctx → Ctx) : (s.updCtx c f).heldTeardowns = s.heldTeardowns := rfl
@[simp] theorem updCtx_heldResets (s : State) (c : Nat) (f : Ctx → Ctx) : (s.updCtx c f).heldResets = s.heldResets := rfl
@[simp] theorem updCtx_unplugged (s : State) (c : Nat) (f : Ctx → Ctx) : (s.updCtx c f).unplugged = s.unplugged := rfl
@[simp] theorem updCtx_measured (s : State) (c : Nat) (f : Ctx → Ctx) : (s.updCtx c f).measured = s.measured := rfl
@[simp] theorem updCtx_attachedEver (s : State) (c : Nat) (f : Ctx → Ctx) : (s.updCtx c f).attachedEver = s.attachedEver := rfl
@[simp] theorem updCtx_debuggers (s : State) (c : Nat) (f : Ctx → Ctx) : (s.updCtx c f).debuggers = s.debuggers := rfl
@[simp] theorem updCtx_gated (s : State) (c : Nat) (f : Ctx → Ctx) : (s.updCtx c f).gated = s.gated := rfl
@[simp] theorem updCtx_wakeFilter (s : State) (c : Nat) (f : Ctx → Ctx) : (s.updCtx c f).wakeFilter = s.wakeFilter := rfl
@[simp] theorem updCtx_wakeHeld (s : State) (c : Nat) (f : Ctx → Ctx) : (s.updCtx c f).wakeHeld = s.wakeHeld := rfl
@[simp] theorem updCtx_wakeDropped (s : State) (c : Nat) (f : Ctx → Ctx) : (s.updCtx c f).wakeDropped = s.wakeDropped := rfl
@[simp] theorem updCtx_answers (s : State) (c : Nat) (f : Ctx → Ctx) : (s.updCtx c f).answers = s.answers := rfl
@[simp] theorem updCtx_notices (s : State) (c : Nat) (f : Ctx → Ctx) : (s.updCtx c f).notices = s.notices := rfl
@[simp] theorem updCtx_pcap (s : State) (c : Nat) (f : Ctx → Ctx) : (s.updCtx c f).pcap = s.pcap := rfl
@[simp] theorem updCtx_meter (s : State) (c : Nat) (f : Ctx → Ctx) : (s.updCtx c f).meter = s.meter := rfl
@[simp] theorem updCtx_dies (s : State) (c : Nat) (f : Ctx → Ctx) : (s.updCtx c f).dies = s.dies := rfl
@[simp] theorem updCtx_quarters (s : State) (c : Nat) (f : Ctx → Ctx) : (s.updCtx c f).quarters = s.quarters := rfl
@[simp] theorem updCtx_cores (s : State) (c : Nat) (f : Ctx → Ctx) : (s.updCtx c f).cores = s.cores := rfl
@[simp] theorem updCtx_launches (s : State) (c : Nat) (f : Ctx → Ctx) : (s.updCtx c f).launches = s.launches := rfl
@[simp] theorem updCtx_clusters (s : State) (c : Nat) (f : Ctx → Ctx) : (s.updCtx c f).clusters = s.clusters := rfl
@[simp] theorem updCtx_teams (s : State) (c : Nat) (f : Ctx → Ctx) : (s.updCtx c f).teams = s.teams := rfl
@[simp] theorem updCtx_killRecs (s : State) (c : Nat) (f : Ctx → Ctx) : (s.updCtx c f).killRecs = s.killRecs := rfl
@[simp] theorem updCtx_fwHeld (s : State) (c : Nat) (f : Ctx → Ctx) : (s.updCtx c f).fwHeld = s.fwHeld := rfl
@[simp] theorem updCtx_serial (s : State) (c : Nat) (f : Ctx → Ctx) : (s.updCtx c f).serial = s.serial := rfl
@[simp] theorem updCtx_objs (s : State) (c : Nat) (f : Ctx → Ctx) : (s.updCtx c f).objs = s.objs := rfl
@[simp] theorem updCtx_queues (s : State) (c : Nat) (f : Ctx → Ctx) : (s.updCtx c f).queues = s.queues := rfl
@[simp] theorem updCtx_taskqs (s : State) (c : Nat) (f : Ctx → Ctx) : (s.updCtx c f).taskqs = s.taskqs := rfl
@[simp] theorem updCtx_tenants (s : State) (c : Nat) (f : Ctx → Ctx) : (s.updCtx c f).tenants = s.tenants := rfl
@[simp] theorem updCtx_prqbase (s : State) (c : Nat) (f : Ctx → Ctx) : (s.updCtx c f).prqbase = s.prqbase := rfl
@[simp] theorem updCtx_prqwr (s : State) (c : Nat) (f : Ctx → Ctx) : (s.updCtx c f).prqwr = s.prqwr := rfl
@[simp] theorem updCtx_prqrd (s : State) (c : Nat) (f : Ctx → Ctx) : (s.updCtx c f).prqrd = s.prqrd := rfl
@[simp] theorem updCtx_prqHeld (s : State) (c : Nat) (f : Ctx → Ctx) : (s.updCtx c f).prqHeld = s.prqHeld := rfl
@[simp] theorem updCtx_pageReqs (s : State) (c : Nat) (f : Ctx → Ctx) : (s.updCtx c f).pageReqs = s.pageReqs := rfl
@[simp] theorem updCtx_frames (s : State) (c : Nat) (f : Ctx → Ctx) : (s.updCtx c f).frames = s.frames := rfl
@[simp] theorem updCtx_frameErr (s : State) (c : Nat) (f : Ctx → Ctx) : (s.updCtx c f).frameErr = s.frameErr := rfl
@[simp] theorem updCtx_sluiceEpoch (s : State) (c : Nat) (f : Ctx → Ctx) : (s.updCtx c f).sluiceEpoch = s.sluiceEpoch := rfl
@[simp] theorem updCtx_sluiceThresh (s : State) (c : Nat) (f : Ctx → Ctx) : (s.updCtx c f).sluiceThresh = s.sluiceThresh := rfl
@[simp] theorem updCtx_sluiceQmax (s : State) (c : Nat) (f : Ctx → Ctx) : (s.updCtx c f).sluiceQmax = s.sluiceQmax := rfl
@[simp] theorem updCtx_sluiceWater (s : State) (c : Nat) (f : Ctx → Ctx) : (s.updCtx c f).sluiceWater = s.sluiceWater := rfl
@[simp] theorem updCtx_sluiceMaxrepl (s : State) (c : Nat) (f : Ctx → Ctx) : (s.updCtx c f).sluiceMaxrepl = s.sluiceMaxrepl := rfl
@[simp] theorem updCtx_rangeInvs (s : State) (c : Nat) (f : Ctx → Ctx) : (s.updCtx c f).rangeInvs = s.rangeInvs := rfl
@[simp] theorem updCtx_migrations (s : State) (c : Nat) (f : Ctx → Ctx) : (s.updCtx c f).migrations = s.migrations := rfl
@[simp] theorem updCtx_ports (s : State) (c : Nat) (f : Ctx → Ctx) : (s.updCtx c f).ports = s.ports := rfl
@[simp] theorem updCtx_routes (s : State) (c : Nat) (f : Ctx → Ctx) : (s.updCtx c f).routes = s.routes := rfl
@[simp] theorem updCtx_txNext (s : State) (c : Nat) (f : Ctx → Ctx) : (s.updCtx c f).txNext = s.txNext := rfl
@[simp] theorem updCtx_sent (s : State) (c : Nat) (f : Ctx → Ctx) : (s.updCtx c f).sent = s.sent := rfl
@[simp] theorem updCtx_loopback (s : State) (c : Nat) (f : Ctx → Ctx) : (s.updCtx c f).loopback = s.loopback := rfl
@[simp] theorem updCtx_heldFrames (s : State) (c : Nat) (f : Ctx → Ctx) : (s.updCtx c f).heldFrames = s.heldFrames := rfl
@[simp] theorem updCtx_rx (s : State) (c : Nat) (f : Ctx → Ctx) : (s.updCtx c f).rx = s.rx := rfl
@[simp] theorem updCtx_remotes (s : State) (c : Nat) (f : Ctx → Ctx) : (s.updCtx c f).remotes = s.remotes := rfl
@[simp] theorem updCtx_taskAsks (s : State) (c : Nat) (f : Ctx → Ctx) : (s.updCtx c f).taskAsks = s.taskAsks := rfl
@[simp] theorem updCtx_nextTx (s : State) (c : Nat) (f : Ctx → Ctx) : (s.updCtx c f).nextTx = s.nextTx := rfl
@[simp] theorem updCtx_unreachable (s : State) (c : Nat) (f : Ctx → Ctx) : (s.updCtx c f).unreachable = s.unreachable := rfl
@[simp] theorem updCtx_detours (s : State) (c : Nat) (f : Ctx → Ctx) : (s.updCtx c f).detours = s.detours := rfl

/-! ## State.updLaunch -/

@[simp] theorem updLaunch_inputs (s : State) (l : Nat) (f : Launch → Launch) : (s.updLaunch l f).inputs = s.inputs := rfl
@[simp] theorem updLaunch_sched (s : State) (l : Nat) (f : Launch → Launch) : (s.updLaunch l f).sched = s.sched := rfl
@[simp] theorem updLaunch_fresh (s : State) (l : Nat) (f : Launch → Launch) : (s.updLaunch l f).fresh = s.fresh := rfl
@[simp] theorem updLaunch_tick (s : State) (l : Nat) (f : Launch → Launch) : (s.updLaunch l f).tick = s.tick := rfl
@[simp] theorem updLaunch_ns (s : State) (l : Nat) (f : Launch → Launch) : (s.updLaunch l f).ns = s.ns := rfl
@[simp] theorem updLaunch_issue (s : State) (l : Nat) (f : Launch → Launch) : (s.updLaunch l f).issue = s.issue := rfl
@[simp] theorem updLaunch_mem (s : State) (l : Nat) (f : Launch → Launch) : (s.updLaunch l f).mem = s.mem := rfl
@[simp] theorem updLaunch_ecc (s : State) (l : Nat) (f : Launch → Launch) : (s.updLaunch l f).ecc = s.ecc := rfl
@[simp] theorem updLaunch_hostMem (s : State) (l : Nat) (f : Launch → Launch) : (s.updLaunch l f).hostMem = s.hostMem := rfl
@[simp] theorem updLaunch_booted (s : State) (l : Nat) (f : Launch → Launch) : (s.updLaunch l f).booted = s.booted := rfl
@[simp] theorem updLaunch_failedBoot (s : State) (l : Nat) (f : Launch → Launch) : (s.updLaunch l f).failedBoot = s.failedBoot := rfl
@[simp] theorem updLaunch_flash (s : State) (l : Nat) (f : Launch → Launch) : (s.updLaunch l f).flash = s.flash := rfl
@[simp] theorem updLaunch_records (s : State) (l : Nat) (f : Launch → Launch) : (s.updLaunch l f).records = s.records := rfl
@[simp] theorem updLaunch_update (s : State) (l : Nat) (f : Launch → Launch) : (s.updLaunch l f).update = s.update := rfl
@[simp] theorem updLaunch_handover (s : State) (l : Nat) (f : Launch → Launch) : (s.updLaunch l f).handover = s.handover := rfl
@[simp] theorem updLaunch_running (s : State) (l : Nat) (f : Launch → Launch) : (s.updLaunch l f).running = s.running := rfl
@[simp] theorem updLaunch_rootBlock (s : State) (l : Nat) (f : Launch → Launch) : (s.updLaunch l f).rootBlock = s.rootBlock := rfl
@[simp] theorem updLaunch_signing (s : State) (l : Nat) (f : Launch → Launch) : (s.updLaunch l f).signing = s.signing := rfl
@[simp] theorem updLaunch_signs (s : State) (l : Nat) (f : Launch → Launch) : (s.updLaunch l f).signs = s.signs := rfl
@[simp] theorem updLaunch_heldTeardowns (s : State) (l : Nat) (f : Launch → Launch) : (s.updLaunch l f).heldTeardowns = s.heldTeardowns := rfl
@[simp] theorem updLaunch_heldResets (s : State) (l : Nat) (f : Launch → Launch) : (s.updLaunch l f).heldResets = s.heldResets := rfl
@[simp] theorem updLaunch_unplugged (s : State) (l : Nat) (f : Launch → Launch) : (s.updLaunch l f).unplugged = s.unplugged := rfl
@[simp] theorem updLaunch_measured (s : State) (l : Nat) (f : Launch → Launch) : (s.updLaunch l f).measured = s.measured := rfl
@[simp] theorem updLaunch_attachedEver (s : State) (l : Nat) (f : Launch → Launch) : (s.updLaunch l f).attachedEver = s.attachedEver := rfl
@[simp] theorem updLaunch_debuggers (s : State) (l : Nat) (f : Launch → Launch) : (s.updLaunch l f).debuggers = s.debuggers := rfl
@[simp] theorem updLaunch_gated (s : State) (l : Nat) (f : Launch → Launch) : (s.updLaunch l f).gated = s.gated := rfl
@[simp] theorem updLaunch_wakeFilter (s : State) (l : Nat) (f : Launch → Launch) : (s.updLaunch l f).wakeFilter = s.wakeFilter := rfl
@[simp] theorem updLaunch_wakeHeld (s : State) (l : Nat) (f : Launch → Launch) : (s.updLaunch l f).wakeHeld = s.wakeHeld := rfl
@[simp] theorem updLaunch_wakeDropped (s : State) (l : Nat) (f : Launch → Launch) : (s.updLaunch l f).wakeDropped = s.wakeDropped := rfl
@[simp] theorem updLaunch_answers (s : State) (l : Nat) (f : Launch → Launch) : (s.updLaunch l f).answers = s.answers := rfl
@[simp] theorem updLaunch_notices (s : State) (l : Nat) (f : Launch → Launch) : (s.updLaunch l f).notices = s.notices := rfl
@[simp] theorem updLaunch_pcap (s : State) (l : Nat) (f : Launch → Launch) : (s.updLaunch l f).pcap = s.pcap := rfl
@[simp] theorem updLaunch_meter (s : State) (l : Nat) (f : Launch → Launch) : (s.updLaunch l f).meter = s.meter := rfl
@[simp] theorem updLaunch_dies (s : State) (l : Nat) (f : Launch → Launch) : (s.updLaunch l f).dies = s.dies := rfl
@[simp] theorem updLaunch_quarters (s : State) (l : Nat) (f : Launch → Launch) : (s.updLaunch l f).quarters = s.quarters := rfl
@[simp] theorem updLaunch_cores (s : State) (l : Nat) (f : Launch → Launch) : (s.updLaunch l f).cores = s.cores := rfl
@[simp] theorem updLaunch_ctxs (s : State) (l : Nat) (f : Launch → Launch) : (s.updLaunch l f).ctxs = s.ctxs := rfl
@[simp] theorem updLaunch_clusters (s : State) (l : Nat) (f : Launch → Launch) : (s.updLaunch l f).clusters = s.clusters := rfl
@[simp] theorem updLaunch_teams (s : State) (l : Nat) (f : Launch → Launch) : (s.updLaunch l f).teams = s.teams := rfl
@[simp] theorem updLaunch_killRecs (s : State) (l : Nat) (f : Launch → Launch) : (s.updLaunch l f).killRecs = s.killRecs := rfl
@[simp] theorem updLaunch_fwHeld (s : State) (l : Nat) (f : Launch → Launch) : (s.updLaunch l f).fwHeld = s.fwHeld := rfl
@[simp] theorem updLaunch_serial (s : State) (l : Nat) (f : Launch → Launch) : (s.updLaunch l f).serial = s.serial := rfl
@[simp] theorem updLaunch_objs (s : State) (l : Nat) (f : Launch → Launch) : (s.updLaunch l f).objs = s.objs := rfl
@[simp] theorem updLaunch_queues (s : State) (l : Nat) (f : Launch → Launch) : (s.updLaunch l f).queues = s.queues := rfl
@[simp] theorem updLaunch_taskqs (s : State) (l : Nat) (f : Launch → Launch) : (s.updLaunch l f).taskqs = s.taskqs := rfl
@[simp] theorem updLaunch_tenants (s : State) (l : Nat) (f : Launch → Launch) : (s.updLaunch l f).tenants = s.tenants := rfl
@[simp] theorem updLaunch_prqbase (s : State) (l : Nat) (f : Launch → Launch) : (s.updLaunch l f).prqbase = s.prqbase := rfl
@[simp] theorem updLaunch_prqwr (s : State) (l : Nat) (f : Launch → Launch) : (s.updLaunch l f).prqwr = s.prqwr := rfl
@[simp] theorem updLaunch_prqrd (s : State) (l : Nat) (f : Launch → Launch) : (s.updLaunch l f).prqrd = s.prqrd := rfl
@[simp] theorem updLaunch_prqHeld (s : State) (l : Nat) (f : Launch → Launch) : (s.updLaunch l f).prqHeld = s.prqHeld := rfl
@[simp] theorem updLaunch_pageReqs (s : State) (l : Nat) (f : Launch → Launch) : (s.updLaunch l f).pageReqs = s.pageReqs := rfl
@[simp] theorem updLaunch_frames (s : State) (l : Nat) (f : Launch → Launch) : (s.updLaunch l f).frames = s.frames := rfl
@[simp] theorem updLaunch_frameErr (s : State) (l : Nat) (f : Launch → Launch) : (s.updLaunch l f).frameErr = s.frameErr := rfl
@[simp] theorem updLaunch_sluiceEpoch (s : State) (l : Nat) (f : Launch → Launch) : (s.updLaunch l f).sluiceEpoch = s.sluiceEpoch := rfl
@[simp] theorem updLaunch_sluiceThresh (s : State) (l : Nat) (f : Launch → Launch) : (s.updLaunch l f).sluiceThresh = s.sluiceThresh := rfl
@[simp] theorem updLaunch_sluiceQmax (s : State) (l : Nat) (f : Launch → Launch) : (s.updLaunch l f).sluiceQmax = s.sluiceQmax := rfl
@[simp] theorem updLaunch_sluiceWater (s : State) (l : Nat) (f : Launch → Launch) : (s.updLaunch l f).sluiceWater = s.sluiceWater := rfl
@[simp] theorem updLaunch_sluiceMaxrepl (s : State) (l : Nat) (f : Launch → Launch) : (s.updLaunch l f).sluiceMaxrepl = s.sluiceMaxrepl := rfl
@[simp] theorem updLaunch_rangeInvs (s : State) (l : Nat) (f : Launch → Launch) : (s.updLaunch l f).rangeInvs = s.rangeInvs := rfl
@[simp] theorem updLaunch_migrations (s : State) (l : Nat) (f : Launch → Launch) : (s.updLaunch l f).migrations = s.migrations := rfl
@[simp] theorem updLaunch_ports (s : State) (l : Nat) (f : Launch → Launch) : (s.updLaunch l f).ports = s.ports := rfl
@[simp] theorem updLaunch_routes (s : State) (l : Nat) (f : Launch → Launch) : (s.updLaunch l f).routes = s.routes := rfl
@[simp] theorem updLaunch_txNext (s : State) (l : Nat) (f : Launch → Launch) : (s.updLaunch l f).txNext = s.txNext := rfl
@[simp] theorem updLaunch_sent (s : State) (l : Nat) (f : Launch → Launch) : (s.updLaunch l f).sent = s.sent := rfl
@[simp] theorem updLaunch_loopback (s : State) (l : Nat) (f : Launch → Launch) : (s.updLaunch l f).loopback = s.loopback := rfl
@[simp] theorem updLaunch_heldFrames (s : State) (l : Nat) (f : Launch → Launch) : (s.updLaunch l f).heldFrames = s.heldFrames := rfl
@[simp] theorem updLaunch_rx (s : State) (l : Nat) (f : Launch → Launch) : (s.updLaunch l f).rx = s.rx := rfl
@[simp] theorem updLaunch_remotes (s : State) (l : Nat) (f : Launch → Launch) : (s.updLaunch l f).remotes = s.remotes := rfl
@[simp] theorem updLaunch_taskAsks (s : State) (l : Nat) (f : Launch → Launch) : (s.updLaunch l f).taskAsks = s.taskAsks := rfl
@[simp] theorem updLaunch_nextTx (s : State) (l : Nat) (f : Launch → Launch) : (s.updLaunch l f).nextTx = s.nextTx := rfl
@[simp] theorem updLaunch_unreachable (s : State) (l : Nat) (f : Launch → Launch) : (s.updLaunch l f).unreachable = s.unreachable := rfl
@[simp] theorem updLaunch_detours (s : State) (l : Nat) (f : Launch → Launch) : (s.updLaunch l f).detours = s.detours := rfl

/-! ## State.updCluster -/

@[simp] theorem updCluster_inputs (s : State) (l c : Nat) (f : Cluster → Cluster) : (s.updCluster l c f).inputs = s.inputs := rfl
@[simp] theorem updCluster_sched (s : State) (l c : Nat) (f : Cluster → Cluster) : (s.updCluster l c f).sched = s.sched := rfl
@[simp] theorem updCluster_fresh (s : State) (l c : Nat) (f : Cluster → Cluster) : (s.updCluster l c f).fresh = s.fresh := rfl
@[simp] theorem updCluster_tick (s : State) (l c : Nat) (f : Cluster → Cluster) : (s.updCluster l c f).tick = s.tick := rfl
@[simp] theorem updCluster_ns (s : State) (l c : Nat) (f : Cluster → Cluster) : (s.updCluster l c f).ns = s.ns := rfl
@[simp] theorem updCluster_issue (s : State) (l c : Nat) (f : Cluster → Cluster) : (s.updCluster l c f).issue = s.issue := rfl
@[simp] theorem updCluster_mem (s : State) (l c : Nat) (f : Cluster → Cluster) : (s.updCluster l c f).mem = s.mem := rfl
@[simp] theorem updCluster_ecc (s : State) (l c : Nat) (f : Cluster → Cluster) : (s.updCluster l c f).ecc = s.ecc := rfl
@[simp] theorem updCluster_hostMem (s : State) (l c : Nat) (f : Cluster → Cluster) : (s.updCluster l c f).hostMem = s.hostMem := rfl
@[simp] theorem updCluster_booted (s : State) (l c : Nat) (f : Cluster → Cluster) : (s.updCluster l c f).booted = s.booted := rfl
@[simp] theorem updCluster_failedBoot (s : State) (l c : Nat) (f : Cluster → Cluster) : (s.updCluster l c f).failedBoot = s.failedBoot := rfl
@[simp] theorem updCluster_flash (s : State) (l c : Nat) (f : Cluster → Cluster) : (s.updCluster l c f).flash = s.flash := rfl
@[simp] theorem updCluster_records (s : State) (l c : Nat) (f : Cluster → Cluster) : (s.updCluster l c f).records = s.records := rfl
@[simp] theorem updCluster_update (s : State) (l c : Nat) (f : Cluster → Cluster) : (s.updCluster l c f).update = s.update := rfl
@[simp] theorem updCluster_handover (s : State) (l c : Nat) (f : Cluster → Cluster) : (s.updCluster l c f).handover = s.handover := rfl
@[simp] theorem updCluster_running (s : State) (l c : Nat) (f : Cluster → Cluster) : (s.updCluster l c f).running = s.running := rfl
@[simp] theorem updCluster_rootBlock (s : State) (l c : Nat) (f : Cluster → Cluster) : (s.updCluster l c f).rootBlock = s.rootBlock := rfl
@[simp] theorem updCluster_signing (s : State) (l c : Nat) (f : Cluster → Cluster) : (s.updCluster l c f).signing = s.signing := rfl
@[simp] theorem updCluster_signs (s : State) (l c : Nat) (f : Cluster → Cluster) : (s.updCluster l c f).signs = s.signs := rfl
@[simp] theorem updCluster_heldTeardowns (s : State) (l c : Nat) (f : Cluster → Cluster) : (s.updCluster l c f).heldTeardowns = s.heldTeardowns := rfl
@[simp] theorem updCluster_heldResets (s : State) (l c : Nat) (f : Cluster → Cluster) : (s.updCluster l c f).heldResets = s.heldResets := rfl
@[simp] theorem updCluster_unplugged (s : State) (l c : Nat) (f : Cluster → Cluster) : (s.updCluster l c f).unplugged = s.unplugged := rfl
@[simp] theorem updCluster_measured (s : State) (l c : Nat) (f : Cluster → Cluster) : (s.updCluster l c f).measured = s.measured := rfl
@[simp] theorem updCluster_attachedEver (s : State) (l c : Nat) (f : Cluster → Cluster) : (s.updCluster l c f).attachedEver = s.attachedEver := rfl
@[simp] theorem updCluster_debuggers (s : State) (l c : Nat) (f : Cluster → Cluster) : (s.updCluster l c f).debuggers = s.debuggers := rfl
@[simp] theorem updCluster_gated (s : State) (l c : Nat) (f : Cluster → Cluster) : (s.updCluster l c f).gated = s.gated := rfl
@[simp] theorem updCluster_wakeFilter (s : State) (l c : Nat) (f : Cluster → Cluster) : (s.updCluster l c f).wakeFilter = s.wakeFilter := rfl
@[simp] theorem updCluster_wakeHeld (s : State) (l c : Nat) (f : Cluster → Cluster) : (s.updCluster l c f).wakeHeld = s.wakeHeld := rfl
@[simp] theorem updCluster_wakeDropped (s : State) (l c : Nat) (f : Cluster → Cluster) : (s.updCluster l c f).wakeDropped = s.wakeDropped := rfl
@[simp] theorem updCluster_answers (s : State) (l c : Nat) (f : Cluster → Cluster) : (s.updCluster l c f).answers = s.answers := rfl
@[simp] theorem updCluster_notices (s : State) (l c : Nat) (f : Cluster → Cluster) : (s.updCluster l c f).notices = s.notices := rfl
@[simp] theorem updCluster_pcap (s : State) (l c : Nat) (f : Cluster → Cluster) : (s.updCluster l c f).pcap = s.pcap := rfl
@[simp] theorem updCluster_meter (s : State) (l c : Nat) (f : Cluster → Cluster) : (s.updCluster l c f).meter = s.meter := rfl
@[simp] theorem updCluster_dies (s : State) (l c : Nat) (f : Cluster → Cluster) : (s.updCluster l c f).dies = s.dies := rfl
@[simp] theorem updCluster_quarters (s : State) (l c : Nat) (f : Cluster → Cluster) : (s.updCluster l c f).quarters = s.quarters := rfl
@[simp] theorem updCluster_cores (s : State) (l c : Nat) (f : Cluster → Cluster) : (s.updCluster l c f).cores = s.cores := rfl
@[simp] theorem updCluster_ctxs (s : State) (l c : Nat) (f : Cluster → Cluster) : (s.updCluster l c f).ctxs = s.ctxs := rfl
@[simp] theorem updCluster_launches (s : State) (l c : Nat) (f : Cluster → Cluster) : (s.updCluster l c f).launches = s.launches := rfl
@[simp] theorem updCluster_teams (s : State) (l c : Nat) (f : Cluster → Cluster) : (s.updCluster l c f).teams = s.teams := rfl
@[simp] theorem updCluster_killRecs (s : State) (l c : Nat) (f : Cluster → Cluster) : (s.updCluster l c f).killRecs = s.killRecs := rfl
@[simp] theorem updCluster_fwHeld (s : State) (l c : Nat) (f : Cluster → Cluster) : (s.updCluster l c f).fwHeld = s.fwHeld := rfl
@[simp] theorem updCluster_serial (s : State) (l c : Nat) (f : Cluster → Cluster) : (s.updCluster l c f).serial = s.serial := rfl
@[simp] theorem updCluster_objs (s : State) (l c : Nat) (f : Cluster → Cluster) : (s.updCluster l c f).objs = s.objs := rfl
@[simp] theorem updCluster_queues (s : State) (l c : Nat) (f : Cluster → Cluster) : (s.updCluster l c f).queues = s.queues := rfl
@[simp] theorem updCluster_taskqs (s : State) (l c : Nat) (f : Cluster → Cluster) : (s.updCluster l c f).taskqs = s.taskqs := rfl
@[simp] theorem updCluster_tenants (s : State) (l c : Nat) (f : Cluster → Cluster) : (s.updCluster l c f).tenants = s.tenants := rfl
@[simp] theorem updCluster_prqbase (s : State) (l c : Nat) (f : Cluster → Cluster) : (s.updCluster l c f).prqbase = s.prqbase := rfl
@[simp] theorem updCluster_prqwr (s : State) (l c : Nat) (f : Cluster → Cluster) : (s.updCluster l c f).prqwr = s.prqwr := rfl
@[simp] theorem updCluster_prqrd (s : State) (l c : Nat) (f : Cluster → Cluster) : (s.updCluster l c f).prqrd = s.prqrd := rfl
@[simp] theorem updCluster_prqHeld (s : State) (l c : Nat) (f : Cluster → Cluster) : (s.updCluster l c f).prqHeld = s.prqHeld := rfl
@[simp] theorem updCluster_pageReqs (s : State) (l c : Nat) (f : Cluster → Cluster) : (s.updCluster l c f).pageReqs = s.pageReqs := rfl
@[simp] theorem updCluster_frames (s : State) (l c : Nat) (f : Cluster → Cluster) : (s.updCluster l c f).frames = s.frames := rfl
@[simp] theorem updCluster_frameErr (s : State) (l c : Nat) (f : Cluster → Cluster) : (s.updCluster l c f).frameErr = s.frameErr := rfl
@[simp] theorem updCluster_sluiceEpoch (s : State) (l c : Nat) (f : Cluster → Cluster) : (s.updCluster l c f).sluiceEpoch = s.sluiceEpoch := rfl
@[simp] theorem updCluster_sluiceThresh (s : State) (l c : Nat) (f : Cluster → Cluster) : (s.updCluster l c f).sluiceThresh = s.sluiceThresh := rfl
@[simp] theorem updCluster_sluiceQmax (s : State) (l c : Nat) (f : Cluster → Cluster) : (s.updCluster l c f).sluiceQmax = s.sluiceQmax := rfl
@[simp] theorem updCluster_sluiceWater (s : State) (l c : Nat) (f : Cluster → Cluster) : (s.updCluster l c f).sluiceWater = s.sluiceWater := rfl
@[simp] theorem updCluster_sluiceMaxrepl (s : State) (l c : Nat) (f : Cluster → Cluster) : (s.updCluster l c f).sluiceMaxrepl = s.sluiceMaxrepl := rfl
@[simp] theorem updCluster_rangeInvs (s : State) (l c : Nat) (f : Cluster → Cluster) : (s.updCluster l c f).rangeInvs = s.rangeInvs := rfl
@[simp] theorem updCluster_migrations (s : State) (l c : Nat) (f : Cluster → Cluster) : (s.updCluster l c f).migrations = s.migrations := rfl
@[simp] theorem updCluster_ports (s : State) (l c : Nat) (f : Cluster → Cluster) : (s.updCluster l c f).ports = s.ports := rfl
@[simp] theorem updCluster_routes (s : State) (l c : Nat) (f : Cluster → Cluster) : (s.updCluster l c f).routes = s.routes := rfl
@[simp] theorem updCluster_txNext (s : State) (l c : Nat) (f : Cluster → Cluster) : (s.updCluster l c f).txNext = s.txNext := rfl
@[simp] theorem updCluster_sent (s : State) (l c : Nat) (f : Cluster → Cluster) : (s.updCluster l c f).sent = s.sent := rfl
@[simp] theorem updCluster_loopback (s : State) (l c : Nat) (f : Cluster → Cluster) : (s.updCluster l c f).loopback = s.loopback := rfl
@[simp] theorem updCluster_heldFrames (s : State) (l c : Nat) (f : Cluster → Cluster) : (s.updCluster l c f).heldFrames = s.heldFrames := rfl
@[simp] theorem updCluster_rx (s : State) (l c : Nat) (f : Cluster → Cluster) : (s.updCluster l c f).rx = s.rx := rfl
@[simp] theorem updCluster_remotes (s : State) (l c : Nat) (f : Cluster → Cluster) : (s.updCluster l c f).remotes = s.remotes := rfl
@[simp] theorem updCluster_taskAsks (s : State) (l c : Nat) (f : Cluster → Cluster) : (s.updCluster l c f).taskAsks = s.taskAsks := rfl
@[simp] theorem updCluster_nextTx (s : State) (l c : Nat) (f : Cluster → Cluster) : (s.updCluster l c f).nextTx = s.nextTx := rfl
@[simp] theorem updCluster_unreachable (s : State) (l c : Nat) (f : Cluster → Cluster) : (s.updCluster l c f).unreachable = s.unreachable := rfl
@[simp] theorem updCluster_detours (s : State) (l c : Nat) (f : Cluster → Cluster) : (s.updCluster l c f).detours = s.detours := rfl

/-! ## State.updTeam -/

@[simp] theorem updTeam_inputs (s : State) (t : Nat) (f : Team → Team) : (s.updTeam t f).inputs = s.inputs := rfl
@[simp] theorem updTeam_sched (s : State) (t : Nat) (f : Team → Team) : (s.updTeam t f).sched = s.sched := rfl
@[simp] theorem updTeam_fresh (s : State) (t : Nat) (f : Team → Team) : (s.updTeam t f).fresh = s.fresh := rfl
@[simp] theorem updTeam_tick (s : State) (t : Nat) (f : Team → Team) : (s.updTeam t f).tick = s.tick := rfl
@[simp] theorem updTeam_ns (s : State) (t : Nat) (f : Team → Team) : (s.updTeam t f).ns = s.ns := rfl
@[simp] theorem updTeam_issue (s : State) (t : Nat) (f : Team → Team) : (s.updTeam t f).issue = s.issue := rfl
@[simp] theorem updTeam_mem (s : State) (t : Nat) (f : Team → Team) : (s.updTeam t f).mem = s.mem := rfl
@[simp] theorem updTeam_ecc (s : State) (t : Nat) (f : Team → Team) : (s.updTeam t f).ecc = s.ecc := rfl
@[simp] theorem updTeam_hostMem (s : State) (t : Nat) (f : Team → Team) : (s.updTeam t f).hostMem = s.hostMem := rfl
@[simp] theorem updTeam_booted (s : State) (t : Nat) (f : Team → Team) : (s.updTeam t f).booted = s.booted := rfl
@[simp] theorem updTeam_failedBoot (s : State) (t : Nat) (f : Team → Team) : (s.updTeam t f).failedBoot = s.failedBoot := rfl
@[simp] theorem updTeam_flash (s : State) (t : Nat) (f : Team → Team) : (s.updTeam t f).flash = s.flash := rfl
@[simp] theorem updTeam_records (s : State) (t : Nat) (f : Team → Team) : (s.updTeam t f).records = s.records := rfl
@[simp] theorem updTeam_update (s : State) (t : Nat) (f : Team → Team) : (s.updTeam t f).update = s.update := rfl
@[simp] theorem updTeam_handover (s : State) (t : Nat) (f : Team → Team) : (s.updTeam t f).handover = s.handover := rfl
@[simp] theorem updTeam_running (s : State) (t : Nat) (f : Team → Team) : (s.updTeam t f).running = s.running := rfl
@[simp] theorem updTeam_rootBlock (s : State) (t : Nat) (f : Team → Team) : (s.updTeam t f).rootBlock = s.rootBlock := rfl
@[simp] theorem updTeam_signing (s : State) (t : Nat) (f : Team → Team) : (s.updTeam t f).signing = s.signing := rfl
@[simp] theorem updTeam_signs (s : State) (t : Nat) (f : Team → Team) : (s.updTeam t f).signs = s.signs := rfl
@[simp] theorem updTeam_heldTeardowns (s : State) (t : Nat) (f : Team → Team) : (s.updTeam t f).heldTeardowns = s.heldTeardowns := rfl
@[simp] theorem updTeam_heldResets (s : State) (t : Nat) (f : Team → Team) : (s.updTeam t f).heldResets = s.heldResets := rfl
@[simp] theorem updTeam_unplugged (s : State) (t : Nat) (f : Team → Team) : (s.updTeam t f).unplugged = s.unplugged := rfl
@[simp] theorem updTeam_measured (s : State) (t : Nat) (f : Team → Team) : (s.updTeam t f).measured = s.measured := rfl
@[simp] theorem updTeam_attachedEver (s : State) (t : Nat) (f : Team → Team) : (s.updTeam t f).attachedEver = s.attachedEver := rfl
@[simp] theorem updTeam_debuggers (s : State) (t : Nat) (f : Team → Team) : (s.updTeam t f).debuggers = s.debuggers := rfl
@[simp] theorem updTeam_gated (s : State) (t : Nat) (f : Team → Team) : (s.updTeam t f).gated = s.gated := rfl
@[simp] theorem updTeam_wakeFilter (s : State) (t : Nat) (f : Team → Team) : (s.updTeam t f).wakeFilter = s.wakeFilter := rfl
@[simp] theorem updTeam_wakeHeld (s : State) (t : Nat) (f : Team → Team) : (s.updTeam t f).wakeHeld = s.wakeHeld := rfl
@[simp] theorem updTeam_wakeDropped (s : State) (t : Nat) (f : Team → Team) : (s.updTeam t f).wakeDropped = s.wakeDropped := rfl
@[simp] theorem updTeam_answers (s : State) (t : Nat) (f : Team → Team) : (s.updTeam t f).answers = s.answers := rfl
@[simp] theorem updTeam_notices (s : State) (t : Nat) (f : Team → Team) : (s.updTeam t f).notices = s.notices := rfl
@[simp] theorem updTeam_pcap (s : State) (t : Nat) (f : Team → Team) : (s.updTeam t f).pcap = s.pcap := rfl
@[simp] theorem updTeam_meter (s : State) (t : Nat) (f : Team → Team) : (s.updTeam t f).meter = s.meter := rfl
@[simp] theorem updTeam_dies (s : State) (t : Nat) (f : Team → Team) : (s.updTeam t f).dies = s.dies := rfl
@[simp] theorem updTeam_quarters (s : State) (t : Nat) (f : Team → Team) : (s.updTeam t f).quarters = s.quarters := rfl
@[simp] theorem updTeam_cores (s : State) (t : Nat) (f : Team → Team) : (s.updTeam t f).cores = s.cores := rfl
@[simp] theorem updTeam_ctxs (s : State) (t : Nat) (f : Team → Team) : (s.updTeam t f).ctxs = s.ctxs := rfl
@[simp] theorem updTeam_launches (s : State) (t : Nat) (f : Team → Team) : (s.updTeam t f).launches = s.launches := rfl
@[simp] theorem updTeam_clusters (s : State) (t : Nat) (f : Team → Team) : (s.updTeam t f).clusters = s.clusters := rfl
@[simp] theorem updTeam_killRecs (s : State) (t : Nat) (f : Team → Team) : (s.updTeam t f).killRecs = s.killRecs := rfl
@[simp] theorem updTeam_fwHeld (s : State) (t : Nat) (f : Team → Team) : (s.updTeam t f).fwHeld = s.fwHeld := rfl
@[simp] theorem updTeam_serial (s : State) (t : Nat) (f : Team → Team) : (s.updTeam t f).serial = s.serial := rfl
@[simp] theorem updTeam_objs (s : State) (t : Nat) (f : Team → Team) : (s.updTeam t f).objs = s.objs := rfl
@[simp] theorem updTeam_queues (s : State) (t : Nat) (f : Team → Team) : (s.updTeam t f).queues = s.queues := rfl
@[simp] theorem updTeam_taskqs (s : State) (t : Nat) (f : Team → Team) : (s.updTeam t f).taskqs = s.taskqs := rfl
@[simp] theorem updTeam_tenants (s : State) (t : Nat) (f : Team → Team) : (s.updTeam t f).tenants = s.tenants := rfl
@[simp] theorem updTeam_prqbase (s : State) (t : Nat) (f : Team → Team) : (s.updTeam t f).prqbase = s.prqbase := rfl
@[simp] theorem updTeam_prqwr (s : State) (t : Nat) (f : Team → Team) : (s.updTeam t f).prqwr = s.prqwr := rfl
@[simp] theorem updTeam_prqrd (s : State) (t : Nat) (f : Team → Team) : (s.updTeam t f).prqrd = s.prqrd := rfl
@[simp] theorem updTeam_prqHeld (s : State) (t : Nat) (f : Team → Team) : (s.updTeam t f).prqHeld = s.prqHeld := rfl
@[simp] theorem updTeam_pageReqs (s : State) (t : Nat) (f : Team → Team) : (s.updTeam t f).pageReqs = s.pageReqs := rfl
@[simp] theorem updTeam_frames (s : State) (t : Nat) (f : Team → Team) : (s.updTeam t f).frames = s.frames := rfl
@[simp] theorem updTeam_frameErr (s : State) (t : Nat) (f : Team → Team) : (s.updTeam t f).frameErr = s.frameErr := rfl
@[simp] theorem updTeam_sluiceEpoch (s : State) (t : Nat) (f : Team → Team) : (s.updTeam t f).sluiceEpoch = s.sluiceEpoch := rfl
@[simp] theorem updTeam_sluiceThresh (s : State) (t : Nat) (f : Team → Team) : (s.updTeam t f).sluiceThresh = s.sluiceThresh := rfl
@[simp] theorem updTeam_sluiceQmax (s : State) (t : Nat) (f : Team → Team) : (s.updTeam t f).sluiceQmax = s.sluiceQmax := rfl
@[simp] theorem updTeam_sluiceWater (s : State) (t : Nat) (f : Team → Team) : (s.updTeam t f).sluiceWater = s.sluiceWater := rfl
@[simp] theorem updTeam_sluiceMaxrepl (s : State) (t : Nat) (f : Team → Team) : (s.updTeam t f).sluiceMaxrepl = s.sluiceMaxrepl := rfl
@[simp] theorem updTeam_rangeInvs (s : State) (t : Nat) (f : Team → Team) : (s.updTeam t f).rangeInvs = s.rangeInvs := rfl
@[simp] theorem updTeam_migrations (s : State) (t : Nat) (f : Team → Team) : (s.updTeam t f).migrations = s.migrations := rfl
@[simp] theorem updTeam_ports (s : State) (t : Nat) (f : Team → Team) : (s.updTeam t f).ports = s.ports := rfl
@[simp] theorem updTeam_routes (s : State) (t : Nat) (f : Team → Team) : (s.updTeam t f).routes = s.routes := rfl
@[simp] theorem updTeam_txNext (s : State) (t : Nat) (f : Team → Team) : (s.updTeam t f).txNext = s.txNext := rfl
@[simp] theorem updTeam_sent (s : State) (t : Nat) (f : Team → Team) : (s.updTeam t f).sent = s.sent := rfl
@[simp] theorem updTeam_loopback (s : State) (t : Nat) (f : Team → Team) : (s.updTeam t f).loopback = s.loopback := rfl
@[simp] theorem updTeam_heldFrames (s : State) (t : Nat) (f : Team → Team) : (s.updTeam t f).heldFrames = s.heldFrames := rfl
@[simp] theorem updTeam_rx (s : State) (t : Nat) (f : Team → Team) : (s.updTeam t f).rx = s.rx := rfl
@[simp] theorem updTeam_remotes (s : State) (t : Nat) (f : Team → Team) : (s.updTeam t f).remotes = s.remotes := rfl
@[simp] theorem updTeam_taskAsks (s : State) (t : Nat) (f : Team → Team) : (s.updTeam t f).taskAsks = s.taskAsks := rfl
@[simp] theorem updTeam_nextTx (s : State) (t : Nat) (f : Team → Team) : (s.updTeam t f).nextTx = s.nextTx := rfl
@[simp] theorem updTeam_unreachable (s : State) (t : Nat) (f : Team → Team) : (s.updTeam t f).unreachable = s.unreachable := rfl
@[simp] theorem updTeam_detours (s : State) (t : Nat) (f : Team → Team) : (s.updTeam t f).detours = s.detours := rfl

/-! ## State.updGroup -/

@[simp] theorem updGroup_inputs (s : State) (t g : Nat) (f : Group → Group) : (s.updGroup t g f).inputs = s.inputs := rfl
@[simp] theorem updGroup_sched (s : State) (t g : Nat) (f : Group → Group) : (s.updGroup t g f).sched = s.sched := rfl
@[simp] theorem updGroup_fresh (s : State) (t g : Nat) (f : Group → Group) : (s.updGroup t g f).fresh = s.fresh := rfl
@[simp] theorem updGroup_tick (s : State) (t g : Nat) (f : Group → Group) : (s.updGroup t g f).tick = s.tick := rfl
@[simp] theorem updGroup_ns (s : State) (t g : Nat) (f : Group → Group) : (s.updGroup t g f).ns = s.ns := rfl
@[simp] theorem updGroup_issue (s : State) (t g : Nat) (f : Group → Group) : (s.updGroup t g f).issue = s.issue := rfl
@[simp] theorem updGroup_mem (s : State) (t g : Nat) (f : Group → Group) : (s.updGroup t g f).mem = s.mem := rfl
@[simp] theorem updGroup_ecc (s : State) (t g : Nat) (f : Group → Group) : (s.updGroup t g f).ecc = s.ecc := rfl
@[simp] theorem updGroup_hostMem (s : State) (t g : Nat) (f : Group → Group) : (s.updGroup t g f).hostMem = s.hostMem := rfl
@[simp] theorem updGroup_booted (s : State) (t g : Nat) (f : Group → Group) : (s.updGroup t g f).booted = s.booted := rfl
@[simp] theorem updGroup_failedBoot (s : State) (t g : Nat) (f : Group → Group) : (s.updGroup t g f).failedBoot = s.failedBoot := rfl
@[simp] theorem updGroup_flash (s : State) (t g : Nat) (f : Group → Group) : (s.updGroup t g f).flash = s.flash := rfl
@[simp] theorem updGroup_records (s : State) (t g : Nat) (f : Group → Group) : (s.updGroup t g f).records = s.records := rfl
@[simp] theorem updGroup_update (s : State) (t g : Nat) (f : Group → Group) : (s.updGroup t g f).update = s.update := rfl
@[simp] theorem updGroup_handover (s : State) (t g : Nat) (f : Group → Group) : (s.updGroup t g f).handover = s.handover := rfl
@[simp] theorem updGroup_running (s : State) (t g : Nat) (f : Group → Group) : (s.updGroup t g f).running = s.running := rfl
@[simp] theorem updGroup_rootBlock (s : State) (t g : Nat) (f : Group → Group) : (s.updGroup t g f).rootBlock = s.rootBlock := rfl
@[simp] theorem updGroup_signing (s : State) (t g : Nat) (f : Group → Group) : (s.updGroup t g f).signing = s.signing := rfl
@[simp] theorem updGroup_signs (s : State) (t g : Nat) (f : Group → Group) : (s.updGroup t g f).signs = s.signs := rfl
@[simp] theorem updGroup_heldTeardowns (s : State) (t g : Nat) (f : Group → Group) : (s.updGroup t g f).heldTeardowns = s.heldTeardowns := rfl
@[simp] theorem updGroup_heldResets (s : State) (t g : Nat) (f : Group → Group) : (s.updGroup t g f).heldResets = s.heldResets := rfl
@[simp] theorem updGroup_unplugged (s : State) (t g : Nat) (f : Group → Group) : (s.updGroup t g f).unplugged = s.unplugged := rfl
@[simp] theorem updGroup_measured (s : State) (t g : Nat) (f : Group → Group) : (s.updGroup t g f).measured = s.measured := rfl
@[simp] theorem updGroup_attachedEver (s : State) (t g : Nat) (f : Group → Group) : (s.updGroup t g f).attachedEver = s.attachedEver := rfl
@[simp] theorem updGroup_debuggers (s : State) (t g : Nat) (f : Group → Group) : (s.updGroup t g f).debuggers = s.debuggers := rfl
@[simp] theorem updGroup_gated (s : State) (t g : Nat) (f : Group → Group) : (s.updGroup t g f).gated = s.gated := rfl
@[simp] theorem updGroup_wakeFilter (s : State) (t g : Nat) (f : Group → Group) : (s.updGroup t g f).wakeFilter = s.wakeFilter := rfl
@[simp] theorem updGroup_wakeHeld (s : State) (t g : Nat) (f : Group → Group) : (s.updGroup t g f).wakeHeld = s.wakeHeld := rfl
@[simp] theorem updGroup_wakeDropped (s : State) (t g : Nat) (f : Group → Group) : (s.updGroup t g f).wakeDropped = s.wakeDropped := rfl
@[simp] theorem updGroup_answers (s : State) (t g : Nat) (f : Group → Group) : (s.updGroup t g f).answers = s.answers := rfl
@[simp] theorem updGroup_notices (s : State) (t g : Nat) (f : Group → Group) : (s.updGroup t g f).notices = s.notices := rfl
@[simp] theorem updGroup_pcap (s : State) (t g : Nat) (f : Group → Group) : (s.updGroup t g f).pcap = s.pcap := rfl
@[simp] theorem updGroup_meter (s : State) (t g : Nat) (f : Group → Group) : (s.updGroup t g f).meter = s.meter := rfl
@[simp] theorem updGroup_dies (s : State) (t g : Nat) (f : Group → Group) : (s.updGroup t g f).dies = s.dies := rfl
@[simp] theorem updGroup_quarters (s : State) (t g : Nat) (f : Group → Group) : (s.updGroup t g f).quarters = s.quarters := rfl
@[simp] theorem updGroup_cores (s : State) (t g : Nat) (f : Group → Group) : (s.updGroup t g f).cores = s.cores := rfl
@[simp] theorem updGroup_ctxs (s : State) (t g : Nat) (f : Group → Group) : (s.updGroup t g f).ctxs = s.ctxs := rfl
@[simp] theorem updGroup_launches (s : State) (t g : Nat) (f : Group → Group) : (s.updGroup t g f).launches = s.launches := rfl
@[simp] theorem updGroup_clusters (s : State) (t g : Nat) (f : Group → Group) : (s.updGroup t g f).clusters = s.clusters := rfl
@[simp] theorem updGroup_killRecs (s : State) (t g : Nat) (f : Group → Group) : (s.updGroup t g f).killRecs = s.killRecs := rfl
@[simp] theorem updGroup_fwHeld (s : State) (t g : Nat) (f : Group → Group) : (s.updGroup t g f).fwHeld = s.fwHeld := rfl
@[simp] theorem updGroup_serial (s : State) (t g : Nat) (f : Group → Group) : (s.updGroup t g f).serial = s.serial := rfl
@[simp] theorem updGroup_objs (s : State) (t g : Nat) (f : Group → Group) : (s.updGroup t g f).objs = s.objs := rfl
@[simp] theorem updGroup_queues (s : State) (t g : Nat) (f : Group → Group) : (s.updGroup t g f).queues = s.queues := rfl
@[simp] theorem updGroup_taskqs (s : State) (t g : Nat) (f : Group → Group) : (s.updGroup t g f).taskqs = s.taskqs := rfl
@[simp] theorem updGroup_tenants (s : State) (t g : Nat) (f : Group → Group) : (s.updGroup t g f).tenants = s.tenants := rfl
@[simp] theorem updGroup_prqbase (s : State) (t g : Nat) (f : Group → Group) : (s.updGroup t g f).prqbase = s.prqbase := rfl
@[simp] theorem updGroup_prqwr (s : State) (t g : Nat) (f : Group → Group) : (s.updGroup t g f).prqwr = s.prqwr := rfl
@[simp] theorem updGroup_prqrd (s : State) (t g : Nat) (f : Group → Group) : (s.updGroup t g f).prqrd = s.prqrd := rfl
@[simp] theorem updGroup_prqHeld (s : State) (t g : Nat) (f : Group → Group) : (s.updGroup t g f).prqHeld = s.prqHeld := rfl
@[simp] theorem updGroup_pageReqs (s : State) (t g : Nat) (f : Group → Group) : (s.updGroup t g f).pageReqs = s.pageReqs := rfl
@[simp] theorem updGroup_frames (s : State) (t g : Nat) (f : Group → Group) : (s.updGroup t g f).frames = s.frames := rfl
@[simp] theorem updGroup_frameErr (s : State) (t g : Nat) (f : Group → Group) : (s.updGroup t g f).frameErr = s.frameErr := rfl
@[simp] theorem updGroup_sluiceEpoch (s : State) (t g : Nat) (f : Group → Group) : (s.updGroup t g f).sluiceEpoch = s.sluiceEpoch := rfl
@[simp] theorem updGroup_sluiceThresh (s : State) (t g : Nat) (f : Group → Group) : (s.updGroup t g f).sluiceThresh = s.sluiceThresh := rfl
@[simp] theorem updGroup_sluiceQmax (s : State) (t g : Nat) (f : Group → Group) : (s.updGroup t g f).sluiceQmax = s.sluiceQmax := rfl
@[simp] theorem updGroup_sluiceWater (s : State) (t g : Nat) (f : Group → Group) : (s.updGroup t g f).sluiceWater = s.sluiceWater := rfl
@[simp] theorem updGroup_sluiceMaxrepl (s : State) (t g : Nat) (f : Group → Group) : (s.updGroup t g f).sluiceMaxrepl = s.sluiceMaxrepl := rfl
@[simp] theorem updGroup_rangeInvs (s : State) (t g : Nat) (f : Group → Group) : (s.updGroup t g f).rangeInvs = s.rangeInvs := rfl
@[simp] theorem updGroup_migrations (s : State) (t g : Nat) (f : Group → Group) : (s.updGroup t g f).migrations = s.migrations := rfl
@[simp] theorem updGroup_ports (s : State) (t g : Nat) (f : Group → Group) : (s.updGroup t g f).ports = s.ports := rfl
@[simp] theorem updGroup_routes (s : State) (t g : Nat) (f : Group → Group) : (s.updGroup t g f).routes = s.routes := rfl
@[simp] theorem updGroup_txNext (s : State) (t g : Nat) (f : Group → Group) : (s.updGroup t g f).txNext = s.txNext := rfl
@[simp] theorem updGroup_sent (s : State) (t g : Nat) (f : Group → Group) : (s.updGroup t g f).sent = s.sent := rfl
@[simp] theorem updGroup_loopback (s : State) (t g : Nat) (f : Group → Group) : (s.updGroup t g f).loopback = s.loopback := rfl
@[simp] theorem updGroup_heldFrames (s : State) (t g : Nat) (f : Group → Group) : (s.updGroup t g f).heldFrames = s.heldFrames := rfl
@[simp] theorem updGroup_rx (s : State) (t g : Nat) (f : Group → Group) : (s.updGroup t g f).rx = s.rx := rfl
@[simp] theorem updGroup_remotes (s : State) (t g : Nat) (f : Group → Group) : (s.updGroup t g f).remotes = s.remotes := rfl
@[simp] theorem updGroup_taskAsks (s : State) (t g : Nat) (f : Group → Group) : (s.updGroup t g f).taskAsks = s.taskAsks := rfl
@[simp] theorem updGroup_nextTx (s : State) (t g : Nat) (f : Group → Group) : (s.updGroup t g f).nextTx = s.nextTx := rfl
@[simp] theorem updGroup_unreachable (s : State) (t g : Nat) (f : Group → Group) : (s.updGroup t g f).unreachable = s.unreachable := rfl
@[simp] theorem updGroup_detours (s : State) (t g : Nat) (f : Group → Group) : (s.updGroup t g f).detours = s.detours := rfl

/-! ## State.updThread -/

@[simp] theorem updThread_inputs (s : State) (r : ThreadRef) (f : Thread → Thread) : (s.updThread r f).inputs = s.inputs := rfl
@[simp] theorem updThread_sched (s : State) (r : ThreadRef) (f : Thread → Thread) : (s.updThread r f).sched = s.sched := rfl
@[simp] theorem updThread_fresh (s : State) (r : ThreadRef) (f : Thread → Thread) : (s.updThread r f).fresh = s.fresh := rfl
@[simp] theorem updThread_tick (s : State) (r : ThreadRef) (f : Thread → Thread) : (s.updThread r f).tick = s.tick := rfl
@[simp] theorem updThread_ns (s : State) (r : ThreadRef) (f : Thread → Thread) : (s.updThread r f).ns = s.ns := rfl
@[simp] theorem updThread_issue (s : State) (r : ThreadRef) (f : Thread → Thread) : (s.updThread r f).issue = s.issue := rfl
@[simp] theorem updThread_mem (s : State) (r : ThreadRef) (f : Thread → Thread) : (s.updThread r f).mem = s.mem := rfl
@[simp] theorem updThread_ecc (s : State) (r : ThreadRef) (f : Thread → Thread) : (s.updThread r f).ecc = s.ecc := rfl
@[simp] theorem updThread_hostMem (s : State) (r : ThreadRef) (f : Thread → Thread) : (s.updThread r f).hostMem = s.hostMem := rfl
@[simp] theorem updThread_booted (s : State) (r : ThreadRef) (f : Thread → Thread) : (s.updThread r f).booted = s.booted := rfl
@[simp] theorem updThread_failedBoot (s : State) (r : ThreadRef) (f : Thread → Thread) : (s.updThread r f).failedBoot = s.failedBoot := rfl
@[simp] theorem updThread_flash (s : State) (r : ThreadRef) (f : Thread → Thread) : (s.updThread r f).flash = s.flash := rfl
@[simp] theorem updThread_records (s : State) (r : ThreadRef) (f : Thread → Thread) : (s.updThread r f).records = s.records := rfl
@[simp] theorem updThread_update (s : State) (r : ThreadRef) (f : Thread → Thread) : (s.updThread r f).update = s.update := rfl
@[simp] theorem updThread_handover (s : State) (r : ThreadRef) (f : Thread → Thread) : (s.updThread r f).handover = s.handover := rfl
@[simp] theorem updThread_running (s : State) (r : ThreadRef) (f : Thread → Thread) : (s.updThread r f).running = s.running := rfl
@[simp] theorem updThread_rootBlock (s : State) (r : ThreadRef) (f : Thread → Thread) : (s.updThread r f).rootBlock = s.rootBlock := rfl
@[simp] theorem updThread_signing (s : State) (r : ThreadRef) (f : Thread → Thread) : (s.updThread r f).signing = s.signing := rfl
@[simp] theorem updThread_signs (s : State) (r : ThreadRef) (f : Thread → Thread) : (s.updThread r f).signs = s.signs := rfl
@[simp] theorem updThread_heldTeardowns (s : State) (r : ThreadRef) (f : Thread → Thread) : (s.updThread r f).heldTeardowns = s.heldTeardowns := rfl
@[simp] theorem updThread_heldResets (s : State) (r : ThreadRef) (f : Thread → Thread) : (s.updThread r f).heldResets = s.heldResets := rfl
@[simp] theorem updThread_unplugged (s : State) (r : ThreadRef) (f : Thread → Thread) : (s.updThread r f).unplugged = s.unplugged := rfl
@[simp] theorem updThread_measured (s : State) (r : ThreadRef) (f : Thread → Thread) : (s.updThread r f).measured = s.measured := rfl
@[simp] theorem updThread_attachedEver (s : State) (r : ThreadRef) (f : Thread → Thread) : (s.updThread r f).attachedEver = s.attachedEver := rfl
@[simp] theorem updThread_debuggers (s : State) (r : ThreadRef) (f : Thread → Thread) : (s.updThread r f).debuggers = s.debuggers := rfl
@[simp] theorem updThread_gated (s : State) (r : ThreadRef) (f : Thread → Thread) : (s.updThread r f).gated = s.gated := rfl
@[simp] theorem updThread_wakeFilter (s : State) (r : ThreadRef) (f : Thread → Thread) : (s.updThread r f).wakeFilter = s.wakeFilter := rfl
@[simp] theorem updThread_wakeHeld (s : State) (r : ThreadRef) (f : Thread → Thread) : (s.updThread r f).wakeHeld = s.wakeHeld := rfl
@[simp] theorem updThread_wakeDropped (s : State) (r : ThreadRef) (f : Thread → Thread) : (s.updThread r f).wakeDropped = s.wakeDropped := rfl
@[simp] theorem updThread_answers (s : State) (r : ThreadRef) (f : Thread → Thread) : (s.updThread r f).answers = s.answers := rfl
@[simp] theorem updThread_notices (s : State) (r : ThreadRef) (f : Thread → Thread) : (s.updThread r f).notices = s.notices := rfl
@[simp] theorem updThread_pcap (s : State) (r : ThreadRef) (f : Thread → Thread) : (s.updThread r f).pcap = s.pcap := rfl
@[simp] theorem updThread_meter (s : State) (r : ThreadRef) (f : Thread → Thread) : (s.updThread r f).meter = s.meter := rfl
@[simp] theorem updThread_dies (s : State) (r : ThreadRef) (f : Thread → Thread) : (s.updThread r f).dies = s.dies := rfl
@[simp] theorem updThread_quarters (s : State) (r : ThreadRef) (f : Thread → Thread) : (s.updThread r f).quarters = s.quarters := rfl
@[simp] theorem updThread_cores (s : State) (r : ThreadRef) (f : Thread → Thread) : (s.updThread r f).cores = s.cores := rfl
@[simp] theorem updThread_ctxs (s : State) (r : ThreadRef) (f : Thread → Thread) : (s.updThread r f).ctxs = s.ctxs := rfl
@[simp] theorem updThread_launches (s : State) (r : ThreadRef) (f : Thread → Thread) : (s.updThread r f).launches = s.launches := rfl
@[simp] theorem updThread_clusters (s : State) (r : ThreadRef) (f : Thread → Thread) : (s.updThread r f).clusters = s.clusters := rfl
@[simp] theorem updThread_killRecs (s : State) (r : ThreadRef) (f : Thread → Thread) : (s.updThread r f).killRecs = s.killRecs := rfl
@[simp] theorem updThread_fwHeld (s : State) (r : ThreadRef) (f : Thread → Thread) : (s.updThread r f).fwHeld = s.fwHeld := rfl
@[simp] theorem updThread_serial (s : State) (r : ThreadRef) (f : Thread → Thread) : (s.updThread r f).serial = s.serial := rfl
@[simp] theorem updThread_objs (s : State) (r : ThreadRef) (f : Thread → Thread) : (s.updThread r f).objs = s.objs := rfl
@[simp] theorem updThread_queues (s : State) (r : ThreadRef) (f : Thread → Thread) : (s.updThread r f).queues = s.queues := rfl
@[simp] theorem updThread_taskqs (s : State) (r : ThreadRef) (f : Thread → Thread) : (s.updThread r f).taskqs = s.taskqs := rfl
@[simp] theorem updThread_tenants (s : State) (r : ThreadRef) (f : Thread → Thread) : (s.updThread r f).tenants = s.tenants := rfl
@[simp] theorem updThread_prqbase (s : State) (r : ThreadRef) (f : Thread → Thread) : (s.updThread r f).prqbase = s.prqbase := rfl
@[simp] theorem updThread_prqwr (s : State) (r : ThreadRef) (f : Thread → Thread) : (s.updThread r f).prqwr = s.prqwr := rfl
@[simp] theorem updThread_prqrd (s : State) (r : ThreadRef) (f : Thread → Thread) : (s.updThread r f).prqrd = s.prqrd := rfl
@[simp] theorem updThread_prqHeld (s : State) (r : ThreadRef) (f : Thread → Thread) : (s.updThread r f).prqHeld = s.prqHeld := rfl
@[simp] theorem updThread_pageReqs (s : State) (r : ThreadRef) (f : Thread → Thread) : (s.updThread r f).pageReqs = s.pageReqs := rfl
@[simp] theorem updThread_frames (s : State) (r : ThreadRef) (f : Thread → Thread) : (s.updThread r f).frames = s.frames := rfl
@[simp] theorem updThread_frameErr (s : State) (r : ThreadRef) (f : Thread → Thread) : (s.updThread r f).frameErr = s.frameErr := rfl
@[simp] theorem updThread_sluiceEpoch (s : State) (r : ThreadRef) (f : Thread → Thread) : (s.updThread r f).sluiceEpoch = s.sluiceEpoch := rfl
@[simp] theorem updThread_sluiceThresh (s : State) (r : ThreadRef) (f : Thread → Thread) : (s.updThread r f).sluiceThresh = s.sluiceThresh := rfl
@[simp] theorem updThread_sluiceQmax (s : State) (r : ThreadRef) (f : Thread → Thread) : (s.updThread r f).sluiceQmax = s.sluiceQmax := rfl
@[simp] theorem updThread_sluiceWater (s : State) (r : ThreadRef) (f : Thread → Thread) : (s.updThread r f).sluiceWater = s.sluiceWater := rfl
@[simp] theorem updThread_sluiceMaxrepl (s : State) (r : ThreadRef) (f : Thread → Thread) : (s.updThread r f).sluiceMaxrepl = s.sluiceMaxrepl := rfl
@[simp] theorem updThread_rangeInvs (s : State) (r : ThreadRef) (f : Thread → Thread) : (s.updThread r f).rangeInvs = s.rangeInvs := rfl
@[simp] theorem updThread_migrations (s : State) (r : ThreadRef) (f : Thread → Thread) : (s.updThread r f).migrations = s.migrations := rfl
@[simp] theorem updThread_ports (s : State) (r : ThreadRef) (f : Thread → Thread) : (s.updThread r f).ports = s.ports := rfl
@[simp] theorem updThread_routes (s : State) (r : ThreadRef) (f : Thread → Thread) : (s.updThread r f).routes = s.routes := rfl
@[simp] theorem updThread_txNext (s : State) (r : ThreadRef) (f : Thread → Thread) : (s.updThread r f).txNext = s.txNext := rfl
@[simp] theorem updThread_sent (s : State) (r : ThreadRef) (f : Thread → Thread) : (s.updThread r f).sent = s.sent := rfl
@[simp] theorem updThread_loopback (s : State) (r : ThreadRef) (f : Thread → Thread) : (s.updThread r f).loopback = s.loopback := rfl
@[simp] theorem updThread_heldFrames (s : State) (r : ThreadRef) (f : Thread → Thread) : (s.updThread r f).heldFrames = s.heldFrames := rfl
@[simp] theorem updThread_rx (s : State) (r : ThreadRef) (f : Thread → Thread) : (s.updThread r f).rx = s.rx := rfl
@[simp] theorem updThread_remotes (s : State) (r : ThreadRef) (f : Thread → Thread) : (s.updThread r f).remotes = s.remotes := rfl
@[simp] theorem updThread_taskAsks (s : State) (r : ThreadRef) (f : Thread → Thread) : (s.updThread r f).taskAsks = s.taskAsks := rfl
@[simp] theorem updThread_nextTx (s : State) (r : ThreadRef) (f : Thread → Thread) : (s.updThread r f).nextTx = s.nextTx := rfl
@[simp] theorem updThread_unreachable (s : State) (r : ThreadRef) (f : Thread → Thread) : (s.updThread r f).unreachable = s.unreachable := rfl
@[simp] theorem updThread_detours (s : State) (r : ThreadRef) (f : Thread → Thread) : (s.updThread r f).detours = s.detours := rfl

/-! ## State.updObj -/

@[simp] theorem updObj_inputs (s : State) (c : Nat) (n : DWord) (f : Obj → Obj) : (s.updObj c n f).inputs = s.inputs := rfl
@[simp] theorem updObj_sched (s : State) (c : Nat) (n : DWord) (f : Obj → Obj) : (s.updObj c n f).sched = s.sched := rfl
@[simp] theorem updObj_fresh (s : State) (c : Nat) (n : DWord) (f : Obj → Obj) : (s.updObj c n f).fresh = s.fresh := rfl
@[simp] theorem updObj_tick (s : State) (c : Nat) (n : DWord) (f : Obj → Obj) : (s.updObj c n f).tick = s.tick := rfl
@[simp] theorem updObj_ns (s : State) (c : Nat) (n : DWord) (f : Obj → Obj) : (s.updObj c n f).ns = s.ns := rfl
@[simp] theorem updObj_issue (s : State) (c : Nat) (n : DWord) (f : Obj → Obj) : (s.updObj c n f).issue = s.issue := rfl
@[simp] theorem updObj_mem (s : State) (c : Nat) (n : DWord) (f : Obj → Obj) : (s.updObj c n f).mem = s.mem := rfl
@[simp] theorem updObj_ecc (s : State) (c : Nat) (n : DWord) (f : Obj → Obj) : (s.updObj c n f).ecc = s.ecc := rfl
@[simp] theorem updObj_hostMem (s : State) (c : Nat) (n : DWord) (f : Obj → Obj) : (s.updObj c n f).hostMem = s.hostMem := rfl
@[simp] theorem updObj_booted (s : State) (c : Nat) (n : DWord) (f : Obj → Obj) : (s.updObj c n f).booted = s.booted := rfl
@[simp] theorem updObj_failedBoot (s : State) (c : Nat) (n : DWord) (f : Obj → Obj) : (s.updObj c n f).failedBoot = s.failedBoot := rfl
@[simp] theorem updObj_flash (s : State) (c : Nat) (n : DWord) (f : Obj → Obj) : (s.updObj c n f).flash = s.flash := rfl
@[simp] theorem updObj_records (s : State) (c : Nat) (n : DWord) (f : Obj → Obj) : (s.updObj c n f).records = s.records := rfl
@[simp] theorem updObj_update (s : State) (c : Nat) (n : DWord) (f : Obj → Obj) : (s.updObj c n f).update = s.update := rfl
@[simp] theorem updObj_handover (s : State) (c : Nat) (n : DWord) (f : Obj → Obj) : (s.updObj c n f).handover = s.handover := rfl
@[simp] theorem updObj_running (s : State) (c : Nat) (n : DWord) (f : Obj → Obj) : (s.updObj c n f).running = s.running := rfl
@[simp] theorem updObj_rootBlock (s : State) (c : Nat) (n : DWord) (f : Obj → Obj) : (s.updObj c n f).rootBlock = s.rootBlock := rfl
@[simp] theorem updObj_signing (s : State) (c : Nat) (n : DWord) (f : Obj → Obj) : (s.updObj c n f).signing = s.signing := rfl
@[simp] theorem updObj_signs (s : State) (c : Nat) (n : DWord) (f : Obj → Obj) : (s.updObj c n f).signs = s.signs := rfl
@[simp] theorem updObj_heldTeardowns (s : State) (c : Nat) (n : DWord) (f : Obj → Obj) : (s.updObj c n f).heldTeardowns = s.heldTeardowns := rfl
@[simp] theorem updObj_heldResets (s : State) (c : Nat) (n : DWord) (f : Obj → Obj) : (s.updObj c n f).heldResets = s.heldResets := rfl
@[simp] theorem updObj_unplugged (s : State) (c : Nat) (n : DWord) (f : Obj → Obj) : (s.updObj c n f).unplugged = s.unplugged := rfl
@[simp] theorem updObj_measured (s : State) (c : Nat) (n : DWord) (f : Obj → Obj) : (s.updObj c n f).measured = s.measured := rfl
@[simp] theorem updObj_attachedEver (s : State) (c : Nat) (n : DWord) (f : Obj → Obj) : (s.updObj c n f).attachedEver = s.attachedEver := rfl
@[simp] theorem updObj_debuggers (s : State) (c : Nat) (n : DWord) (f : Obj → Obj) : (s.updObj c n f).debuggers = s.debuggers := rfl
@[simp] theorem updObj_gated (s : State) (c : Nat) (n : DWord) (f : Obj → Obj) : (s.updObj c n f).gated = s.gated := rfl
@[simp] theorem updObj_wakeFilter (s : State) (c : Nat) (n : DWord) (f : Obj → Obj) : (s.updObj c n f).wakeFilter = s.wakeFilter := rfl
@[simp] theorem updObj_wakeHeld (s : State) (c : Nat) (n : DWord) (f : Obj → Obj) : (s.updObj c n f).wakeHeld = s.wakeHeld := rfl
@[simp] theorem updObj_wakeDropped (s : State) (c : Nat) (n : DWord) (f : Obj → Obj) : (s.updObj c n f).wakeDropped = s.wakeDropped := rfl
@[simp] theorem updObj_answers (s : State) (c : Nat) (n : DWord) (f : Obj → Obj) : (s.updObj c n f).answers = s.answers := rfl
@[simp] theorem updObj_notices (s : State) (c : Nat) (n : DWord) (f : Obj → Obj) : (s.updObj c n f).notices = s.notices := rfl
@[simp] theorem updObj_pcap (s : State) (c : Nat) (n : DWord) (f : Obj → Obj) : (s.updObj c n f).pcap = s.pcap := rfl
@[simp] theorem updObj_meter (s : State) (c : Nat) (n : DWord) (f : Obj → Obj) : (s.updObj c n f).meter = s.meter := rfl
@[simp] theorem updObj_dies (s : State) (c : Nat) (n : DWord) (f : Obj → Obj) : (s.updObj c n f).dies = s.dies := rfl
@[simp] theorem updObj_quarters (s : State) (c : Nat) (n : DWord) (f : Obj → Obj) : (s.updObj c n f).quarters = s.quarters := rfl
@[simp] theorem updObj_cores (s : State) (c : Nat) (n : DWord) (f : Obj → Obj) : (s.updObj c n f).cores = s.cores := rfl
@[simp] theorem updObj_ctxs (s : State) (c : Nat) (n : DWord) (f : Obj → Obj) : (s.updObj c n f).ctxs = s.ctxs := rfl
@[simp] theorem updObj_launches (s : State) (c : Nat) (n : DWord) (f : Obj → Obj) : (s.updObj c n f).launches = s.launches := rfl
@[simp] theorem updObj_clusters (s : State) (c : Nat) (n : DWord) (f : Obj → Obj) : (s.updObj c n f).clusters = s.clusters := rfl
@[simp] theorem updObj_teams (s : State) (c : Nat) (n : DWord) (f : Obj → Obj) : (s.updObj c n f).teams = s.teams := rfl
@[simp] theorem updObj_killRecs (s : State) (c : Nat) (n : DWord) (f : Obj → Obj) : (s.updObj c n f).killRecs = s.killRecs := rfl
@[simp] theorem updObj_fwHeld (s : State) (c : Nat) (n : DWord) (f : Obj → Obj) : (s.updObj c n f).fwHeld = s.fwHeld := rfl
@[simp] theorem updObj_serial (s : State) (c : Nat) (n : DWord) (f : Obj → Obj) : (s.updObj c n f).serial = s.serial := rfl
@[simp] theorem updObj_queues (s : State) (c : Nat) (n : DWord) (f : Obj → Obj) : (s.updObj c n f).queues = s.queues := rfl
@[simp] theorem updObj_taskqs (s : State) (c : Nat) (n : DWord) (f : Obj → Obj) : (s.updObj c n f).taskqs = s.taskqs := rfl
@[simp] theorem updObj_tenants (s : State) (c : Nat) (n : DWord) (f : Obj → Obj) : (s.updObj c n f).tenants = s.tenants := rfl
@[simp] theorem updObj_prqbase (s : State) (c : Nat) (n : DWord) (f : Obj → Obj) : (s.updObj c n f).prqbase = s.prqbase := rfl
@[simp] theorem updObj_prqwr (s : State) (c : Nat) (n : DWord) (f : Obj → Obj) : (s.updObj c n f).prqwr = s.prqwr := rfl
@[simp] theorem updObj_prqrd (s : State) (c : Nat) (n : DWord) (f : Obj → Obj) : (s.updObj c n f).prqrd = s.prqrd := rfl
@[simp] theorem updObj_prqHeld (s : State) (c : Nat) (n : DWord) (f : Obj → Obj) : (s.updObj c n f).prqHeld = s.prqHeld := rfl
@[simp] theorem updObj_pageReqs (s : State) (c : Nat) (n : DWord) (f : Obj → Obj) : (s.updObj c n f).pageReqs = s.pageReqs := rfl
@[simp] theorem updObj_frames (s : State) (c : Nat) (n : DWord) (f : Obj → Obj) : (s.updObj c n f).frames = s.frames := rfl
@[simp] theorem updObj_frameErr (s : State) (c : Nat) (n : DWord) (f : Obj → Obj) : (s.updObj c n f).frameErr = s.frameErr := rfl
@[simp] theorem updObj_sluiceEpoch (s : State) (c : Nat) (n : DWord) (f : Obj → Obj) : (s.updObj c n f).sluiceEpoch = s.sluiceEpoch := rfl
@[simp] theorem updObj_sluiceThresh (s : State) (c : Nat) (n : DWord) (f : Obj → Obj) : (s.updObj c n f).sluiceThresh = s.sluiceThresh := rfl
@[simp] theorem updObj_sluiceQmax (s : State) (c : Nat) (n : DWord) (f : Obj → Obj) : (s.updObj c n f).sluiceQmax = s.sluiceQmax := rfl
@[simp] theorem updObj_sluiceWater (s : State) (c : Nat) (n : DWord) (f : Obj → Obj) : (s.updObj c n f).sluiceWater = s.sluiceWater := rfl
@[simp] theorem updObj_sluiceMaxrepl (s : State) (c : Nat) (n : DWord) (f : Obj → Obj) : (s.updObj c n f).sluiceMaxrepl = s.sluiceMaxrepl := rfl
@[simp] theorem updObj_rangeInvs (s : State) (c : Nat) (n : DWord) (f : Obj → Obj) : (s.updObj c n f).rangeInvs = s.rangeInvs := rfl
@[simp] theorem updObj_migrations (s : State) (c : Nat) (n : DWord) (f : Obj → Obj) : (s.updObj c n f).migrations = s.migrations := rfl
@[simp] theorem updObj_ports (s : State) (c : Nat) (n : DWord) (f : Obj → Obj) : (s.updObj c n f).ports = s.ports := rfl
@[simp] theorem updObj_routes (s : State) (c : Nat) (n : DWord) (f : Obj → Obj) : (s.updObj c n f).routes = s.routes := rfl
@[simp] theorem updObj_txNext (s : State) (c : Nat) (n : DWord) (f : Obj → Obj) : (s.updObj c n f).txNext = s.txNext := rfl
@[simp] theorem updObj_sent (s : State) (c : Nat) (n : DWord) (f : Obj → Obj) : (s.updObj c n f).sent = s.sent := rfl
@[simp] theorem updObj_loopback (s : State) (c : Nat) (n : DWord) (f : Obj → Obj) : (s.updObj c n f).loopback = s.loopback := rfl
@[simp] theorem updObj_heldFrames (s : State) (c : Nat) (n : DWord) (f : Obj → Obj) : (s.updObj c n f).heldFrames = s.heldFrames := rfl
@[simp] theorem updObj_rx (s : State) (c : Nat) (n : DWord) (f : Obj → Obj) : (s.updObj c n f).rx = s.rx := rfl
@[simp] theorem updObj_remotes (s : State) (c : Nat) (n : DWord) (f : Obj → Obj) : (s.updObj c n f).remotes = s.remotes := rfl
@[simp] theorem updObj_taskAsks (s : State) (c : Nat) (n : DWord) (f : Obj → Obj) : (s.updObj c n f).taskAsks = s.taskAsks := rfl
@[simp] theorem updObj_nextTx (s : State) (c : Nat) (n : DWord) (f : Obj → Obj) : (s.updObj c n f).nextTx = s.nextTx := rfl
@[simp] theorem updObj_unreachable (s : State) (c : Nat) (n : DWord) (f : Obj → Obj) : (s.updObj c n f).unreachable = s.unreachable := rfl
@[simp] theorem updObj_detours (s : State) (c : Nat) (n : DWord) (f : Obj → Obj) : (s.updObj c n f).detours = s.detours := rfl

/-! ## State.tell -/

@[simp] theorem tell_inputs (s : State) (k : String) (a : List Nat) : (s.tell k a).inputs = s.inputs := rfl
@[simp] theorem tell_sched (s : State) (k : String) (a : List Nat) : (s.tell k a).sched = s.sched := rfl
@[simp] theorem tell_fresh (s : State) (k : String) (a : List Nat) : (s.tell k a).fresh = s.fresh := rfl
@[simp] theorem tell_tick (s : State) (k : String) (a : List Nat) : (s.tell k a).tick = s.tick := rfl
@[simp] theorem tell_ns (s : State) (k : String) (a : List Nat) : (s.tell k a).ns = s.ns := rfl
@[simp] theorem tell_issue (s : State) (k : String) (a : List Nat) : (s.tell k a).issue = s.issue := rfl
@[simp] theorem tell_mem (s : State) (k : String) (a : List Nat) : (s.tell k a).mem = s.mem := rfl
@[simp] theorem tell_ecc (s : State) (k : String) (a : List Nat) : (s.tell k a).ecc = s.ecc := rfl
@[simp] theorem tell_hostMem (s : State) (k : String) (a : List Nat) : (s.tell k a).hostMem = s.hostMem := rfl
@[simp] theorem tell_booted (s : State) (k : String) (a : List Nat) : (s.tell k a).booted = s.booted := rfl
@[simp] theorem tell_failedBoot (s : State) (k : String) (a : List Nat) : (s.tell k a).failedBoot = s.failedBoot := rfl
@[simp] theorem tell_flash (s : State) (k : String) (a : List Nat) : (s.tell k a).flash = s.flash := rfl
@[simp] theorem tell_records (s : State) (k : String) (a : List Nat) : (s.tell k a).records = s.records := rfl
@[simp] theorem tell_update (s : State) (k : String) (a : List Nat) : (s.tell k a).update = s.update := rfl
@[simp] theorem tell_handover (s : State) (k : String) (a : List Nat) : (s.tell k a).handover = s.handover := rfl
@[simp] theorem tell_running (s : State) (k : String) (a : List Nat) : (s.tell k a).running = s.running := rfl
@[simp] theorem tell_rootBlock (s : State) (k : String) (a : List Nat) : (s.tell k a).rootBlock = s.rootBlock := rfl
@[simp] theorem tell_signing (s : State) (k : String) (a : List Nat) : (s.tell k a).signing = s.signing := rfl
@[simp] theorem tell_signs (s : State) (k : String) (a : List Nat) : (s.tell k a).signs = s.signs := rfl
@[simp] theorem tell_heldTeardowns (s : State) (k : String) (a : List Nat) : (s.tell k a).heldTeardowns = s.heldTeardowns := rfl
@[simp] theorem tell_heldResets (s : State) (k : String) (a : List Nat) : (s.tell k a).heldResets = s.heldResets := rfl
@[simp] theorem tell_unplugged (s : State) (k : String) (a : List Nat) : (s.tell k a).unplugged = s.unplugged := rfl
@[simp] theorem tell_measured (s : State) (k : String) (a : List Nat) : (s.tell k a).measured = s.measured := rfl
@[simp] theorem tell_attachedEver (s : State) (k : String) (a : List Nat) : (s.tell k a).attachedEver = s.attachedEver := rfl
@[simp] theorem tell_debuggers (s : State) (k : String) (a : List Nat) : (s.tell k a).debuggers = s.debuggers := rfl
@[simp] theorem tell_gated (s : State) (k : String) (a : List Nat) : (s.tell k a).gated = s.gated := rfl
@[simp] theorem tell_wakeFilter (s : State) (k : String) (a : List Nat) : (s.tell k a).wakeFilter = s.wakeFilter := rfl
@[simp] theorem tell_wakeHeld (s : State) (k : String) (a : List Nat) : (s.tell k a).wakeHeld = s.wakeHeld := rfl
@[simp] theorem tell_wakeDropped (s : State) (k : String) (a : List Nat) : (s.tell k a).wakeDropped = s.wakeDropped := rfl
@[simp] theorem tell_answers (s : State) (k : String) (a : List Nat) : (s.tell k a).answers = s.answers := rfl
@[simp] theorem tell_pcap (s : State) (k : String) (a : List Nat) : (s.tell k a).pcap = s.pcap := rfl
@[simp] theorem tell_meter (s : State) (k : String) (a : List Nat) : (s.tell k a).meter = s.meter := rfl
@[simp] theorem tell_dies (s : State) (k : String) (a : List Nat) : (s.tell k a).dies = s.dies := rfl
@[simp] theorem tell_quarters (s : State) (k : String) (a : List Nat) : (s.tell k a).quarters = s.quarters := rfl
@[simp] theorem tell_cores (s : State) (k : String) (a : List Nat) : (s.tell k a).cores = s.cores := rfl
@[simp] theorem tell_ctxs (s : State) (k : String) (a : List Nat) : (s.tell k a).ctxs = s.ctxs := rfl
@[simp] theorem tell_launches (s : State) (k : String) (a : List Nat) : (s.tell k a).launches = s.launches := rfl
@[simp] theorem tell_clusters (s : State) (k : String) (a : List Nat) : (s.tell k a).clusters = s.clusters := rfl
@[simp] theorem tell_teams (s : State) (k : String) (a : List Nat) : (s.tell k a).teams = s.teams := rfl
@[simp] theorem tell_killRecs (s : State) (k : String) (a : List Nat) : (s.tell k a).killRecs = s.killRecs := rfl
@[simp] theorem tell_fwHeld (s : State) (k : String) (a : List Nat) : (s.tell k a).fwHeld = s.fwHeld := rfl
@[simp] theorem tell_serial (s : State) (k : String) (a : List Nat) : (s.tell k a).serial = s.serial := rfl
@[simp] theorem tell_objs (s : State) (k : String) (a : List Nat) : (s.tell k a).objs = s.objs := rfl
@[simp] theorem tell_queues (s : State) (k : String) (a : List Nat) : (s.tell k a).queues = s.queues := rfl
@[simp] theorem tell_taskqs (s : State) (k : String) (a : List Nat) : (s.tell k a).taskqs = s.taskqs := rfl
@[simp] theorem tell_tenants (s : State) (k : String) (a : List Nat) : (s.tell k a).tenants = s.tenants := rfl
@[simp] theorem tell_prqbase (s : State) (k : String) (a : List Nat) : (s.tell k a).prqbase = s.prqbase := rfl
@[simp] theorem tell_prqwr (s : State) (k : String) (a : List Nat) : (s.tell k a).prqwr = s.prqwr := rfl
@[simp] theorem tell_prqrd (s : State) (k : String) (a : List Nat) : (s.tell k a).prqrd = s.prqrd := rfl
@[simp] theorem tell_prqHeld (s : State) (k : String) (a : List Nat) : (s.tell k a).prqHeld = s.prqHeld := rfl
@[simp] theorem tell_pageReqs (s : State) (k : String) (a : List Nat) : (s.tell k a).pageReqs = s.pageReqs := rfl
@[simp] theorem tell_frames (s : State) (k : String) (a : List Nat) : (s.tell k a).frames = s.frames := rfl
@[simp] theorem tell_frameErr (s : State) (k : String) (a : List Nat) : (s.tell k a).frameErr = s.frameErr := rfl
@[simp] theorem tell_sluiceEpoch (s : State) (k : String) (a : List Nat) : (s.tell k a).sluiceEpoch = s.sluiceEpoch := rfl
@[simp] theorem tell_sluiceThresh (s : State) (k : String) (a : List Nat) : (s.tell k a).sluiceThresh = s.sluiceThresh := rfl
@[simp] theorem tell_sluiceQmax (s : State) (k : String) (a : List Nat) : (s.tell k a).sluiceQmax = s.sluiceQmax := rfl
@[simp] theorem tell_sluiceWater (s : State) (k : String) (a : List Nat) : (s.tell k a).sluiceWater = s.sluiceWater := rfl
@[simp] theorem tell_sluiceMaxrepl (s : State) (k : String) (a : List Nat) : (s.tell k a).sluiceMaxrepl = s.sluiceMaxrepl := rfl
@[simp] theorem tell_rangeInvs (s : State) (k : String) (a : List Nat) : (s.tell k a).rangeInvs = s.rangeInvs := rfl
@[simp] theorem tell_migrations (s : State) (k : String) (a : List Nat) : (s.tell k a).migrations = s.migrations := rfl
@[simp] theorem tell_ports (s : State) (k : String) (a : List Nat) : (s.tell k a).ports = s.ports := rfl
@[simp] theorem tell_routes (s : State) (k : String) (a : List Nat) : (s.tell k a).routes = s.routes := rfl
@[simp] theorem tell_txNext (s : State) (k : String) (a : List Nat) : (s.tell k a).txNext = s.txNext := rfl
@[simp] theorem tell_sent (s : State) (k : String) (a : List Nat) : (s.tell k a).sent = s.sent := rfl
@[simp] theorem tell_loopback (s : State) (k : String) (a : List Nat) : (s.tell k a).loopback = s.loopback := rfl
@[simp] theorem tell_heldFrames (s : State) (k : String) (a : List Nat) : (s.tell k a).heldFrames = s.heldFrames := rfl
@[simp] theorem tell_rx (s : State) (k : String) (a : List Nat) : (s.tell k a).rx = s.rx := rfl
@[simp] theorem tell_remotes (s : State) (k : String) (a : List Nat) : (s.tell k a).remotes = s.remotes := rfl
@[simp] theorem tell_taskAsks (s : State) (k : String) (a : List Nat) : (s.tell k a).taskAsks = s.taskAsks := rfl
@[simp] theorem tell_nextTx (s : State) (k : String) (a : List Nat) : (s.tell k a).nextTx = s.nextTx := rfl
@[simp] theorem tell_unreachable (s : State) (k : String) (a : List Nat) : (s.tell k a).unreachable = s.unreachable := rfl
@[simp] theorem tell_detours (s : State) (k : String) (a : List Nat) : (s.tell k a).detours = s.detours := rfl

/-! ## State.leaveBundle -/

@[simp] theorem leaveBundle_inputs (s : State) (r : ThreadRef) : (s.leaveBundle r).inputs = s.inputs := rfl
@[simp] theorem leaveBundle_sched (s : State) (r : ThreadRef) : (s.leaveBundle r).sched = s.sched := rfl
@[simp] theorem leaveBundle_fresh (s : State) (r : ThreadRef) : (s.leaveBundle r).fresh = s.fresh := rfl
@[simp] theorem leaveBundle_tick (s : State) (r : ThreadRef) : (s.leaveBundle r).tick = s.tick := rfl
@[simp] theorem leaveBundle_ns (s : State) (r : ThreadRef) : (s.leaveBundle r).ns = s.ns := rfl
@[simp] theorem leaveBundle_mem (s : State) (r : ThreadRef) : (s.leaveBundle r).mem = s.mem := rfl
@[simp] theorem leaveBundle_ecc (s : State) (r : ThreadRef) : (s.leaveBundle r).ecc = s.ecc := rfl
@[simp] theorem leaveBundle_hostMem (s : State) (r : ThreadRef) : (s.leaveBundle r).hostMem = s.hostMem := rfl
@[simp] theorem leaveBundle_booted (s : State) (r : ThreadRef) : (s.leaveBundle r).booted = s.booted := rfl
@[simp] theorem leaveBundle_failedBoot (s : State) (r : ThreadRef) : (s.leaveBundle r).failedBoot = s.failedBoot := rfl
@[simp] theorem leaveBundle_flash (s : State) (r : ThreadRef) : (s.leaveBundle r).flash = s.flash := rfl
@[simp] theorem leaveBundle_records (s : State) (r : ThreadRef) : (s.leaveBundle r).records = s.records := rfl
@[simp] theorem leaveBundle_update (s : State) (r : ThreadRef) : (s.leaveBundle r).update = s.update := rfl
@[simp] theorem leaveBundle_handover (s : State) (r : ThreadRef) : (s.leaveBundle r).handover = s.handover := rfl
@[simp] theorem leaveBundle_running (s : State) (r : ThreadRef) : (s.leaveBundle r).running = s.running := rfl
@[simp] theorem leaveBundle_rootBlock (s : State) (r : ThreadRef) : (s.leaveBundle r).rootBlock = s.rootBlock := rfl
@[simp] theorem leaveBundle_signing (s : State) (r : ThreadRef) : (s.leaveBundle r).signing = s.signing := rfl
@[simp] theorem leaveBundle_signs (s : State) (r : ThreadRef) : (s.leaveBundle r).signs = s.signs := rfl
@[simp] theorem leaveBundle_heldTeardowns (s : State) (r : ThreadRef) : (s.leaveBundle r).heldTeardowns = s.heldTeardowns := rfl
@[simp] theorem leaveBundle_heldResets (s : State) (r : ThreadRef) : (s.leaveBundle r).heldResets = s.heldResets := rfl
@[simp] theorem leaveBundle_unplugged (s : State) (r : ThreadRef) : (s.leaveBundle r).unplugged = s.unplugged := rfl
@[simp] theorem leaveBundle_measured (s : State) (r : ThreadRef) : (s.leaveBundle r).measured = s.measured := rfl
@[simp] theorem leaveBundle_attachedEver (s : State) (r : ThreadRef) : (s.leaveBundle r).attachedEver = s.attachedEver := rfl
@[simp] theorem leaveBundle_debuggers (s : State) (r : ThreadRef) : (s.leaveBundle r).debuggers = s.debuggers := rfl
@[simp] theorem leaveBundle_gated (s : State) (r : ThreadRef) : (s.leaveBundle r).gated = s.gated := rfl
@[simp] theorem leaveBundle_wakeFilter (s : State) (r : ThreadRef) : (s.leaveBundle r).wakeFilter = s.wakeFilter := rfl
@[simp] theorem leaveBundle_wakeHeld (s : State) (r : ThreadRef) : (s.leaveBundle r).wakeHeld = s.wakeHeld := rfl
@[simp] theorem leaveBundle_wakeDropped (s : State) (r : ThreadRef) : (s.leaveBundle r).wakeDropped = s.wakeDropped := rfl
@[simp] theorem leaveBundle_answers (s : State) (r : ThreadRef) : (s.leaveBundle r).answers = s.answers := rfl
@[simp] theorem leaveBundle_notices (s : State) (r : ThreadRef) : (s.leaveBundle r).notices = s.notices := rfl
@[simp] theorem leaveBundle_pcap (s : State) (r : ThreadRef) : (s.leaveBundle r).pcap = s.pcap := rfl
@[simp] theorem leaveBundle_meter (s : State) (r : ThreadRef) : (s.leaveBundle r).meter = s.meter := rfl
@[simp] theorem leaveBundle_dies (s : State) (r : ThreadRef) : (s.leaveBundle r).dies = s.dies := rfl
@[simp] theorem leaveBundle_quarters (s : State) (r : ThreadRef) : (s.leaveBundle r).quarters = s.quarters := rfl
@[simp] theorem leaveBundle_cores (s : State) (r : ThreadRef) : (s.leaveBundle r).cores = s.cores := rfl
@[simp] theorem leaveBundle_ctxs (s : State) (r : ThreadRef) : (s.leaveBundle r).ctxs = s.ctxs := rfl
@[simp] theorem leaveBundle_launches (s : State) (r : ThreadRef) : (s.leaveBundle r).launches = s.launches := rfl
@[simp] theorem leaveBundle_clusters (s : State) (r : ThreadRef) : (s.leaveBundle r).clusters = s.clusters := rfl
@[simp] theorem leaveBundle_teams (s : State) (r : ThreadRef) : (s.leaveBundle r).teams = s.teams := rfl
@[simp] theorem leaveBundle_killRecs (s : State) (r : ThreadRef) : (s.leaveBundle r).killRecs = s.killRecs := rfl
@[simp] theorem leaveBundle_fwHeld (s : State) (r : ThreadRef) : (s.leaveBundle r).fwHeld = s.fwHeld := rfl
@[simp] theorem leaveBundle_serial (s : State) (r : ThreadRef) : (s.leaveBundle r).serial = s.serial := rfl
@[simp] theorem leaveBundle_objs (s : State) (r : ThreadRef) : (s.leaveBundle r).objs = s.objs := rfl
@[simp] theorem leaveBundle_queues (s : State) (r : ThreadRef) : (s.leaveBundle r).queues = s.queues := rfl
@[simp] theorem leaveBundle_taskqs (s : State) (r : ThreadRef) : (s.leaveBundle r).taskqs = s.taskqs := rfl
@[simp] theorem leaveBundle_tenants (s : State) (r : ThreadRef) : (s.leaveBundle r).tenants = s.tenants := rfl
@[simp] theorem leaveBundle_prqbase (s : State) (r : ThreadRef) : (s.leaveBundle r).prqbase = s.prqbase := rfl
@[simp] theorem leaveBundle_prqwr (s : State) (r : ThreadRef) : (s.leaveBundle r).prqwr = s.prqwr := rfl
@[simp] theorem leaveBundle_prqrd (s : State) (r : ThreadRef) : (s.leaveBundle r).prqrd = s.prqrd := rfl
@[simp] theorem leaveBundle_prqHeld (s : State) (r : ThreadRef) : (s.leaveBundle r).prqHeld = s.prqHeld := rfl
@[simp] theorem leaveBundle_pageReqs (s : State) (r : ThreadRef) : (s.leaveBundle r).pageReqs = s.pageReqs := rfl
@[simp] theorem leaveBundle_frames (s : State) (r : ThreadRef) : (s.leaveBundle r).frames = s.frames := rfl
@[simp] theorem leaveBundle_frameErr (s : State) (r : ThreadRef) : (s.leaveBundle r).frameErr = s.frameErr := rfl
@[simp] theorem leaveBundle_sluiceEpoch (s : State) (r : ThreadRef) : (s.leaveBundle r).sluiceEpoch = s.sluiceEpoch := rfl
@[simp] theorem leaveBundle_sluiceThresh (s : State) (r : ThreadRef) : (s.leaveBundle r).sluiceThresh = s.sluiceThresh := rfl
@[simp] theorem leaveBundle_sluiceQmax (s : State) (r : ThreadRef) : (s.leaveBundle r).sluiceQmax = s.sluiceQmax := rfl
@[simp] theorem leaveBundle_sluiceWater (s : State) (r : ThreadRef) : (s.leaveBundle r).sluiceWater = s.sluiceWater := rfl
@[simp] theorem leaveBundle_sluiceMaxrepl (s : State) (r : ThreadRef) : (s.leaveBundle r).sluiceMaxrepl = s.sluiceMaxrepl := rfl
@[simp] theorem leaveBundle_rangeInvs (s : State) (r : ThreadRef) : (s.leaveBundle r).rangeInvs = s.rangeInvs := rfl
@[simp] theorem leaveBundle_migrations (s : State) (r : ThreadRef) : (s.leaveBundle r).migrations = s.migrations := rfl
@[simp] theorem leaveBundle_ports (s : State) (r : ThreadRef) : (s.leaveBundle r).ports = s.ports := rfl
@[simp] theorem leaveBundle_routes (s : State) (r : ThreadRef) : (s.leaveBundle r).routes = s.routes := rfl
@[simp] theorem leaveBundle_txNext (s : State) (r : ThreadRef) : (s.leaveBundle r).txNext = s.txNext := rfl
@[simp] theorem leaveBundle_sent (s : State) (r : ThreadRef) : (s.leaveBundle r).sent = s.sent := rfl
@[simp] theorem leaveBundle_loopback (s : State) (r : ThreadRef) : (s.leaveBundle r).loopback = s.loopback := rfl
@[simp] theorem leaveBundle_heldFrames (s : State) (r : ThreadRef) : (s.leaveBundle r).heldFrames = s.heldFrames := rfl
@[simp] theorem leaveBundle_rx (s : State) (r : ThreadRef) : (s.leaveBundle r).rx = s.rx := rfl
@[simp] theorem leaveBundle_remotes (s : State) (r : ThreadRef) : (s.leaveBundle r).remotes = s.remotes := rfl
@[simp] theorem leaveBundle_taskAsks (s : State) (r : ThreadRef) : (s.leaveBundle r).taskAsks = s.taskAsks := rfl
@[simp] theorem leaveBundle_nextTx (s : State) (r : ThreadRef) : (s.leaveBundle r).nextTx = s.nextTx := rfl
@[simp] theorem leaveBundle_unreachable (s : State) (r : ThreadRef) : (s.leaveBundle r).unreachable = s.unreachable := rfl
@[simp] theorem leaveBundle_detours (s : State) (r : ThreadRef) : (s.leaveBundle r).detours = s.detours := rfl

/-! ## State.setCause -/

@[simp] theorem setCause_inputs (s : State) (t g : Nat) (c : Cause) : (s.setCause t g c).inputs = s.inputs := rfl
@[simp] theorem setCause_sched (s : State) (t g : Nat) (c : Cause) : (s.setCause t g c).sched = s.sched := rfl
@[simp] theorem setCause_fresh (s : State) (t g : Nat) (c : Cause) : (s.setCause t g c).fresh = s.fresh := rfl
@[simp] theorem setCause_tick (s : State) (t g : Nat) (c : Cause) : (s.setCause t g c).tick = s.tick := rfl
@[simp] theorem setCause_ns (s : State) (t g : Nat) (c : Cause) : (s.setCause t g c).ns = s.ns := rfl
@[simp] theorem setCause_issue (s : State) (t g : Nat) (c : Cause) : (s.setCause t g c).issue = s.issue := rfl
@[simp] theorem setCause_mem (s : State) (t g : Nat) (c : Cause) : (s.setCause t g c).mem = s.mem := rfl
@[simp] theorem setCause_ecc (s : State) (t g : Nat) (c : Cause) : (s.setCause t g c).ecc = s.ecc := rfl
@[simp] theorem setCause_hostMem (s : State) (t g : Nat) (c : Cause) : (s.setCause t g c).hostMem = s.hostMem := rfl
@[simp] theorem setCause_booted (s : State) (t g : Nat) (c : Cause) : (s.setCause t g c).booted = s.booted := rfl
@[simp] theorem setCause_failedBoot (s : State) (t g : Nat) (c : Cause) : (s.setCause t g c).failedBoot = s.failedBoot := rfl
@[simp] theorem setCause_flash (s : State) (t g : Nat) (c : Cause) : (s.setCause t g c).flash = s.flash := rfl
@[simp] theorem setCause_records (s : State) (t g : Nat) (c : Cause) : (s.setCause t g c).records = s.records := rfl
@[simp] theorem setCause_update (s : State) (t g : Nat) (c : Cause) : (s.setCause t g c).update = s.update := rfl
@[simp] theorem setCause_handover (s : State) (t g : Nat) (c : Cause) : (s.setCause t g c).handover = s.handover := rfl
@[simp] theorem setCause_running (s : State) (t g : Nat) (c : Cause) : (s.setCause t g c).running = s.running := rfl
@[simp] theorem setCause_rootBlock (s : State) (t g : Nat) (c : Cause) : (s.setCause t g c).rootBlock = s.rootBlock := rfl
@[simp] theorem setCause_signing (s : State) (t g : Nat) (c : Cause) : (s.setCause t g c).signing = s.signing := rfl
@[simp] theorem setCause_signs (s : State) (t g : Nat) (c : Cause) : (s.setCause t g c).signs = s.signs := rfl
@[simp] theorem setCause_heldTeardowns (s : State) (t g : Nat) (c : Cause) : (s.setCause t g c).heldTeardowns = s.heldTeardowns := rfl
@[simp] theorem setCause_heldResets (s : State) (t g : Nat) (c : Cause) : (s.setCause t g c).heldResets = s.heldResets := rfl
@[simp] theorem setCause_unplugged (s : State) (t g : Nat) (c : Cause) : (s.setCause t g c).unplugged = s.unplugged := rfl
@[simp] theorem setCause_measured (s : State) (t g : Nat) (c : Cause) : (s.setCause t g c).measured = s.measured := rfl
@[simp] theorem setCause_attachedEver (s : State) (t g : Nat) (c : Cause) : (s.setCause t g c).attachedEver = s.attachedEver := rfl
@[simp] theorem setCause_debuggers (s : State) (t g : Nat) (c : Cause) : (s.setCause t g c).debuggers = s.debuggers := rfl
@[simp] theorem setCause_gated (s : State) (t g : Nat) (c : Cause) : (s.setCause t g c).gated = s.gated := rfl
@[simp] theorem setCause_wakeFilter (s : State) (t g : Nat) (c : Cause) : (s.setCause t g c).wakeFilter = s.wakeFilter := rfl
@[simp] theorem setCause_wakeHeld (s : State) (t g : Nat) (c : Cause) : (s.setCause t g c).wakeHeld = s.wakeHeld := rfl
@[simp] theorem setCause_wakeDropped (s : State) (t g : Nat) (c : Cause) : (s.setCause t g c).wakeDropped = s.wakeDropped := rfl
@[simp] theorem setCause_answers (s : State) (t g : Nat) (c : Cause) : (s.setCause t g c).answers = s.answers := rfl
@[simp] theorem setCause_notices (s : State) (t g : Nat) (c : Cause) : (s.setCause t g c).notices = s.notices := rfl
@[simp] theorem setCause_pcap (s : State) (t g : Nat) (c : Cause) : (s.setCause t g c).pcap = s.pcap := rfl
@[simp] theorem setCause_meter (s : State) (t g : Nat) (c : Cause) : (s.setCause t g c).meter = s.meter := rfl
@[simp] theorem setCause_dies (s : State) (t g : Nat) (c : Cause) : (s.setCause t g c).dies = s.dies := rfl
@[simp] theorem setCause_quarters (s : State) (t g : Nat) (c : Cause) : (s.setCause t g c).quarters = s.quarters := rfl
@[simp] theorem setCause_cores (s : State) (t g : Nat) (c : Cause) : (s.setCause t g c).cores = s.cores := rfl
@[simp] theorem setCause_ctxs (s : State) (t g : Nat) (c : Cause) : (s.setCause t g c).ctxs = s.ctxs := rfl
@[simp] theorem setCause_launches (s : State) (t g : Nat) (c : Cause) : (s.setCause t g c).launches = s.launches := rfl
@[simp] theorem setCause_clusters (s : State) (t g : Nat) (c : Cause) : (s.setCause t g c).clusters = s.clusters := rfl
@[simp] theorem setCause_killRecs (s : State) (t g : Nat) (c : Cause) : (s.setCause t g c).killRecs = s.killRecs := rfl
@[simp] theorem setCause_fwHeld (s : State) (t g : Nat) (c : Cause) : (s.setCause t g c).fwHeld = s.fwHeld := rfl
@[simp] theorem setCause_serial (s : State) (t g : Nat) (c : Cause) : (s.setCause t g c).serial = s.serial := rfl
@[simp] theorem setCause_objs (s : State) (t g : Nat) (c : Cause) : (s.setCause t g c).objs = s.objs := rfl
@[simp] theorem setCause_queues (s : State) (t g : Nat) (c : Cause) : (s.setCause t g c).queues = s.queues := rfl
@[simp] theorem setCause_taskqs (s : State) (t g : Nat) (c : Cause) : (s.setCause t g c).taskqs = s.taskqs := rfl
@[simp] theorem setCause_tenants (s : State) (t g : Nat) (c : Cause) : (s.setCause t g c).tenants = s.tenants := rfl
@[simp] theorem setCause_prqbase (s : State) (t g : Nat) (c : Cause) : (s.setCause t g c).prqbase = s.prqbase := rfl
@[simp] theorem setCause_prqwr (s : State) (t g : Nat) (c : Cause) : (s.setCause t g c).prqwr = s.prqwr := rfl
@[simp] theorem setCause_prqrd (s : State) (t g : Nat) (c : Cause) : (s.setCause t g c).prqrd = s.prqrd := rfl
@[simp] theorem setCause_prqHeld (s : State) (t g : Nat) (c : Cause) : (s.setCause t g c).prqHeld = s.prqHeld := rfl
@[simp] theorem setCause_pageReqs (s : State) (t g : Nat) (c : Cause) : (s.setCause t g c).pageReqs = s.pageReqs := rfl
@[simp] theorem setCause_frames (s : State) (t g : Nat) (c : Cause) : (s.setCause t g c).frames = s.frames := rfl
@[simp] theorem setCause_frameErr (s : State) (t g : Nat) (c : Cause) : (s.setCause t g c).frameErr = s.frameErr := rfl
@[simp] theorem setCause_sluiceEpoch (s : State) (t g : Nat) (c : Cause) : (s.setCause t g c).sluiceEpoch = s.sluiceEpoch := rfl
@[simp] theorem setCause_sluiceThresh (s : State) (t g : Nat) (c : Cause) : (s.setCause t g c).sluiceThresh = s.sluiceThresh := rfl
@[simp] theorem setCause_sluiceQmax (s : State) (t g : Nat) (c : Cause) : (s.setCause t g c).sluiceQmax = s.sluiceQmax := rfl
@[simp] theorem setCause_sluiceWater (s : State) (t g : Nat) (c : Cause) : (s.setCause t g c).sluiceWater = s.sluiceWater := rfl
@[simp] theorem setCause_sluiceMaxrepl (s : State) (t g : Nat) (c : Cause) : (s.setCause t g c).sluiceMaxrepl = s.sluiceMaxrepl := rfl
@[simp] theorem setCause_rangeInvs (s : State) (t g : Nat) (c : Cause) : (s.setCause t g c).rangeInvs = s.rangeInvs := rfl
@[simp] theorem setCause_migrations (s : State) (t g : Nat) (c : Cause) : (s.setCause t g c).migrations = s.migrations := rfl
@[simp] theorem setCause_ports (s : State) (t g : Nat) (c : Cause) : (s.setCause t g c).ports = s.ports := rfl
@[simp] theorem setCause_routes (s : State) (t g : Nat) (c : Cause) : (s.setCause t g c).routes = s.routes := rfl
@[simp] theorem setCause_txNext (s : State) (t g : Nat) (c : Cause) : (s.setCause t g c).txNext = s.txNext := rfl
@[simp] theorem setCause_sent (s : State) (t g : Nat) (c : Cause) : (s.setCause t g c).sent = s.sent := rfl
@[simp] theorem setCause_loopback (s : State) (t g : Nat) (c : Cause) : (s.setCause t g c).loopback = s.loopback := rfl
@[simp] theorem setCause_heldFrames (s : State) (t g : Nat) (c : Cause) : (s.setCause t g c).heldFrames = s.heldFrames := rfl
@[simp] theorem setCause_rx (s : State) (t g : Nat) (c : Cause) : (s.setCause t g c).rx = s.rx := rfl
@[simp] theorem setCause_remotes (s : State) (t g : Nat) (c : Cause) : (s.setCause t g c).remotes = s.remotes := rfl
@[simp] theorem setCause_taskAsks (s : State) (t g : Nat) (c : Cause) : (s.setCause t g c).taskAsks = s.taskAsks := rfl
@[simp] theorem setCause_nextTx (s : State) (t g : Nat) (c : Cause) : (s.setCause t g c).nextTx = s.nextTx := rfl
@[simp] theorem setCause_unreachable (s : State) (t g : Nat) (c : Cause) : (s.setCause t g c).unreachable = s.unreachable := rfl
@[simp] theorem setCause_detours (s : State) (t g : Nat) (c : Cause) : (s.setCause t g c).detours = s.detours := rfl

/-! ## State.updCore -/

@[simp] theorem updCore_inputs (s : State) (c : Nat) (f : Core → Core) : (s.updCore c f).inputs = s.inputs := by unfold State.updCore; split <;> rfl
@[simp] theorem updCore_sched (s : State) (c : Nat) (f : Core → Core) : (s.updCore c f).sched = s.sched := by unfold State.updCore; split <;> rfl
@[simp] theorem updCore_fresh (s : State) (c : Nat) (f : Core → Core) : (s.updCore c f).fresh = s.fresh := by unfold State.updCore; split <;> rfl
@[simp] theorem updCore_tick (s : State) (c : Nat) (f : Core → Core) : (s.updCore c f).tick = s.tick := by unfold State.updCore; split <;> rfl
@[simp] theorem updCore_ns (s : State) (c : Nat) (f : Core → Core) : (s.updCore c f).ns = s.ns := by unfold State.updCore; split <;> rfl
@[simp] theorem updCore_issue (s : State) (c : Nat) (f : Core → Core) : (s.updCore c f).issue = s.issue := by unfold State.updCore; split <;> rfl
@[simp] theorem updCore_mem (s : State) (c : Nat) (f : Core → Core) : (s.updCore c f).mem = s.mem := by unfold State.updCore; split <;> rfl
@[simp] theorem updCore_ecc (s : State) (c : Nat) (f : Core → Core) : (s.updCore c f).ecc = s.ecc := by unfold State.updCore; split <;> rfl
@[simp] theorem updCore_hostMem (s : State) (c : Nat) (f : Core → Core) : (s.updCore c f).hostMem = s.hostMem := by unfold State.updCore; split <;> rfl
@[simp] theorem updCore_booted (s : State) (c : Nat) (f : Core → Core) : (s.updCore c f).booted = s.booted := by unfold State.updCore; split <;> rfl
@[simp] theorem updCore_failedBoot (s : State) (c : Nat) (f : Core → Core) : (s.updCore c f).failedBoot = s.failedBoot := by unfold State.updCore; split <;> rfl
@[simp] theorem updCore_flash (s : State) (c : Nat) (f : Core → Core) : (s.updCore c f).flash = s.flash := by unfold State.updCore; split <;> rfl
@[simp] theorem updCore_records (s : State) (c : Nat) (f : Core → Core) : (s.updCore c f).records = s.records := by unfold State.updCore; split <;> rfl
@[simp] theorem updCore_update (s : State) (c : Nat) (f : Core → Core) : (s.updCore c f).update = s.update := by unfold State.updCore; split <;> rfl
@[simp] theorem updCore_handover (s : State) (c : Nat) (f : Core → Core) : (s.updCore c f).handover = s.handover := by unfold State.updCore; split <;> rfl
@[simp] theorem updCore_running (s : State) (c : Nat) (f : Core → Core) : (s.updCore c f).running = s.running := by unfold State.updCore; split <;> rfl
@[simp] theorem updCore_rootBlock (s : State) (c : Nat) (f : Core → Core) : (s.updCore c f).rootBlock = s.rootBlock := by unfold State.updCore; split <;> rfl
@[simp] theorem updCore_signing (s : State) (c : Nat) (f : Core → Core) : (s.updCore c f).signing = s.signing := by unfold State.updCore; split <;> rfl
@[simp] theorem updCore_signs (s : State) (c : Nat) (f : Core → Core) : (s.updCore c f).signs = s.signs := by unfold State.updCore; split <;> rfl
@[simp] theorem updCore_heldTeardowns (s : State) (c : Nat) (f : Core → Core) : (s.updCore c f).heldTeardowns = s.heldTeardowns := by unfold State.updCore; split <;> rfl
@[simp] theorem updCore_heldResets (s : State) (c : Nat) (f : Core → Core) : (s.updCore c f).heldResets = s.heldResets := by unfold State.updCore; split <;> rfl
@[simp] theorem updCore_unplugged (s : State) (c : Nat) (f : Core → Core) : (s.updCore c f).unplugged = s.unplugged := by unfold State.updCore; split <;> rfl
@[simp] theorem updCore_measured (s : State) (c : Nat) (f : Core → Core) : (s.updCore c f).measured = s.measured := by unfold State.updCore; split <;> rfl
@[simp] theorem updCore_attachedEver (s : State) (c : Nat) (f : Core → Core) : (s.updCore c f).attachedEver = s.attachedEver := by unfold State.updCore; split <;> rfl
@[simp] theorem updCore_debuggers (s : State) (c : Nat) (f : Core → Core) : (s.updCore c f).debuggers = s.debuggers := by unfold State.updCore; split <;> rfl
@[simp] theorem updCore_gated (s : State) (c : Nat) (f : Core → Core) : (s.updCore c f).gated = s.gated := by unfold State.updCore; split <;> rfl
@[simp] theorem updCore_wakeFilter (s : State) (c : Nat) (f : Core → Core) : (s.updCore c f).wakeFilter = s.wakeFilter := by unfold State.updCore; split <;> rfl
@[simp] theorem updCore_wakeHeld (s : State) (c : Nat) (f : Core → Core) : (s.updCore c f).wakeHeld = s.wakeHeld := by unfold State.updCore; split <;> rfl
@[simp] theorem updCore_wakeDropped (s : State) (c : Nat) (f : Core → Core) : (s.updCore c f).wakeDropped = s.wakeDropped := by unfold State.updCore; split <;> rfl
@[simp] theorem updCore_answers (s : State) (c : Nat) (f : Core → Core) : (s.updCore c f).answers = s.answers := by unfold State.updCore; split <;> rfl
@[simp] theorem updCore_notices (s : State) (c : Nat) (f : Core → Core) : (s.updCore c f).notices = s.notices := by unfold State.updCore; split <;> rfl
@[simp] theorem updCore_pcap (s : State) (c : Nat) (f : Core → Core) : (s.updCore c f).pcap = s.pcap := by unfold State.updCore; split <;> rfl
@[simp] theorem updCore_meter (s : State) (c : Nat) (f : Core → Core) : (s.updCore c f).meter = s.meter := by unfold State.updCore; split <;> rfl
@[simp] theorem updCore_dies (s : State) (c : Nat) (f : Core → Core) : (s.updCore c f).dies = s.dies := by unfold State.updCore; split <;> rfl
@[simp] theorem updCore_quarters (s : State) (c : Nat) (f : Core → Core) : (s.updCore c f).quarters = s.quarters := by unfold State.updCore; split <;> rfl
@[simp] theorem updCore_ctxs (s : State) (c : Nat) (f : Core → Core) : (s.updCore c f).ctxs = s.ctxs := by unfold State.updCore; split <;> rfl
@[simp] theorem updCore_launches (s : State) (c : Nat) (f : Core → Core) : (s.updCore c f).launches = s.launches := by unfold State.updCore; split <;> rfl
@[simp] theorem updCore_clusters (s : State) (c : Nat) (f : Core → Core) : (s.updCore c f).clusters = s.clusters := by unfold State.updCore; split <;> rfl
@[simp] theorem updCore_teams (s : State) (c : Nat) (f : Core → Core) : (s.updCore c f).teams = s.teams := by unfold State.updCore; split <;> rfl
@[simp] theorem updCore_killRecs (s : State) (c : Nat) (f : Core → Core) : (s.updCore c f).killRecs = s.killRecs := by unfold State.updCore; split <;> rfl
@[simp] theorem updCore_fwHeld (s : State) (c : Nat) (f : Core → Core) : (s.updCore c f).fwHeld = s.fwHeld := by unfold State.updCore; split <;> rfl
@[simp] theorem updCore_serial (s : State) (c : Nat) (f : Core → Core) : (s.updCore c f).serial = s.serial := by unfold State.updCore; split <;> rfl
@[simp] theorem updCore_objs (s : State) (c : Nat) (f : Core → Core) : (s.updCore c f).objs = s.objs := by unfold State.updCore; split <;> rfl
@[simp] theorem updCore_queues (s : State) (c : Nat) (f : Core → Core) : (s.updCore c f).queues = s.queues := by unfold State.updCore; split <;> rfl
@[simp] theorem updCore_taskqs (s : State) (c : Nat) (f : Core → Core) : (s.updCore c f).taskqs = s.taskqs := by unfold State.updCore; split <;> rfl
@[simp] theorem updCore_tenants (s : State) (c : Nat) (f : Core → Core) : (s.updCore c f).tenants = s.tenants := by unfold State.updCore; split <;> rfl
@[simp] theorem updCore_prqbase (s : State) (c : Nat) (f : Core → Core) : (s.updCore c f).prqbase = s.prqbase := by unfold State.updCore; split <;> rfl
@[simp] theorem updCore_prqwr (s : State) (c : Nat) (f : Core → Core) : (s.updCore c f).prqwr = s.prqwr := by unfold State.updCore; split <;> rfl
@[simp] theorem updCore_prqrd (s : State) (c : Nat) (f : Core → Core) : (s.updCore c f).prqrd = s.prqrd := by unfold State.updCore; split <;> rfl
@[simp] theorem updCore_prqHeld (s : State) (c : Nat) (f : Core → Core) : (s.updCore c f).prqHeld = s.prqHeld := by unfold State.updCore; split <;> rfl
@[simp] theorem updCore_pageReqs (s : State) (c : Nat) (f : Core → Core) : (s.updCore c f).pageReqs = s.pageReqs := by unfold State.updCore; split <;> rfl
@[simp] theorem updCore_frames (s : State) (c : Nat) (f : Core → Core) : (s.updCore c f).frames = s.frames := by unfold State.updCore; split <;> rfl
@[simp] theorem updCore_frameErr (s : State) (c : Nat) (f : Core → Core) : (s.updCore c f).frameErr = s.frameErr := by unfold State.updCore; split <;> rfl
@[simp] theorem updCore_sluiceEpoch (s : State) (c : Nat) (f : Core → Core) : (s.updCore c f).sluiceEpoch = s.sluiceEpoch := by unfold State.updCore; split <;> rfl
@[simp] theorem updCore_sluiceThresh (s : State) (c : Nat) (f : Core → Core) : (s.updCore c f).sluiceThresh = s.sluiceThresh := by unfold State.updCore; split <;> rfl
@[simp] theorem updCore_sluiceQmax (s : State) (c : Nat) (f : Core → Core) : (s.updCore c f).sluiceQmax = s.sluiceQmax := by unfold State.updCore; split <;> rfl
@[simp] theorem updCore_sluiceWater (s : State) (c : Nat) (f : Core → Core) : (s.updCore c f).sluiceWater = s.sluiceWater := by unfold State.updCore; split <;> rfl
@[simp] theorem updCore_sluiceMaxrepl (s : State) (c : Nat) (f : Core → Core) : (s.updCore c f).sluiceMaxrepl = s.sluiceMaxrepl := by unfold State.updCore; split <;> rfl
@[simp] theorem updCore_rangeInvs (s : State) (c : Nat) (f : Core → Core) : (s.updCore c f).rangeInvs = s.rangeInvs := by unfold State.updCore; split <;> rfl
@[simp] theorem updCore_migrations (s : State) (c : Nat) (f : Core → Core) : (s.updCore c f).migrations = s.migrations := by unfold State.updCore; split <;> rfl
@[simp] theorem updCore_ports (s : State) (c : Nat) (f : Core → Core) : (s.updCore c f).ports = s.ports := by unfold State.updCore; split <;> rfl
@[simp] theorem updCore_routes (s : State) (c : Nat) (f : Core → Core) : (s.updCore c f).routes = s.routes := by unfold State.updCore; split <;> rfl
@[simp] theorem updCore_txNext (s : State) (c : Nat) (f : Core → Core) : (s.updCore c f).txNext = s.txNext := by unfold State.updCore; split <;> rfl
@[simp] theorem updCore_sent (s : State) (c : Nat) (f : Core → Core) : (s.updCore c f).sent = s.sent := by unfold State.updCore; split <;> rfl
@[simp] theorem updCore_loopback (s : State) (c : Nat) (f : Core → Core) : (s.updCore c f).loopback = s.loopback := by unfold State.updCore; split <;> rfl
@[simp] theorem updCore_heldFrames (s : State) (c : Nat) (f : Core → Core) : (s.updCore c f).heldFrames = s.heldFrames := by unfold State.updCore; split <;> rfl
@[simp] theorem updCore_rx (s : State) (c : Nat) (f : Core → Core) : (s.updCore c f).rx = s.rx := by unfold State.updCore; split <;> rfl
@[simp] theorem updCore_remotes (s : State) (c : Nat) (f : Core → Core) : (s.updCore c f).remotes = s.remotes := by unfold State.updCore; split <;> rfl
@[simp] theorem updCore_taskAsks (s : State) (c : Nat) (f : Core → Core) : (s.updCore c f).taskAsks = s.taskAsks := by unfold State.updCore; split <;> rfl
@[simp] theorem updCore_nextTx (s : State) (c : Nat) (f : Core → Core) : (s.updCore c f).nextTx = s.nextTx := by unfold State.updCore; split <;> rfl
@[simp] theorem updCore_unreachable (s : State) (c : Nat) (f : Core → Core) : (s.updCore c f).unreachable = s.unreachable := by unfold State.updCore; split <;> rfl
@[simp] theorem updCore_detours (s : State) (c : Nat) (f : Core → Core) : (s.updCore c f).detours = s.detours := by unfold State.updCore; split <;> rfl

/-! ## State.updDie -/

@[simp] theorem updDie_inputs (s : State) (d : Nat) (f : Die → Die) : (s.updDie d f).inputs = s.inputs := by unfold State.updDie; split <;> rfl
@[simp] theorem updDie_sched (s : State) (d : Nat) (f : Die → Die) : (s.updDie d f).sched = s.sched := by unfold State.updDie; split <;> rfl
@[simp] theorem updDie_fresh (s : State) (d : Nat) (f : Die → Die) : (s.updDie d f).fresh = s.fresh := by unfold State.updDie; split <;> rfl
@[simp] theorem updDie_tick (s : State) (d : Nat) (f : Die → Die) : (s.updDie d f).tick = s.tick := by unfold State.updDie; split <;> rfl
@[simp] theorem updDie_ns (s : State) (d : Nat) (f : Die → Die) : (s.updDie d f).ns = s.ns := by unfold State.updDie; split <;> rfl
@[simp] theorem updDie_issue (s : State) (d : Nat) (f : Die → Die) : (s.updDie d f).issue = s.issue := by unfold State.updDie; split <;> rfl
@[simp] theorem updDie_mem (s : State) (d : Nat) (f : Die → Die) : (s.updDie d f).mem = s.mem := by unfold State.updDie; split <;> rfl
@[simp] theorem updDie_ecc (s : State) (d : Nat) (f : Die → Die) : (s.updDie d f).ecc = s.ecc := by unfold State.updDie; split <;> rfl
@[simp] theorem updDie_hostMem (s : State) (d : Nat) (f : Die → Die) : (s.updDie d f).hostMem = s.hostMem := by unfold State.updDie; split <;> rfl
@[simp] theorem updDie_booted (s : State) (d : Nat) (f : Die → Die) : (s.updDie d f).booted = s.booted := by unfold State.updDie; split <;> rfl
@[simp] theorem updDie_failedBoot (s : State) (d : Nat) (f : Die → Die) : (s.updDie d f).failedBoot = s.failedBoot := by unfold State.updDie; split <;> rfl
@[simp] theorem updDie_flash (s : State) (d : Nat) (f : Die → Die) : (s.updDie d f).flash = s.flash := by unfold State.updDie; split <;> rfl
@[simp] theorem updDie_records (s : State) (d : Nat) (f : Die → Die) : (s.updDie d f).records = s.records := by unfold State.updDie; split <;> rfl
@[simp] theorem updDie_update (s : State) (d : Nat) (f : Die → Die) : (s.updDie d f).update = s.update := by unfold State.updDie; split <;> rfl
@[simp] theorem updDie_handover (s : State) (d : Nat) (f : Die → Die) : (s.updDie d f).handover = s.handover := by unfold State.updDie; split <;> rfl
@[simp] theorem updDie_running (s : State) (d : Nat) (f : Die → Die) : (s.updDie d f).running = s.running := by unfold State.updDie; split <;> rfl
@[simp] theorem updDie_rootBlock (s : State) (d : Nat) (f : Die → Die) : (s.updDie d f).rootBlock = s.rootBlock := by unfold State.updDie; split <;> rfl
@[simp] theorem updDie_signing (s : State) (d : Nat) (f : Die → Die) : (s.updDie d f).signing = s.signing := by unfold State.updDie; split <;> rfl
@[simp] theorem updDie_signs (s : State) (d : Nat) (f : Die → Die) : (s.updDie d f).signs = s.signs := by unfold State.updDie; split <;> rfl
@[simp] theorem updDie_heldTeardowns (s : State) (d : Nat) (f : Die → Die) : (s.updDie d f).heldTeardowns = s.heldTeardowns := by unfold State.updDie; split <;> rfl
@[simp] theorem updDie_heldResets (s : State) (d : Nat) (f : Die → Die) : (s.updDie d f).heldResets = s.heldResets := by unfold State.updDie; split <;> rfl
@[simp] theorem updDie_unplugged (s : State) (d : Nat) (f : Die → Die) : (s.updDie d f).unplugged = s.unplugged := by unfold State.updDie; split <;> rfl
@[simp] theorem updDie_measured (s : State) (d : Nat) (f : Die → Die) : (s.updDie d f).measured = s.measured := by unfold State.updDie; split <;> rfl
@[simp] theorem updDie_attachedEver (s : State) (d : Nat) (f : Die → Die) : (s.updDie d f).attachedEver = s.attachedEver := by unfold State.updDie; split <;> rfl
@[simp] theorem updDie_debuggers (s : State) (d : Nat) (f : Die → Die) : (s.updDie d f).debuggers = s.debuggers := by unfold State.updDie; split <;> rfl
@[simp] theorem updDie_gated (s : State) (d : Nat) (f : Die → Die) : (s.updDie d f).gated = s.gated := by unfold State.updDie; split <;> rfl
@[simp] theorem updDie_wakeFilter (s : State) (d : Nat) (f : Die → Die) : (s.updDie d f).wakeFilter = s.wakeFilter := by unfold State.updDie; split <;> rfl
@[simp] theorem updDie_wakeHeld (s : State) (d : Nat) (f : Die → Die) : (s.updDie d f).wakeHeld = s.wakeHeld := by unfold State.updDie; split <;> rfl
@[simp] theorem updDie_wakeDropped (s : State) (d : Nat) (f : Die → Die) : (s.updDie d f).wakeDropped = s.wakeDropped := by unfold State.updDie; split <;> rfl
@[simp] theorem updDie_answers (s : State) (d : Nat) (f : Die → Die) : (s.updDie d f).answers = s.answers := by unfold State.updDie; split <;> rfl
@[simp] theorem updDie_notices (s : State) (d : Nat) (f : Die → Die) : (s.updDie d f).notices = s.notices := by unfold State.updDie; split <;> rfl
@[simp] theorem updDie_pcap (s : State) (d : Nat) (f : Die → Die) : (s.updDie d f).pcap = s.pcap := by unfold State.updDie; split <;> rfl
@[simp] theorem updDie_meter (s : State) (d : Nat) (f : Die → Die) : (s.updDie d f).meter = s.meter := by unfold State.updDie; split <;> rfl
@[simp] theorem updDie_quarters (s : State) (d : Nat) (f : Die → Die) : (s.updDie d f).quarters = s.quarters := by unfold State.updDie; split <;> rfl
@[simp] theorem updDie_cores (s : State) (d : Nat) (f : Die → Die) : (s.updDie d f).cores = s.cores := by unfold State.updDie; split <;> rfl
@[simp] theorem updDie_ctxs (s : State) (d : Nat) (f : Die → Die) : (s.updDie d f).ctxs = s.ctxs := by unfold State.updDie; split <;> rfl
@[simp] theorem updDie_launches (s : State) (d : Nat) (f : Die → Die) : (s.updDie d f).launches = s.launches := by unfold State.updDie; split <;> rfl
@[simp] theorem updDie_clusters (s : State) (d : Nat) (f : Die → Die) : (s.updDie d f).clusters = s.clusters := by unfold State.updDie; split <;> rfl
@[simp] theorem updDie_teams (s : State) (d : Nat) (f : Die → Die) : (s.updDie d f).teams = s.teams := by unfold State.updDie; split <;> rfl
@[simp] theorem updDie_killRecs (s : State) (d : Nat) (f : Die → Die) : (s.updDie d f).killRecs = s.killRecs := by unfold State.updDie; split <;> rfl
@[simp] theorem updDie_fwHeld (s : State) (d : Nat) (f : Die → Die) : (s.updDie d f).fwHeld = s.fwHeld := by unfold State.updDie; split <;> rfl
@[simp] theorem updDie_serial (s : State) (d : Nat) (f : Die → Die) : (s.updDie d f).serial = s.serial := by unfold State.updDie; split <;> rfl
@[simp] theorem updDie_objs (s : State) (d : Nat) (f : Die → Die) : (s.updDie d f).objs = s.objs := by unfold State.updDie; split <;> rfl
@[simp] theorem updDie_queues (s : State) (d : Nat) (f : Die → Die) : (s.updDie d f).queues = s.queues := by unfold State.updDie; split <;> rfl
@[simp] theorem updDie_taskqs (s : State) (d : Nat) (f : Die → Die) : (s.updDie d f).taskqs = s.taskqs := by unfold State.updDie; split <;> rfl
@[simp] theorem updDie_tenants (s : State) (d : Nat) (f : Die → Die) : (s.updDie d f).tenants = s.tenants := by unfold State.updDie; split <;> rfl
@[simp] theorem updDie_prqbase (s : State) (d : Nat) (f : Die → Die) : (s.updDie d f).prqbase = s.prqbase := by unfold State.updDie; split <;> rfl
@[simp] theorem updDie_prqwr (s : State) (d : Nat) (f : Die → Die) : (s.updDie d f).prqwr = s.prqwr := by unfold State.updDie; split <;> rfl
@[simp] theorem updDie_prqrd (s : State) (d : Nat) (f : Die → Die) : (s.updDie d f).prqrd = s.prqrd := by unfold State.updDie; split <;> rfl
@[simp] theorem updDie_prqHeld (s : State) (d : Nat) (f : Die → Die) : (s.updDie d f).prqHeld = s.prqHeld := by unfold State.updDie; split <;> rfl
@[simp] theorem updDie_pageReqs (s : State) (d : Nat) (f : Die → Die) : (s.updDie d f).pageReqs = s.pageReqs := by unfold State.updDie; split <;> rfl
@[simp] theorem updDie_frames (s : State) (d : Nat) (f : Die → Die) : (s.updDie d f).frames = s.frames := by unfold State.updDie; split <;> rfl
@[simp] theorem updDie_frameErr (s : State) (d : Nat) (f : Die → Die) : (s.updDie d f).frameErr = s.frameErr := by unfold State.updDie; split <;> rfl
@[simp] theorem updDie_sluiceEpoch (s : State) (d : Nat) (f : Die → Die) : (s.updDie d f).sluiceEpoch = s.sluiceEpoch := by unfold State.updDie; split <;> rfl
@[simp] theorem updDie_sluiceThresh (s : State) (d : Nat) (f : Die → Die) : (s.updDie d f).sluiceThresh = s.sluiceThresh := by unfold State.updDie; split <;> rfl
@[simp] theorem updDie_sluiceQmax (s : State) (d : Nat) (f : Die → Die) : (s.updDie d f).sluiceQmax = s.sluiceQmax := by unfold State.updDie; split <;> rfl
@[simp] theorem updDie_sluiceWater (s : State) (d : Nat) (f : Die → Die) : (s.updDie d f).sluiceWater = s.sluiceWater := by unfold State.updDie; split <;> rfl
@[simp] theorem updDie_sluiceMaxrepl (s : State) (d : Nat) (f : Die → Die) : (s.updDie d f).sluiceMaxrepl = s.sluiceMaxrepl := by unfold State.updDie; split <;> rfl
@[simp] theorem updDie_rangeInvs (s : State) (d : Nat) (f : Die → Die) : (s.updDie d f).rangeInvs = s.rangeInvs := by unfold State.updDie; split <;> rfl
@[simp] theorem updDie_migrations (s : State) (d : Nat) (f : Die → Die) : (s.updDie d f).migrations = s.migrations := by unfold State.updDie; split <;> rfl
@[simp] theorem updDie_ports (s : State) (d : Nat) (f : Die → Die) : (s.updDie d f).ports = s.ports := by unfold State.updDie; split <;> rfl
@[simp] theorem updDie_routes (s : State) (d : Nat) (f : Die → Die) : (s.updDie d f).routes = s.routes := by unfold State.updDie; split <;> rfl
@[simp] theorem updDie_txNext (s : State) (d : Nat) (f : Die → Die) : (s.updDie d f).txNext = s.txNext := by unfold State.updDie; split <;> rfl
@[simp] theorem updDie_sent (s : State) (d : Nat) (f : Die → Die) : (s.updDie d f).sent = s.sent := by unfold State.updDie; split <;> rfl
@[simp] theorem updDie_loopback (s : State) (d : Nat) (f : Die → Die) : (s.updDie d f).loopback = s.loopback := by unfold State.updDie; split <;> rfl
@[simp] theorem updDie_heldFrames (s : State) (d : Nat) (f : Die → Die) : (s.updDie d f).heldFrames = s.heldFrames := by unfold State.updDie; split <;> rfl
@[simp] theorem updDie_rx (s : State) (d : Nat) (f : Die → Die) : (s.updDie d f).rx = s.rx := by unfold State.updDie; split <;> rfl
@[simp] theorem updDie_remotes (s : State) (d : Nat) (f : Die → Die) : (s.updDie d f).remotes = s.remotes := by unfold State.updDie; split <;> rfl
@[simp] theorem updDie_taskAsks (s : State) (d : Nat) (f : Die → Die) : (s.updDie d f).taskAsks = s.taskAsks := by unfold State.updDie; split <;> rfl
@[simp] theorem updDie_nextTx (s : State) (d : Nat) (f : Die → Die) : (s.updDie d f).nextTx = s.nextTx := by unfold State.updDie; split <;> rfl
@[simp] theorem updDie_unreachable (s : State) (d : Nat) (f : Die → Die) : (s.updDie d f).unreachable = s.unreachable := by unfold State.updDie; split <;> rfl
@[simp] theorem updDie_detours (s : State) (d : Nat) (f : Die → Die) : (s.updDie d f).detours = s.detours := by unfold State.updDie; split <;> rfl

/-! ## State.updQuarter -/

@[simp] theorem updQuarter_inputs (s : State) (d q : Nat) (f : Quarter → Quarter) : (s.updQuarter d q f).inputs = s.inputs := by unfold State.updQuarter; split <;> rfl
@[simp] theorem updQuarter_sched (s : State) (d q : Nat) (f : Quarter → Quarter) : (s.updQuarter d q f).sched = s.sched := by unfold State.updQuarter; split <;> rfl
@[simp] theorem updQuarter_fresh (s : State) (d q : Nat) (f : Quarter → Quarter) : (s.updQuarter d q f).fresh = s.fresh := by unfold State.updQuarter; split <;> rfl
@[simp] theorem updQuarter_tick (s : State) (d q : Nat) (f : Quarter → Quarter) : (s.updQuarter d q f).tick = s.tick := by unfold State.updQuarter; split <;> rfl
@[simp] theorem updQuarter_ns (s : State) (d q : Nat) (f : Quarter → Quarter) : (s.updQuarter d q f).ns = s.ns := by unfold State.updQuarter; split <;> rfl
@[simp] theorem updQuarter_issue (s : State) (d q : Nat) (f : Quarter → Quarter) : (s.updQuarter d q f).issue = s.issue := by unfold State.updQuarter; split <;> rfl
@[simp] theorem updQuarter_mem (s : State) (d q : Nat) (f : Quarter → Quarter) : (s.updQuarter d q f).mem = s.mem := by unfold State.updQuarter; split <;> rfl
@[simp] theorem updQuarter_ecc (s : State) (d q : Nat) (f : Quarter → Quarter) : (s.updQuarter d q f).ecc = s.ecc := by unfold State.updQuarter; split <;> rfl
@[simp] theorem updQuarter_hostMem (s : State) (d q : Nat) (f : Quarter → Quarter) : (s.updQuarter d q f).hostMem = s.hostMem := by unfold State.updQuarter; split <;> rfl
@[simp] theorem updQuarter_booted (s : State) (d q : Nat) (f : Quarter → Quarter) : (s.updQuarter d q f).booted = s.booted := by unfold State.updQuarter; split <;> rfl
@[simp] theorem updQuarter_failedBoot (s : State) (d q : Nat) (f : Quarter → Quarter) : (s.updQuarter d q f).failedBoot = s.failedBoot := by unfold State.updQuarter; split <;> rfl
@[simp] theorem updQuarter_flash (s : State) (d q : Nat) (f : Quarter → Quarter) : (s.updQuarter d q f).flash = s.flash := by unfold State.updQuarter; split <;> rfl
@[simp] theorem updQuarter_records (s : State) (d q : Nat) (f : Quarter → Quarter) : (s.updQuarter d q f).records = s.records := by unfold State.updQuarter; split <;> rfl
@[simp] theorem updQuarter_update (s : State) (d q : Nat) (f : Quarter → Quarter) : (s.updQuarter d q f).update = s.update := by unfold State.updQuarter; split <;> rfl
@[simp] theorem updQuarter_handover (s : State) (d q : Nat) (f : Quarter → Quarter) : (s.updQuarter d q f).handover = s.handover := by unfold State.updQuarter; split <;> rfl
@[simp] theorem updQuarter_running (s : State) (d q : Nat) (f : Quarter → Quarter) : (s.updQuarter d q f).running = s.running := by unfold State.updQuarter; split <;> rfl
@[simp] theorem updQuarter_rootBlock (s : State) (d q : Nat) (f : Quarter → Quarter) : (s.updQuarter d q f).rootBlock = s.rootBlock := by unfold State.updQuarter; split <;> rfl
@[simp] theorem updQuarter_signing (s : State) (d q : Nat) (f : Quarter → Quarter) : (s.updQuarter d q f).signing = s.signing := by unfold State.updQuarter; split <;> rfl
@[simp] theorem updQuarter_signs (s : State) (d q : Nat) (f : Quarter → Quarter) : (s.updQuarter d q f).signs = s.signs := by unfold State.updQuarter; split <;> rfl
@[simp] theorem updQuarter_heldTeardowns (s : State) (d q : Nat) (f : Quarter → Quarter) : (s.updQuarter d q f).heldTeardowns = s.heldTeardowns := by unfold State.updQuarter; split <;> rfl
@[simp] theorem updQuarter_heldResets (s : State) (d q : Nat) (f : Quarter → Quarter) : (s.updQuarter d q f).heldResets = s.heldResets := by unfold State.updQuarter; split <;> rfl
@[simp] theorem updQuarter_unplugged (s : State) (d q : Nat) (f : Quarter → Quarter) : (s.updQuarter d q f).unplugged = s.unplugged := by unfold State.updQuarter; split <;> rfl
@[simp] theorem updQuarter_measured (s : State) (d q : Nat) (f : Quarter → Quarter) : (s.updQuarter d q f).measured = s.measured := by unfold State.updQuarter; split <;> rfl
@[simp] theorem updQuarter_attachedEver (s : State) (d q : Nat) (f : Quarter → Quarter) : (s.updQuarter d q f).attachedEver = s.attachedEver := by unfold State.updQuarter; split <;> rfl
@[simp] theorem updQuarter_debuggers (s : State) (d q : Nat) (f : Quarter → Quarter) : (s.updQuarter d q f).debuggers = s.debuggers := by unfold State.updQuarter; split <;> rfl
@[simp] theorem updQuarter_gated (s : State) (d q : Nat) (f : Quarter → Quarter) : (s.updQuarter d q f).gated = s.gated := by unfold State.updQuarter; split <;> rfl
@[simp] theorem updQuarter_wakeFilter (s : State) (d q : Nat) (f : Quarter → Quarter) : (s.updQuarter d q f).wakeFilter = s.wakeFilter := by unfold State.updQuarter; split <;> rfl
@[simp] theorem updQuarter_wakeHeld (s : State) (d q : Nat) (f : Quarter → Quarter) : (s.updQuarter d q f).wakeHeld = s.wakeHeld := by unfold State.updQuarter; split <;> rfl
@[simp] theorem updQuarter_wakeDropped (s : State) (d q : Nat) (f : Quarter → Quarter) : (s.updQuarter d q f).wakeDropped = s.wakeDropped := by unfold State.updQuarter; split <;> rfl
@[simp] theorem updQuarter_answers (s : State) (d q : Nat) (f : Quarter → Quarter) : (s.updQuarter d q f).answers = s.answers := by unfold State.updQuarter; split <;> rfl
@[simp] theorem updQuarter_notices (s : State) (d q : Nat) (f : Quarter → Quarter) : (s.updQuarter d q f).notices = s.notices := by unfold State.updQuarter; split <;> rfl
@[simp] theorem updQuarter_pcap (s : State) (d q : Nat) (f : Quarter → Quarter) : (s.updQuarter d q f).pcap = s.pcap := by unfold State.updQuarter; split <;> rfl
@[simp] theorem updQuarter_meter (s : State) (d q : Nat) (f : Quarter → Quarter) : (s.updQuarter d q f).meter = s.meter := by unfold State.updQuarter; split <;> rfl
@[simp] theorem updQuarter_dies (s : State) (d q : Nat) (f : Quarter → Quarter) : (s.updQuarter d q f).dies = s.dies := by unfold State.updQuarter; split <;> rfl
@[simp] theorem updQuarter_cores (s : State) (d q : Nat) (f : Quarter → Quarter) : (s.updQuarter d q f).cores = s.cores := by unfold State.updQuarter; split <;> rfl
@[simp] theorem updQuarter_ctxs (s : State) (d q : Nat) (f : Quarter → Quarter) : (s.updQuarter d q f).ctxs = s.ctxs := by unfold State.updQuarter; split <;> rfl
@[simp] theorem updQuarter_launches (s : State) (d q : Nat) (f : Quarter → Quarter) : (s.updQuarter d q f).launches = s.launches := by unfold State.updQuarter; split <;> rfl
@[simp] theorem updQuarter_clusters (s : State) (d q : Nat) (f : Quarter → Quarter) : (s.updQuarter d q f).clusters = s.clusters := by unfold State.updQuarter; split <;> rfl
@[simp] theorem updQuarter_teams (s : State) (d q : Nat) (f : Quarter → Quarter) : (s.updQuarter d q f).teams = s.teams := by unfold State.updQuarter; split <;> rfl
@[simp] theorem updQuarter_killRecs (s : State) (d q : Nat) (f : Quarter → Quarter) : (s.updQuarter d q f).killRecs = s.killRecs := by unfold State.updQuarter; split <;> rfl
@[simp] theorem updQuarter_fwHeld (s : State) (d q : Nat) (f : Quarter → Quarter) : (s.updQuarter d q f).fwHeld = s.fwHeld := by unfold State.updQuarter; split <;> rfl
@[simp] theorem updQuarter_serial (s : State) (d q : Nat) (f : Quarter → Quarter) : (s.updQuarter d q f).serial = s.serial := by unfold State.updQuarter; split <;> rfl
@[simp] theorem updQuarter_objs (s : State) (d q : Nat) (f : Quarter → Quarter) : (s.updQuarter d q f).objs = s.objs := by unfold State.updQuarter; split <;> rfl
@[simp] theorem updQuarter_queues (s : State) (d q : Nat) (f : Quarter → Quarter) : (s.updQuarter d q f).queues = s.queues := by unfold State.updQuarter; split <;> rfl
@[simp] theorem updQuarter_taskqs (s : State) (d q : Nat) (f : Quarter → Quarter) : (s.updQuarter d q f).taskqs = s.taskqs := by unfold State.updQuarter; split <;> rfl
@[simp] theorem updQuarter_tenants (s : State) (d q : Nat) (f : Quarter → Quarter) : (s.updQuarter d q f).tenants = s.tenants := by unfold State.updQuarter; split <;> rfl
@[simp] theorem updQuarter_prqbase (s : State) (d q : Nat) (f : Quarter → Quarter) : (s.updQuarter d q f).prqbase = s.prqbase := by unfold State.updQuarter; split <;> rfl
@[simp] theorem updQuarter_prqwr (s : State) (d q : Nat) (f : Quarter → Quarter) : (s.updQuarter d q f).prqwr = s.prqwr := by unfold State.updQuarter; split <;> rfl
@[simp] theorem updQuarter_prqrd (s : State) (d q : Nat) (f : Quarter → Quarter) : (s.updQuarter d q f).prqrd = s.prqrd := by unfold State.updQuarter; split <;> rfl
@[simp] theorem updQuarter_prqHeld (s : State) (d q : Nat) (f : Quarter → Quarter) : (s.updQuarter d q f).prqHeld = s.prqHeld := by unfold State.updQuarter; split <;> rfl
@[simp] theorem updQuarter_pageReqs (s : State) (d q : Nat) (f : Quarter → Quarter) : (s.updQuarter d q f).pageReqs = s.pageReqs := by unfold State.updQuarter; split <;> rfl
@[simp] theorem updQuarter_frames (s : State) (d q : Nat) (f : Quarter → Quarter) : (s.updQuarter d q f).frames = s.frames := by unfold State.updQuarter; split <;> rfl
@[simp] theorem updQuarter_frameErr (s : State) (d q : Nat) (f : Quarter → Quarter) : (s.updQuarter d q f).frameErr = s.frameErr := by unfold State.updQuarter; split <;> rfl
@[simp] theorem updQuarter_sluiceEpoch (s : State) (d q : Nat) (f : Quarter → Quarter) : (s.updQuarter d q f).sluiceEpoch = s.sluiceEpoch := by unfold State.updQuarter; split <;> rfl
@[simp] theorem updQuarter_sluiceThresh (s : State) (d q : Nat) (f : Quarter → Quarter) : (s.updQuarter d q f).sluiceThresh = s.sluiceThresh := by unfold State.updQuarter; split <;> rfl
@[simp] theorem updQuarter_sluiceQmax (s : State) (d q : Nat) (f : Quarter → Quarter) : (s.updQuarter d q f).sluiceQmax = s.sluiceQmax := by unfold State.updQuarter; split <;> rfl
@[simp] theorem updQuarter_sluiceWater (s : State) (d q : Nat) (f : Quarter → Quarter) : (s.updQuarter d q f).sluiceWater = s.sluiceWater := by unfold State.updQuarter; split <;> rfl
@[simp] theorem updQuarter_sluiceMaxrepl (s : State) (d q : Nat) (f : Quarter → Quarter) : (s.updQuarter d q f).sluiceMaxrepl = s.sluiceMaxrepl := by unfold State.updQuarter; split <;> rfl
@[simp] theorem updQuarter_rangeInvs (s : State) (d q : Nat) (f : Quarter → Quarter) : (s.updQuarter d q f).rangeInvs = s.rangeInvs := by unfold State.updQuarter; split <;> rfl
@[simp] theorem updQuarter_migrations (s : State) (d q : Nat) (f : Quarter → Quarter) : (s.updQuarter d q f).migrations = s.migrations := by unfold State.updQuarter; split <;> rfl
@[simp] theorem updQuarter_ports (s : State) (d q : Nat) (f : Quarter → Quarter) : (s.updQuarter d q f).ports = s.ports := by unfold State.updQuarter; split <;> rfl
@[simp] theorem updQuarter_routes (s : State) (d q : Nat) (f : Quarter → Quarter) : (s.updQuarter d q f).routes = s.routes := by unfold State.updQuarter; split <;> rfl
@[simp] theorem updQuarter_txNext (s : State) (d q : Nat) (f : Quarter → Quarter) : (s.updQuarter d q f).txNext = s.txNext := by unfold State.updQuarter; split <;> rfl
@[simp] theorem updQuarter_sent (s : State) (d q : Nat) (f : Quarter → Quarter) : (s.updQuarter d q f).sent = s.sent := by unfold State.updQuarter; split <;> rfl
@[simp] theorem updQuarter_loopback (s : State) (d q : Nat) (f : Quarter → Quarter) : (s.updQuarter d q f).loopback = s.loopback := by unfold State.updQuarter; split <;> rfl
@[simp] theorem updQuarter_heldFrames (s : State) (d q : Nat) (f : Quarter → Quarter) : (s.updQuarter d q f).heldFrames = s.heldFrames := by unfold State.updQuarter; split <;> rfl
@[simp] theorem updQuarter_rx (s : State) (d q : Nat) (f : Quarter → Quarter) : (s.updQuarter d q f).rx = s.rx := by unfold State.updQuarter; split <;> rfl
@[simp] theorem updQuarter_remotes (s : State) (d q : Nat) (f : Quarter → Quarter) : (s.updQuarter d q f).remotes = s.remotes := by unfold State.updQuarter; split <;> rfl
@[simp] theorem updQuarter_taskAsks (s : State) (d q : Nat) (f : Quarter → Quarter) : (s.updQuarter d q f).taskAsks = s.taskAsks := by unfold State.updQuarter; split <;> rfl
@[simp] theorem updQuarter_nextTx (s : State) (d q : Nat) (f : Quarter → Quarter) : (s.updQuarter d q f).nextTx = s.nextTx := by unfold State.updQuarter; split <;> rfl
@[simp] theorem updQuarter_unreachable (s : State) (d q : Nat) (f : Quarter → Quarter) : (s.updQuarter d q f).unreachable = s.unreachable := by unfold State.updQuarter; split <;> rfl
@[simp] theorem updQuarter_detours (s : State) (d q : Nat) (f : Quarter → Quarter) : (s.updQuarter d q f).detours = s.detours := by unfold State.updQuarter; split <;> rfl

/-! ## State.updQueue -/

@[simp] theorem updQueue_inputs (s : State) (n q : Nat) (f : HostQueue → HostQueue) : (s.updQueue n q f).inputs = s.inputs := by unfold State.updQueue; split <;> rfl
@[simp] theorem updQueue_sched (s : State) (n q : Nat) (f : HostQueue → HostQueue) : (s.updQueue n q f).sched = s.sched := by unfold State.updQueue; split <;> rfl
@[simp] theorem updQueue_fresh (s : State) (n q : Nat) (f : HostQueue → HostQueue) : (s.updQueue n q f).fresh = s.fresh := by unfold State.updQueue; split <;> rfl
@[simp] theorem updQueue_tick (s : State) (n q : Nat) (f : HostQueue → HostQueue) : (s.updQueue n q f).tick = s.tick := by unfold State.updQueue; split <;> rfl
@[simp] theorem updQueue_ns (s : State) (n q : Nat) (f : HostQueue → HostQueue) : (s.updQueue n q f).ns = s.ns := by unfold State.updQueue; split <;> rfl
@[simp] theorem updQueue_issue (s : State) (n q : Nat) (f : HostQueue → HostQueue) : (s.updQueue n q f).issue = s.issue := by unfold State.updQueue; split <;> rfl
@[simp] theorem updQueue_mem (s : State) (n q : Nat) (f : HostQueue → HostQueue) : (s.updQueue n q f).mem = s.mem := by unfold State.updQueue; split <;> rfl
@[simp] theorem updQueue_ecc (s : State) (n q : Nat) (f : HostQueue → HostQueue) : (s.updQueue n q f).ecc = s.ecc := by unfold State.updQueue; split <;> rfl
@[simp] theorem updQueue_hostMem (s : State) (n q : Nat) (f : HostQueue → HostQueue) : (s.updQueue n q f).hostMem = s.hostMem := by unfold State.updQueue; split <;> rfl
@[simp] theorem updQueue_booted (s : State) (n q : Nat) (f : HostQueue → HostQueue) : (s.updQueue n q f).booted = s.booted := by unfold State.updQueue; split <;> rfl
@[simp] theorem updQueue_failedBoot (s : State) (n q : Nat) (f : HostQueue → HostQueue) : (s.updQueue n q f).failedBoot = s.failedBoot := by unfold State.updQueue; split <;> rfl
@[simp] theorem updQueue_flash (s : State) (n q : Nat) (f : HostQueue → HostQueue) : (s.updQueue n q f).flash = s.flash := by unfold State.updQueue; split <;> rfl
@[simp] theorem updQueue_records (s : State) (n q : Nat) (f : HostQueue → HostQueue) : (s.updQueue n q f).records = s.records := by unfold State.updQueue; split <;> rfl
@[simp] theorem updQueue_update (s : State) (n q : Nat) (f : HostQueue → HostQueue) : (s.updQueue n q f).update = s.update := by unfold State.updQueue; split <;> rfl
@[simp] theorem updQueue_handover (s : State) (n q : Nat) (f : HostQueue → HostQueue) : (s.updQueue n q f).handover = s.handover := by unfold State.updQueue; split <;> rfl
@[simp] theorem updQueue_running (s : State) (n q : Nat) (f : HostQueue → HostQueue) : (s.updQueue n q f).running = s.running := by unfold State.updQueue; split <;> rfl
@[simp] theorem updQueue_rootBlock (s : State) (n q : Nat) (f : HostQueue → HostQueue) : (s.updQueue n q f).rootBlock = s.rootBlock := by unfold State.updQueue; split <;> rfl
@[simp] theorem updQueue_signing (s : State) (n q : Nat) (f : HostQueue → HostQueue) : (s.updQueue n q f).signing = s.signing := by unfold State.updQueue; split <;> rfl
@[simp] theorem updQueue_signs (s : State) (n q : Nat) (f : HostQueue → HostQueue) : (s.updQueue n q f).signs = s.signs := by unfold State.updQueue; split <;> rfl
@[simp] theorem updQueue_heldTeardowns (s : State) (n q : Nat) (f : HostQueue → HostQueue) : (s.updQueue n q f).heldTeardowns = s.heldTeardowns := by unfold State.updQueue; split <;> rfl
@[simp] theorem updQueue_heldResets (s : State) (n q : Nat) (f : HostQueue → HostQueue) : (s.updQueue n q f).heldResets = s.heldResets := by unfold State.updQueue; split <;> rfl
@[simp] theorem updQueue_unplugged (s : State) (n q : Nat) (f : HostQueue → HostQueue) : (s.updQueue n q f).unplugged = s.unplugged := by unfold State.updQueue; split <;> rfl
@[simp] theorem updQueue_measured (s : State) (n q : Nat) (f : HostQueue → HostQueue) : (s.updQueue n q f).measured = s.measured := by unfold State.updQueue; split <;> rfl
@[simp] theorem updQueue_attachedEver (s : State) (n q : Nat) (f : HostQueue → HostQueue) : (s.updQueue n q f).attachedEver = s.attachedEver := by unfold State.updQueue; split <;> rfl
@[simp] theorem updQueue_debuggers (s : State) (n q : Nat) (f : HostQueue → HostQueue) : (s.updQueue n q f).debuggers = s.debuggers := by unfold State.updQueue; split <;> rfl
@[simp] theorem updQueue_gated (s : State) (n q : Nat) (f : HostQueue → HostQueue) : (s.updQueue n q f).gated = s.gated := by unfold State.updQueue; split <;> rfl
@[simp] theorem updQueue_wakeFilter (s : State) (n q : Nat) (f : HostQueue → HostQueue) : (s.updQueue n q f).wakeFilter = s.wakeFilter := by unfold State.updQueue; split <;> rfl
@[simp] theorem updQueue_wakeHeld (s : State) (n q : Nat) (f : HostQueue → HostQueue) : (s.updQueue n q f).wakeHeld = s.wakeHeld := by unfold State.updQueue; split <;> rfl
@[simp] theorem updQueue_wakeDropped (s : State) (n q : Nat) (f : HostQueue → HostQueue) : (s.updQueue n q f).wakeDropped = s.wakeDropped := by unfold State.updQueue; split <;> rfl
@[simp] theorem updQueue_answers (s : State) (n q : Nat) (f : HostQueue → HostQueue) : (s.updQueue n q f).answers = s.answers := by unfold State.updQueue; split <;> rfl
@[simp] theorem updQueue_notices (s : State) (n q : Nat) (f : HostQueue → HostQueue) : (s.updQueue n q f).notices = s.notices := by unfold State.updQueue; split <;> rfl
@[simp] theorem updQueue_pcap (s : State) (n q : Nat) (f : HostQueue → HostQueue) : (s.updQueue n q f).pcap = s.pcap := by unfold State.updQueue; split <;> rfl
@[simp] theorem updQueue_meter (s : State) (n q : Nat) (f : HostQueue → HostQueue) : (s.updQueue n q f).meter = s.meter := by unfold State.updQueue; split <;> rfl
@[simp] theorem updQueue_dies (s : State) (n q : Nat) (f : HostQueue → HostQueue) : (s.updQueue n q f).dies = s.dies := by unfold State.updQueue; split <;> rfl
@[simp] theorem updQueue_quarters (s : State) (n q : Nat) (f : HostQueue → HostQueue) : (s.updQueue n q f).quarters = s.quarters := by unfold State.updQueue; split <;> rfl
@[simp] theorem updQueue_cores (s : State) (n q : Nat) (f : HostQueue → HostQueue) : (s.updQueue n q f).cores = s.cores := by unfold State.updQueue; split <;> rfl
@[simp] theorem updQueue_ctxs (s : State) (n q : Nat) (f : HostQueue → HostQueue) : (s.updQueue n q f).ctxs = s.ctxs := by unfold State.updQueue; split <;> rfl
@[simp] theorem updQueue_launches (s : State) (n q : Nat) (f : HostQueue → HostQueue) : (s.updQueue n q f).launches = s.launches := by unfold State.updQueue; split <;> rfl
@[simp] theorem updQueue_clusters (s : State) (n q : Nat) (f : HostQueue → HostQueue) : (s.updQueue n q f).clusters = s.clusters := by unfold State.updQueue; split <;> rfl
@[simp] theorem updQueue_teams (s : State) (n q : Nat) (f : HostQueue → HostQueue) : (s.updQueue n q f).teams = s.teams := by unfold State.updQueue; split <;> rfl
@[simp] theorem updQueue_killRecs (s : State) (n q : Nat) (f : HostQueue → HostQueue) : (s.updQueue n q f).killRecs = s.killRecs := by unfold State.updQueue; split <;> rfl
@[simp] theorem updQueue_fwHeld (s : State) (n q : Nat) (f : HostQueue → HostQueue) : (s.updQueue n q f).fwHeld = s.fwHeld := by unfold State.updQueue; split <;> rfl
@[simp] theorem updQueue_serial (s : State) (n q : Nat) (f : HostQueue → HostQueue) : (s.updQueue n q f).serial = s.serial := by unfold State.updQueue; split <;> rfl
@[simp] theorem updQueue_objs (s : State) (n q : Nat) (f : HostQueue → HostQueue) : (s.updQueue n q f).objs = s.objs := by unfold State.updQueue; split <;> rfl
@[simp] theorem updQueue_taskqs (s : State) (n q : Nat) (f : HostQueue → HostQueue) : (s.updQueue n q f).taskqs = s.taskqs := by unfold State.updQueue; split <;> rfl
@[simp] theorem updQueue_tenants (s : State) (n q : Nat) (f : HostQueue → HostQueue) : (s.updQueue n q f).tenants = s.tenants := by unfold State.updQueue; split <;> rfl
@[simp] theorem updQueue_prqbase (s : State) (n q : Nat) (f : HostQueue → HostQueue) : (s.updQueue n q f).prqbase = s.prqbase := by unfold State.updQueue; split <;> rfl
@[simp] theorem updQueue_prqwr (s : State) (n q : Nat) (f : HostQueue → HostQueue) : (s.updQueue n q f).prqwr = s.prqwr := by unfold State.updQueue; split <;> rfl
@[simp] theorem updQueue_prqrd (s : State) (n q : Nat) (f : HostQueue → HostQueue) : (s.updQueue n q f).prqrd = s.prqrd := by unfold State.updQueue; split <;> rfl
@[simp] theorem updQueue_prqHeld (s : State) (n q : Nat) (f : HostQueue → HostQueue) : (s.updQueue n q f).prqHeld = s.prqHeld := by unfold State.updQueue; split <;> rfl
@[simp] theorem updQueue_pageReqs (s : State) (n q : Nat) (f : HostQueue → HostQueue) : (s.updQueue n q f).pageReqs = s.pageReqs := by unfold State.updQueue; split <;> rfl
@[simp] theorem updQueue_frames (s : State) (n q : Nat) (f : HostQueue → HostQueue) : (s.updQueue n q f).frames = s.frames := by unfold State.updQueue; split <;> rfl
@[simp] theorem updQueue_frameErr (s : State) (n q : Nat) (f : HostQueue → HostQueue) : (s.updQueue n q f).frameErr = s.frameErr := by unfold State.updQueue; split <;> rfl
@[simp] theorem updQueue_sluiceEpoch (s : State) (n q : Nat) (f : HostQueue → HostQueue) : (s.updQueue n q f).sluiceEpoch = s.sluiceEpoch := by unfold State.updQueue; split <;> rfl
@[simp] theorem updQueue_sluiceThresh (s : State) (n q : Nat) (f : HostQueue → HostQueue) : (s.updQueue n q f).sluiceThresh = s.sluiceThresh := by unfold State.updQueue; split <;> rfl
@[simp] theorem updQueue_sluiceQmax (s : State) (n q : Nat) (f : HostQueue → HostQueue) : (s.updQueue n q f).sluiceQmax = s.sluiceQmax := by unfold State.updQueue; split <;> rfl
@[simp] theorem updQueue_sluiceWater (s : State) (n q : Nat) (f : HostQueue → HostQueue) : (s.updQueue n q f).sluiceWater = s.sluiceWater := by unfold State.updQueue; split <;> rfl
@[simp] theorem updQueue_sluiceMaxrepl (s : State) (n q : Nat) (f : HostQueue → HostQueue) : (s.updQueue n q f).sluiceMaxrepl = s.sluiceMaxrepl := by unfold State.updQueue; split <;> rfl
@[simp] theorem updQueue_rangeInvs (s : State) (n q : Nat) (f : HostQueue → HostQueue) : (s.updQueue n q f).rangeInvs = s.rangeInvs := by unfold State.updQueue; split <;> rfl
@[simp] theorem updQueue_migrations (s : State) (n q : Nat) (f : HostQueue → HostQueue) : (s.updQueue n q f).migrations = s.migrations := by unfold State.updQueue; split <;> rfl
@[simp] theorem updQueue_ports (s : State) (n q : Nat) (f : HostQueue → HostQueue) : (s.updQueue n q f).ports = s.ports := by unfold State.updQueue; split <;> rfl
@[simp] theorem updQueue_routes (s : State) (n q : Nat) (f : HostQueue → HostQueue) : (s.updQueue n q f).routes = s.routes := by unfold State.updQueue; split <;> rfl
@[simp] theorem updQueue_txNext (s : State) (n q : Nat) (f : HostQueue → HostQueue) : (s.updQueue n q f).txNext = s.txNext := by unfold State.updQueue; split <;> rfl
@[simp] theorem updQueue_sent (s : State) (n q : Nat) (f : HostQueue → HostQueue) : (s.updQueue n q f).sent = s.sent := by unfold State.updQueue; split <;> rfl
@[simp] theorem updQueue_loopback (s : State) (n q : Nat) (f : HostQueue → HostQueue) : (s.updQueue n q f).loopback = s.loopback := by unfold State.updQueue; split <;> rfl
@[simp] theorem updQueue_heldFrames (s : State) (n q : Nat) (f : HostQueue → HostQueue) : (s.updQueue n q f).heldFrames = s.heldFrames := by unfold State.updQueue; split <;> rfl
@[simp] theorem updQueue_rx (s : State) (n q : Nat) (f : HostQueue → HostQueue) : (s.updQueue n q f).rx = s.rx := by unfold State.updQueue; split <;> rfl
@[simp] theorem updQueue_remotes (s : State) (n q : Nat) (f : HostQueue → HostQueue) : (s.updQueue n q f).remotes = s.remotes := by unfold State.updQueue; split <;> rfl
@[simp] theorem updQueue_taskAsks (s : State) (n q : Nat) (f : HostQueue → HostQueue) : (s.updQueue n q f).taskAsks = s.taskAsks := by unfold State.updQueue; split <;> rfl
@[simp] theorem updQueue_nextTx (s : State) (n q : Nat) (f : HostQueue → HostQueue) : (s.updQueue n q f).nextTx = s.nextTx := by unfold State.updQueue; split <;> rfl
@[simp] theorem updQueue_unreachable (s : State) (n q : Nat) (f : HostQueue → HostQueue) : (s.updQueue n q f).unreachable = s.unreachable := by unfold State.updQueue; split <;> rfl
@[simp] theorem updQueue_detours (s : State) (n q : Nat) (f : HostQueue → HostQueue) : (s.updQueue n q f).detours = s.detours := by unfold State.updQueue; split <;> rfl

/-! ## State.departs -/

@[simp] theorem departs_inputs (s : State) (d c : Nat) : (s.departs d c).inputs = s.inputs := updDie_inputs _ _ _
@[simp] theorem departs_sched (s : State) (d c : Nat) : (s.departs d c).sched = s.sched := updDie_sched _ _ _
@[simp] theorem departs_fresh (s : State) (d c : Nat) : (s.departs d c).fresh = s.fresh := updDie_fresh _ _ _
@[simp] theorem departs_tick (s : State) (d c : Nat) : (s.departs d c).tick = s.tick := updDie_tick _ _ _
@[simp] theorem departs_ns (s : State) (d c : Nat) : (s.departs d c).ns = s.ns := updDie_ns _ _ _
@[simp] theorem departs_issue (s : State) (d c : Nat) : (s.departs d c).issue = s.issue := updDie_issue _ _ _
@[simp] theorem departs_mem (s : State) (d c : Nat) : (s.departs d c).mem = s.mem := updDie_mem _ _ _
@[simp] theorem departs_ecc (s : State) (d c : Nat) : (s.departs d c).ecc = s.ecc := updDie_ecc _ _ _
@[simp] theorem departs_hostMem (s : State) (d c : Nat) : (s.departs d c).hostMem = s.hostMem := updDie_hostMem _ _ _
@[simp] theorem departs_booted (s : State) (d c : Nat) : (s.departs d c).booted = s.booted := updDie_booted _ _ _
@[simp] theorem departs_failedBoot (s : State) (d c : Nat) : (s.departs d c).failedBoot = s.failedBoot := updDie_failedBoot _ _ _
@[simp] theorem departs_flash (s : State) (d c : Nat) : (s.departs d c).flash = s.flash := updDie_flash _ _ _
@[simp] theorem departs_records (s : State) (d c : Nat) : (s.departs d c).records = s.records := updDie_records _ _ _
@[simp] theorem departs_update (s : State) (d c : Nat) : (s.departs d c).update = s.update := updDie_update _ _ _
@[simp] theorem departs_handover (s : State) (d c : Nat) : (s.departs d c).handover = s.handover := updDie_handover _ _ _
@[simp] theorem departs_running (s : State) (d c : Nat) : (s.departs d c).running = s.running := updDie_running _ _ _
@[simp] theorem departs_rootBlock (s : State) (d c : Nat) : (s.departs d c).rootBlock = s.rootBlock := updDie_rootBlock _ _ _
@[simp] theorem departs_signing (s : State) (d c : Nat) : (s.departs d c).signing = s.signing := updDie_signing _ _ _
@[simp] theorem departs_signs (s : State) (d c : Nat) : (s.departs d c).signs = s.signs := updDie_signs _ _ _
@[simp] theorem departs_heldTeardowns (s : State) (d c : Nat) : (s.departs d c).heldTeardowns = s.heldTeardowns := updDie_heldTeardowns _ _ _
@[simp] theorem departs_heldResets (s : State) (d c : Nat) : (s.departs d c).heldResets = s.heldResets := updDie_heldResets _ _ _
@[simp] theorem departs_unplugged (s : State) (d c : Nat) : (s.departs d c).unplugged = s.unplugged := updDie_unplugged _ _ _
@[simp] theorem departs_measured (s : State) (d c : Nat) : (s.departs d c).measured = s.measured := updDie_measured _ _ _
@[simp] theorem departs_attachedEver (s : State) (d c : Nat) : (s.departs d c).attachedEver = s.attachedEver := updDie_attachedEver _ _ _
@[simp] theorem departs_debuggers (s : State) (d c : Nat) : (s.departs d c).debuggers = s.debuggers := updDie_debuggers _ _ _
@[simp] theorem departs_gated (s : State) (d c : Nat) : (s.departs d c).gated = s.gated := updDie_gated _ _ _
@[simp] theorem departs_wakeFilter (s : State) (d c : Nat) : (s.departs d c).wakeFilter = s.wakeFilter := updDie_wakeFilter _ _ _
@[simp] theorem departs_wakeHeld (s : State) (d c : Nat) : (s.departs d c).wakeHeld = s.wakeHeld := updDie_wakeHeld _ _ _
@[simp] theorem departs_wakeDropped (s : State) (d c : Nat) : (s.departs d c).wakeDropped = s.wakeDropped := updDie_wakeDropped _ _ _
@[simp] theorem departs_answers (s : State) (d c : Nat) : (s.departs d c).answers = s.answers := updDie_answers _ _ _
@[simp] theorem departs_notices (s : State) (d c : Nat) : (s.departs d c).notices = s.notices := updDie_notices _ _ _
@[simp] theorem departs_pcap (s : State) (d c : Nat) : (s.departs d c).pcap = s.pcap := updDie_pcap _ _ _
@[simp] theorem departs_meter (s : State) (d c : Nat) : (s.departs d c).meter = s.meter := updDie_meter _ _ _
@[simp] theorem departs_quarters (s : State) (d c : Nat) : (s.departs d c).quarters = s.quarters := updDie_quarters _ _ _
@[simp] theorem departs_cores (s : State) (d c : Nat) : (s.departs d c).cores = s.cores := updDie_cores _ _ _
@[simp] theorem departs_ctxs (s : State) (d c : Nat) : (s.departs d c).ctxs = s.ctxs := updDie_ctxs _ _ _
@[simp] theorem departs_launches (s : State) (d c : Nat) : (s.departs d c).launches = s.launches := updDie_launches _ _ _
@[simp] theorem departs_clusters (s : State) (d c : Nat) : (s.departs d c).clusters = s.clusters := updDie_clusters _ _ _
@[simp] theorem departs_teams (s : State) (d c : Nat) : (s.departs d c).teams = s.teams := updDie_teams _ _ _
@[simp] theorem departs_killRecs (s : State) (d c : Nat) : (s.departs d c).killRecs = s.killRecs := updDie_killRecs _ _ _
@[simp] theorem departs_fwHeld (s : State) (d c : Nat) : (s.departs d c).fwHeld = s.fwHeld := updDie_fwHeld _ _ _
@[simp] theorem departs_serial (s : State) (d c : Nat) : (s.departs d c).serial = s.serial := updDie_serial _ _ _
@[simp] theorem departs_objs (s : State) (d c : Nat) : (s.departs d c).objs = s.objs := updDie_objs _ _ _
@[simp] theorem departs_queues (s : State) (d c : Nat) : (s.departs d c).queues = s.queues := updDie_queues _ _ _
@[simp] theorem departs_taskqs (s : State) (d c : Nat) : (s.departs d c).taskqs = s.taskqs := updDie_taskqs _ _ _
@[simp] theorem departs_tenants (s : State) (d c : Nat) : (s.departs d c).tenants = s.tenants := updDie_tenants _ _ _
@[simp] theorem departs_prqbase (s : State) (d c : Nat) : (s.departs d c).prqbase = s.prqbase := updDie_prqbase _ _ _
@[simp] theorem departs_prqwr (s : State) (d c : Nat) : (s.departs d c).prqwr = s.prqwr := updDie_prqwr _ _ _
@[simp] theorem departs_prqrd (s : State) (d c : Nat) : (s.departs d c).prqrd = s.prqrd := updDie_prqrd _ _ _
@[simp] theorem departs_prqHeld (s : State) (d c : Nat) : (s.departs d c).prqHeld = s.prqHeld := updDie_prqHeld _ _ _
@[simp] theorem departs_pageReqs (s : State) (d c : Nat) : (s.departs d c).pageReqs = s.pageReqs := updDie_pageReqs _ _ _
@[simp] theorem departs_frames (s : State) (d c : Nat) : (s.departs d c).frames = s.frames := updDie_frames _ _ _
@[simp] theorem departs_frameErr (s : State) (d c : Nat) : (s.departs d c).frameErr = s.frameErr := updDie_frameErr _ _ _
@[simp] theorem departs_sluiceEpoch (s : State) (d c : Nat) : (s.departs d c).sluiceEpoch = s.sluiceEpoch := updDie_sluiceEpoch _ _ _
@[simp] theorem departs_sluiceThresh (s : State) (d c : Nat) : (s.departs d c).sluiceThresh = s.sluiceThresh := updDie_sluiceThresh _ _ _
@[simp] theorem departs_sluiceQmax (s : State) (d c : Nat) : (s.departs d c).sluiceQmax = s.sluiceQmax := updDie_sluiceQmax _ _ _
@[simp] theorem departs_sluiceWater (s : State) (d c : Nat) : (s.departs d c).sluiceWater = s.sluiceWater := updDie_sluiceWater _ _ _
@[simp] theorem departs_sluiceMaxrepl (s : State) (d c : Nat) : (s.departs d c).sluiceMaxrepl = s.sluiceMaxrepl := updDie_sluiceMaxrepl _ _ _
@[simp] theorem departs_rangeInvs (s : State) (d c : Nat) : (s.departs d c).rangeInvs = s.rangeInvs := updDie_rangeInvs _ _ _
@[simp] theorem departs_migrations (s : State) (d c : Nat) : (s.departs d c).migrations = s.migrations := updDie_migrations _ _ _
@[simp] theorem departs_ports (s : State) (d c : Nat) : (s.departs d c).ports = s.ports := updDie_ports _ _ _
@[simp] theorem departs_routes (s : State) (d c : Nat) : (s.departs d c).routes = s.routes := updDie_routes _ _ _
@[simp] theorem departs_txNext (s : State) (d c : Nat) : (s.departs d c).txNext = s.txNext := updDie_txNext _ _ _
@[simp] theorem departs_sent (s : State) (d c : Nat) : (s.departs d c).sent = s.sent := updDie_sent _ _ _
@[simp] theorem departs_loopback (s : State) (d c : Nat) : (s.departs d c).loopback = s.loopback := updDie_loopback _ _ _
@[simp] theorem departs_heldFrames (s : State) (d c : Nat) : (s.departs d c).heldFrames = s.heldFrames := updDie_heldFrames _ _ _
@[simp] theorem departs_rx (s : State) (d c : Nat) : (s.departs d c).rx = s.rx := updDie_rx _ _ _
@[simp] theorem departs_remotes (s : State) (d c : Nat) : (s.departs d c).remotes = s.remotes := updDie_remotes _ _ _
@[simp] theorem departs_taskAsks (s : State) (d c : Nat) : (s.departs d c).taskAsks = s.taskAsks := updDie_taskAsks _ _ _
@[simp] theorem departs_nextTx (s : State) (d c : Nat) : (s.departs d c).nextTx = s.nextTx := updDie_nextTx _ _ _
@[simp] theorem departs_unreachable (s : State) (d c : Nat) : (s.departs d c).unreachable = s.unreachable := updDie_unreachable _ _ _
@[simp] theorem departs_detours (s : State) (d c : Nat) : (s.departs d c).detours = s.detours := updDie_detours _ _ _

/-! ## Thread.setReg -/

@[simp] theorem setReg_preds (th : Thread) (n : Nat) (v : Word) : (th.setReg n v).preds = th.preds := rfl
@[simp] theorem setReg_latches (th : Thread) (n : Nat) (v : Word) : (th.setReg n v).latches = th.latches := rfl
@[simp] theorem setReg_pushes (th : Thread) (n : Nat) (v : Word) : (th.setReg n v).pushes = th.pushes := rfl
@[simp] theorem setReg_pc (th : Thread) (n : Nat) (v : Word) : (th.setReg n v).pc = th.pc := rfl
@[simp] theorem setReg_inRun (th : Thread) (n : Nat) (v : Word) : (th.setReg n v).inRun = th.inRun := rfl
@[simp] theorem setReg_runStart (th : Thread) (n : Nat) (v : Word) : (th.setReg n v).runStart = th.runStart := rfl
@[simp] theorem setReg_runLen (th : Thread) (n : Nat) (v : Word) : (th.setReg n v).runLen = th.runLen := rfl
@[simp] theorem setReg_tail (th : Thread) (n : Nat) (v : Word) : (th.setReg n v).tail = th.tail := rfl
@[simp] theorem setReg_status (th : Thread) (n : Nat) (v : Word) : (th.setReg n v).status = th.status := rfl
@[simp] theorem setReg_stopped (th : Thread) (n : Nat) (v : Word) : (th.setReg n v).stopped = th.stopped := rfl
@[simp] theorem setReg_record (th : Thread) (n : Nat) (v : Word) : (th.setReg n v).record = th.record := rfl
@[simp] theorem setReg_recCause (th : Thread) (n : Nat) (v : Word) : (th.setReg n v).recCause = th.recCause := rfl
@[simp] theorem setReg_aside (th : Thread) (n : Nat) (v : Word) : (th.setReg n v).aside = th.aside := rfl
@[simp] theorem setReg_grant (th : Thread) (n : Nat) (v : Word) : (th.setReg n v).grant = th.grant := rfl
@[simp] theorem setReg_bound (th : Thread) (n : Nat) (v : Word) : (th.setReg n v).bound = th.bound := rfl
@[simp] theorem setReg_fflags (th : Thread) (n : Nat) (v : Word) : (th.setReg n v).fflags = th.fflags := rfl
@[simp] theorem setReg_fenable (th : Thread) (n : Nat) (v : Word) : (th.setReg n v).fenable = th.fenable := rfl
@[simp] theorem setReg_frm (th : Thread) (n : Nat) (v : Word) : (th.setReg n v).frm = th.frm := rfl
@[simp] theorem setReg_seltag (th : Thread) (n : Nat) (v : Word) : (th.setReg n v).seltag = th.seltag := rfl
@[simp] theorem setReg_selg (th : Thread) (n : Nat) (v : Word) : (th.setReg n v).selg = th.selg := rfl
@[simp] theorem setReg_epc (th : Thread) (n : Nat) (v : Word) : (th.setReg n v).epc = th.epc := rfl
@[simp] theorem setReg_ecause (th : Thread) (n : Nat) (v : Word) : (th.setReg n v).ecause = th.ecause := rfl
@[simp] theorem setReg_stkp (th : Thread) (n : Nat) (v : Word) : (th.setReg n v).stkp = th.stkp := rfl
@[simp] theorem setReg_repc (th : Thread) (n : Nat) (v : Word) : (th.setReg n v).repc = th.repc := rfl
@[simp] theorem setReg_ackScr (th : Thread) (n : Nat) (v : Word) : (th.setReg n v).ackScr = th.ackScr := rfl
@[simp] theorem setReg_ackAll (th : Thread) (n : Nat) (v : Word) : (th.setReg n v).ackAll = th.ackAll := rfl
@[simp] theorem setReg_ackPkg (th : Thread) (n : Nat) (v : Word) : (th.setReg n v).ackPkg = th.ackPkg := rfl
@[simp] theorem setReg_ackDev (th : Thread) (n : Nat) (v : Word) : (th.setReg n v).ackDev = th.ackDev := rfl
@[simp] theorem setReg_nackPending (th : Thread) (n : Nat) (v : Word) : (th.setReg n v).nackPending = th.nackPending := rfl
@[simp] theorem setReg_acq (th : Thread) (n : Nat) (v : Word) : (th.setReg n v).acq = th.acq := rfl
@[simp] theorem setReg_copyFault (th : Thread) (n : Nat) (v : Word) : (th.setReg n v).copyFault = th.copyFault := rfl
@[simp] theorem setReg_marking (th : Thread) (n : Nat) (v : Word) : (th.setReg n v).marking = th.marking := rfl
@[simp] theorem setReg_cnt (th : Thread) (n : Nat) (v : Word) : (th.setReg n v).cnt = th.cnt := rfl
@[simp] theorem setReg_cycSnap (th : Thread) (n : Nat) (v : Word) : (th.setReg n v).cycSnap = th.cycSnap := rfl
@[simp] theorem setReg_lastIssue (th : Thread) (n : Nat) (v : Word) : (th.setReg n v).lastIssue = th.lastIssue := rfl
@[simp] theorem setReg_readyAt (th : Thread) (n : Nat) (v : Word) : (th.setReg n v).readyAt = th.readyAt := rfl
@[simp] theorem setReg_pathAt (th : Thread) (n : Nat) (v : Word) : (th.setReg n v).pathAt = th.pathAt := rfl
@[simp] theorem setReg_before (th : Thread) (n : Nat) (v : Word) : (th.setReg n v).before = th.before := rfl
@[simp] theorem setReg_parkedAt (th : Thread) (n : Nat) (v : Word) : (th.setReg n v).parkedAt = th.parkedAt := rfl
@[simp] theorem setReg_kept (th : Thread) (n : Nat) (v : Word) : (th.setReg n v).kept = th.kept := rfl
@[simp] theorem setReg_waitPage (th : Thread) (n : Nat) (v : Word) : (th.setReg n v).waitPage = th.waitPage := rfl

/-! ## Thread.setPred -/

@[simp] theorem setPred_regs (th : Thread) (n : Nat) (b : Bool) : (th.setPred n b).regs = th.regs := rfl
@[simp] theorem setPred_writes (th : Thread) (n : Nat) (b : Bool) : (th.setPred n b).writes = th.writes := rfl
@[simp] theorem setPred_latches (th : Thread) (n : Nat) (b : Bool) : (th.setPred n b).latches = th.latches := rfl
@[simp] theorem setPred_pushes (th : Thread) (n : Nat) (b : Bool) : (th.setPred n b).pushes = th.pushes := rfl
@[simp] theorem setPred_pc (th : Thread) (n : Nat) (b : Bool) : (th.setPred n b).pc = th.pc := rfl
@[simp] theorem setPred_inRun (th : Thread) (n : Nat) (b : Bool) : (th.setPred n b).inRun = th.inRun := rfl
@[simp] theorem setPred_runStart (th : Thread) (n : Nat) (b : Bool) : (th.setPred n b).runStart = th.runStart := rfl
@[simp] theorem setPred_runLen (th : Thread) (n : Nat) (b : Bool) : (th.setPred n b).runLen = th.runLen := rfl
@[simp] theorem setPred_tail (th : Thread) (n : Nat) (b : Bool) : (th.setPred n b).tail = th.tail := rfl
@[simp] theorem setPred_status (th : Thread) (n : Nat) (b : Bool) : (th.setPred n b).status = th.status := rfl
@[simp] theorem setPred_stopped (th : Thread) (n : Nat) (b : Bool) : (th.setPred n b).stopped = th.stopped := rfl
@[simp] theorem setPred_record (th : Thread) (n : Nat) (b : Bool) : (th.setPred n b).record = th.record := rfl
@[simp] theorem setPred_recCause (th : Thread) (n : Nat) (b : Bool) : (th.setPred n b).recCause = th.recCause := rfl
@[simp] theorem setPred_aside (th : Thread) (n : Nat) (b : Bool) : (th.setPred n b).aside = th.aside := rfl
@[simp] theorem setPred_grant (th : Thread) (n : Nat) (b : Bool) : (th.setPred n b).grant = th.grant := rfl
@[simp] theorem setPred_bound (th : Thread) (n : Nat) (b : Bool) : (th.setPred n b).bound = th.bound := rfl
@[simp] theorem setPred_fflags (th : Thread) (n : Nat) (b : Bool) : (th.setPred n b).fflags = th.fflags := rfl
@[simp] theorem setPred_fenable (th : Thread) (n : Nat) (b : Bool) : (th.setPred n b).fenable = th.fenable := rfl
@[simp] theorem setPred_frm (th : Thread) (n : Nat) (b : Bool) : (th.setPred n b).frm = th.frm := rfl
@[simp] theorem setPred_seltag (th : Thread) (n : Nat) (b : Bool) : (th.setPred n b).seltag = th.seltag := rfl
@[simp] theorem setPred_selg (th : Thread) (n : Nat) (b : Bool) : (th.setPred n b).selg = th.selg := rfl
@[simp] theorem setPred_epc (th : Thread) (n : Nat) (b : Bool) : (th.setPred n b).epc = th.epc := rfl
@[simp] theorem setPred_ecause (th : Thread) (n : Nat) (b : Bool) : (th.setPred n b).ecause = th.ecause := rfl
@[simp] theorem setPred_stkp (th : Thread) (n : Nat) (b : Bool) : (th.setPred n b).stkp = th.stkp := rfl
@[simp] theorem setPred_repc (th : Thread) (n : Nat) (b : Bool) : (th.setPred n b).repc = th.repc := rfl
@[simp] theorem setPred_ackScr (th : Thread) (n : Nat) (b : Bool) : (th.setPred n b).ackScr = th.ackScr := rfl
@[simp] theorem setPred_ackAll (th : Thread) (n : Nat) (b : Bool) : (th.setPred n b).ackAll = th.ackAll := rfl
@[simp] theorem setPred_ackPkg (th : Thread) (n : Nat) (b : Bool) : (th.setPred n b).ackPkg = th.ackPkg := rfl
@[simp] theorem setPred_ackDev (th : Thread) (n : Nat) (b : Bool) : (th.setPred n b).ackDev = th.ackDev := rfl
@[simp] theorem setPred_nackPending (th : Thread) (n : Nat) (b : Bool) : (th.setPred n b).nackPending = th.nackPending := rfl
@[simp] theorem setPred_acq (th : Thread) (n : Nat) (b : Bool) : (th.setPred n b).acq = th.acq := rfl
@[simp] theorem setPred_copyFault (th : Thread) (n : Nat) (b : Bool) : (th.setPred n b).copyFault = th.copyFault := rfl
@[simp] theorem setPred_marking (th : Thread) (n : Nat) (b : Bool) : (th.setPred n b).marking = th.marking := rfl
@[simp] theorem setPred_cnt (th : Thread) (n : Nat) (b : Bool) : (th.setPred n b).cnt = th.cnt := rfl
@[simp] theorem setPred_cycSnap (th : Thread) (n : Nat) (b : Bool) : (th.setPred n b).cycSnap = th.cycSnap := rfl
@[simp] theorem setPred_lastIssue (th : Thread) (n : Nat) (b : Bool) : (th.setPred n b).lastIssue = th.lastIssue := rfl
@[simp] theorem setPred_readyAt (th : Thread) (n : Nat) (b : Bool) : (th.setPred n b).readyAt = th.readyAt := rfl
@[simp] theorem setPred_pathAt (th : Thread) (n : Nat) (b : Bool) : (th.setPred n b).pathAt = th.pathAt := rfl
@[simp] theorem setPred_before (th : Thread) (n : Nat) (b : Bool) : (th.setPred n b).before = th.before := rfl
@[simp] theorem setPred_parkedAt (th : Thread) (n : Nat) (b : Bool) : (th.setPred n b).parkedAt = th.parkedAt := rfl
@[simp] theorem setPred_kept (th : Thread) (n : Nat) (b : Bool) : (th.setPred n b).kept = th.kept := rfl
@[simp] theorem setPred_waitPage (th : Thread) (n : Nat) (b : Bool) : (th.setPred n b).waitPage = th.waitPage := rfl

/-! ## Thread.push -/

@[simp] theorem push_regs (th : Thread) (v : Word) : (th.push v).regs = th.regs := rfl
@[simp] theorem push_writes (th : Thread) (v : Word) : (th.push v).writes = th.writes := rfl
@[simp] theorem push_preds (th : Thread) (v : Word) : (th.push v).preds = th.preds := rfl
@[simp] theorem push_latches (th : Thread) (v : Word) : (th.push v).latches = th.latches := rfl
@[simp] theorem push_pc (th : Thread) (v : Word) : (th.push v).pc = th.pc := rfl
@[simp] theorem push_inRun (th : Thread) (v : Word) : (th.push v).inRun = th.inRun := rfl
@[simp] theorem push_runStart (th : Thread) (v : Word) : (th.push v).runStart = th.runStart := rfl
@[simp] theorem push_runLen (th : Thread) (v : Word) : (th.push v).runLen = th.runLen := rfl
@[simp] theorem push_tail (th : Thread) (v : Word) : (th.push v).tail = th.tail := rfl
@[simp] theorem push_status (th : Thread) (v : Word) : (th.push v).status = th.status := rfl
@[simp] theorem push_stopped (th : Thread) (v : Word) : (th.push v).stopped = th.stopped := rfl
@[simp] theorem push_record (th : Thread) (v : Word) : (th.push v).record = th.record := rfl
@[simp] theorem push_recCause (th : Thread) (v : Word) : (th.push v).recCause = th.recCause := rfl
@[simp] theorem push_aside (th : Thread) (v : Word) : (th.push v).aside = th.aside := rfl
@[simp] theorem push_grant (th : Thread) (v : Word) : (th.push v).grant = th.grant := rfl
@[simp] theorem push_bound (th : Thread) (v : Word) : (th.push v).bound = th.bound := rfl
@[simp] theorem push_fflags (th : Thread) (v : Word) : (th.push v).fflags = th.fflags := rfl
@[simp] theorem push_fenable (th : Thread) (v : Word) : (th.push v).fenable = th.fenable := rfl
@[simp] theorem push_frm (th : Thread) (v : Word) : (th.push v).frm = th.frm := rfl
@[simp] theorem push_seltag (th : Thread) (v : Word) : (th.push v).seltag = th.seltag := rfl
@[simp] theorem push_selg (th : Thread) (v : Word) : (th.push v).selg = th.selg := rfl
@[simp] theorem push_epc (th : Thread) (v : Word) : (th.push v).epc = th.epc := rfl
@[simp] theorem push_ecause (th : Thread) (v : Word) : (th.push v).ecause = th.ecause := rfl
@[simp] theorem push_stkp (th : Thread) (v : Word) : (th.push v).stkp = th.stkp := rfl
@[simp] theorem push_repc (th : Thread) (v : Word) : (th.push v).repc = th.repc := rfl
@[simp] theorem push_ackScr (th : Thread) (v : Word) : (th.push v).ackScr = th.ackScr := rfl
@[simp] theorem push_ackAll (th : Thread) (v : Word) : (th.push v).ackAll = th.ackAll := rfl
@[simp] theorem push_ackPkg (th : Thread) (v : Word) : (th.push v).ackPkg = th.ackPkg := rfl
@[simp] theorem push_ackDev (th : Thread) (v : Word) : (th.push v).ackDev = th.ackDev := rfl
@[simp] theorem push_nackPending (th : Thread) (v : Word) : (th.push v).nackPending = th.nackPending := rfl
@[simp] theorem push_acq (th : Thread) (v : Word) : (th.push v).acq = th.acq := rfl
@[simp] theorem push_copyFault (th : Thread) (v : Word) : (th.push v).copyFault = th.copyFault := rfl
@[simp] theorem push_marking (th : Thread) (v : Word) : (th.push v).marking = th.marking := rfl
@[simp] theorem push_cnt (th : Thread) (v : Word) : (th.push v).cnt = th.cnt := rfl
@[simp] theorem push_cycSnap (th : Thread) (v : Word) : (th.push v).cycSnap = th.cycSnap := rfl
@[simp] theorem push_lastIssue (th : Thread) (v : Word) : (th.push v).lastIssue = th.lastIssue := rfl
@[simp] theorem push_readyAt (th : Thread) (v : Word) : (th.push v).readyAt = th.readyAt := rfl
@[simp] theorem push_pathAt (th : Thread) (v : Word) : (th.push v).pathAt = th.pathAt := rfl
@[simp] theorem push_before (th : Thread) (v : Word) : (th.push v).before = th.before := rfl
@[simp] theorem push_parkedAt (th : Thread) (v : Word) : (th.push v).parkedAt = th.parkedAt := rfl
@[simp] theorem push_kept (th : Thread) (v : Word) : (th.push v).kept = th.kept := rfl
@[simp] theorem push_waitPage (th : Thread) (v : Word) : (th.push v).waitPage = th.waitPage := rfl

/-! ## Thread.orFlags -/

@[simp] theorem orFlags_regs (th : Thread) (n : Nat) : (th.orFlags n).regs = th.regs := rfl
@[simp] theorem orFlags_writes (th : Thread) (n : Nat) : (th.orFlags n).writes = th.writes := rfl
@[simp] theorem orFlags_preds (th : Thread) (n : Nat) : (th.orFlags n).preds = th.preds := rfl
@[simp] theorem orFlags_latches (th : Thread) (n : Nat) : (th.orFlags n).latches = th.latches := rfl
@[simp] theorem orFlags_pushes (th : Thread) (n : Nat) : (th.orFlags n).pushes = th.pushes := rfl
@[simp] theorem orFlags_pc (th : Thread) (n : Nat) : (th.orFlags n).pc = th.pc := rfl
@[simp] theorem orFlags_inRun (th : Thread) (n : Nat) : (th.orFlags n).inRun = th.inRun := rfl
@[simp] theorem orFlags_runStart (th : Thread) (n : Nat) : (th.orFlags n).runStart = th.runStart := rfl
@[simp] theorem orFlags_runLen (th : Thread) (n : Nat) : (th.orFlags n).runLen = th.runLen := rfl
@[simp] theorem orFlags_tail (th : Thread) (n : Nat) : (th.orFlags n).tail = th.tail := rfl
@[simp] theorem orFlags_status (th : Thread) (n : Nat) : (th.orFlags n).status = th.status := rfl
@[simp] theorem orFlags_stopped (th : Thread) (n : Nat) : (th.orFlags n).stopped = th.stopped := rfl
@[simp] theorem orFlags_record (th : Thread) (n : Nat) : (th.orFlags n).record = th.record := rfl
@[simp] theorem orFlags_recCause (th : Thread) (n : Nat) : (th.orFlags n).recCause = th.recCause := rfl
@[simp] theorem orFlags_aside (th : Thread) (n : Nat) : (th.orFlags n).aside = th.aside := rfl
@[simp] theorem orFlags_grant (th : Thread) (n : Nat) : (th.orFlags n).grant = th.grant := rfl
@[simp] theorem orFlags_bound (th : Thread) (n : Nat) : (th.orFlags n).bound = th.bound := rfl
@[simp] theorem orFlags_fenable (th : Thread) (n : Nat) : (th.orFlags n).fenable = th.fenable := rfl
@[simp] theorem orFlags_frm (th : Thread) (n : Nat) : (th.orFlags n).frm = th.frm := rfl
@[simp] theorem orFlags_seltag (th : Thread) (n : Nat) : (th.orFlags n).seltag = th.seltag := rfl
@[simp] theorem orFlags_selg (th : Thread) (n : Nat) : (th.orFlags n).selg = th.selg := rfl
@[simp] theorem orFlags_epc (th : Thread) (n : Nat) : (th.orFlags n).epc = th.epc := rfl
@[simp] theorem orFlags_ecause (th : Thread) (n : Nat) : (th.orFlags n).ecause = th.ecause := rfl
@[simp] theorem orFlags_stkp (th : Thread) (n : Nat) : (th.orFlags n).stkp = th.stkp := rfl
@[simp] theorem orFlags_repc (th : Thread) (n : Nat) : (th.orFlags n).repc = th.repc := rfl
@[simp] theorem orFlags_ackScr (th : Thread) (n : Nat) : (th.orFlags n).ackScr = th.ackScr := rfl
@[simp] theorem orFlags_ackAll (th : Thread) (n : Nat) : (th.orFlags n).ackAll = th.ackAll := rfl
@[simp] theorem orFlags_ackPkg (th : Thread) (n : Nat) : (th.orFlags n).ackPkg = th.ackPkg := rfl
@[simp] theorem orFlags_ackDev (th : Thread) (n : Nat) : (th.orFlags n).ackDev = th.ackDev := rfl
@[simp] theorem orFlags_nackPending (th : Thread) (n : Nat) : (th.orFlags n).nackPending = th.nackPending := rfl
@[simp] theorem orFlags_acq (th : Thread) (n : Nat) : (th.orFlags n).acq = th.acq := rfl
@[simp] theorem orFlags_copyFault (th : Thread) (n : Nat) : (th.orFlags n).copyFault = th.copyFault := rfl
@[simp] theorem orFlags_marking (th : Thread) (n : Nat) : (th.orFlags n).marking = th.marking := rfl
@[simp] theorem orFlags_cnt (th : Thread) (n : Nat) : (th.orFlags n).cnt = th.cnt := rfl
@[simp] theorem orFlags_cycSnap (th : Thread) (n : Nat) : (th.orFlags n).cycSnap = th.cycSnap := rfl
@[simp] theorem orFlags_lastIssue (th : Thread) (n : Nat) : (th.orFlags n).lastIssue = th.lastIssue := rfl
@[simp] theorem orFlags_readyAt (th : Thread) (n : Nat) : (th.orFlags n).readyAt = th.readyAt := rfl
@[simp] theorem orFlags_pathAt (th : Thread) (n : Nat) : (th.orFlags n).pathAt = th.pathAt := rfl
@[simp] theorem orFlags_before (th : Thread) (n : Nat) : (th.orFlags n).before = th.before := rfl
@[simp] theorem orFlags_parkedAt (th : Thread) (n : Nat) : (th.orFlags n).parkedAt = th.parkedAt := rfl
@[simp] theorem orFlags_kept (th : Thread) (n : Nat) : (th.orFlags n).kept = th.kept := rfl
@[simp] theorem orFlags_waitPage (th : Thread) (n : Nat) : (th.orFlags n).waitPage = th.waitPage := rfl

/-! ## Thread.goto -/

@[simp] theorem goto_regs (th : Thread) (p : Pc) : (th.goto p).regs = th.regs := rfl
@[simp] theorem goto_writes (th : Thread) (p : Pc) : (th.goto p).writes = th.writes := rfl
@[simp] theorem goto_preds (th : Thread) (p : Pc) : (th.goto p).preds = th.preds := rfl
@[simp] theorem goto_runLen (th : Thread) (p : Pc) : (th.goto p).runLen = th.runLen := rfl
@[simp] theorem goto_status (th : Thread) (p : Pc) : (th.goto p).status = th.status := rfl
@[simp] theorem goto_stopped (th : Thread) (p : Pc) : (th.goto p).stopped = th.stopped := rfl
@[simp] theorem goto_record (th : Thread) (p : Pc) : (th.goto p).record = th.record := rfl
@[simp] theorem goto_recCause (th : Thread) (p : Pc) : (th.goto p).recCause = th.recCause := rfl
@[simp] theorem goto_aside (th : Thread) (p : Pc) : (th.goto p).aside = th.aside := rfl
@[simp] theorem goto_grant (th : Thread) (p : Pc) : (th.goto p).grant = th.grant := rfl
@[simp] theorem goto_bound (th : Thread) (p : Pc) : (th.goto p).bound = th.bound := rfl
@[simp] theorem goto_fflags (th : Thread) (p : Pc) : (th.goto p).fflags = th.fflags := rfl
@[simp] theorem goto_fenable (th : Thread) (p : Pc) : (th.goto p).fenable = th.fenable := rfl
@[simp] theorem goto_frm (th : Thread) (p : Pc) : (th.goto p).frm = th.frm := rfl
@[simp] theorem goto_seltag (th : Thread) (p : Pc) : (th.goto p).seltag = th.seltag := rfl
@[simp] theorem goto_selg (th : Thread) (p : Pc) : (th.goto p).selg = th.selg := rfl
@[simp] theorem goto_epc (th : Thread) (p : Pc) : (th.goto p).epc = th.epc := rfl
@[simp] theorem goto_ecause (th : Thread) (p : Pc) : (th.goto p).ecause = th.ecause := rfl
@[simp] theorem goto_stkp (th : Thread) (p : Pc) : (th.goto p).stkp = th.stkp := rfl
@[simp] theorem goto_repc (th : Thread) (p : Pc) : (th.goto p).repc = th.repc := rfl
@[simp] theorem goto_ackScr (th : Thread) (p : Pc) : (th.goto p).ackScr = th.ackScr := rfl
@[simp] theorem goto_ackAll (th : Thread) (p : Pc) : (th.goto p).ackAll = th.ackAll := rfl
@[simp] theorem goto_ackPkg (th : Thread) (p : Pc) : (th.goto p).ackPkg = th.ackPkg := rfl
@[simp] theorem goto_ackDev (th : Thread) (p : Pc) : (th.goto p).ackDev = th.ackDev := rfl
@[simp] theorem goto_nackPending (th : Thread) (p : Pc) : (th.goto p).nackPending = th.nackPending := rfl
@[simp] theorem goto_acq (th : Thread) (p : Pc) : (th.goto p).acq = th.acq := rfl
@[simp] theorem goto_copyFault (th : Thread) (p : Pc) : (th.goto p).copyFault = th.copyFault := rfl
@[simp] theorem goto_cnt (th : Thread) (p : Pc) : (th.goto p).cnt = th.cnt := rfl
@[simp] theorem goto_cycSnap (th : Thread) (p : Pc) : (th.goto p).cycSnap = th.cycSnap := rfl
@[simp] theorem goto_lastIssue (th : Thread) (p : Pc) : (th.goto p).lastIssue = th.lastIssue := rfl
@[simp] theorem goto_readyAt (th : Thread) (p : Pc) : (th.goto p).readyAt = th.readyAt := rfl
@[simp] theorem goto_pathAt (th : Thread) (p : Pc) : (th.goto p).pathAt = th.pathAt := rfl
@[simp] theorem goto_parkedAt (th : Thread) (p : Pc) : (th.goto p).parkedAt = th.parkedAt := rfl
@[simp] theorem goto_waitPage (th : Thread) (p : Pc) : (th.goto p).waitPage = th.waitPage := rfl

/-! ## Thread.leaveRun -/

@[simp] theorem leaveRun_runStart (th : Thread) : (th.leaveRun).runStart = th.runStart := by unfold Thread.leaveRun Thread.rollback; split <;> rfl
@[simp] theorem leaveRun_runLen (th : Thread) : (th.leaveRun).runLen = th.runLen := by unfold Thread.leaveRun Thread.rollback; split <;> rfl
@[simp] theorem leaveRun_status (th : Thread) : (th.leaveRun).status = th.status := by unfold Thread.leaveRun Thread.rollback; split <;> rfl
@[simp] theorem leaveRun_stopped (th : Thread) : (th.leaveRun).stopped = th.stopped := by unfold Thread.leaveRun Thread.rollback; split <;> rfl
@[simp] theorem leaveRun_record (th : Thread) : (th.leaveRun).record = th.record := by unfold Thread.leaveRun Thread.rollback; split <;> rfl
@[simp] theorem leaveRun_recCause (th : Thread) : (th.leaveRun).recCause = th.recCause := by unfold Thread.leaveRun Thread.rollback; split <;> rfl
@[simp] theorem leaveRun_aside (th : Thread) : (th.leaveRun).aside = th.aside := by unfold Thread.leaveRun Thread.rollback; split <;> rfl
@[simp] theorem leaveRun_grant (th : Thread) : (th.leaveRun).grant = th.grant := by unfold Thread.leaveRun Thread.rollback; split <;> rfl
@[simp] theorem leaveRun_bound (th : Thread) : (th.leaveRun).bound = th.bound := by unfold Thread.leaveRun Thread.rollback; split <;> rfl
@[simp] theorem leaveRun_repc (th : Thread) : (th.leaveRun).repc = th.repc := by unfold Thread.leaveRun Thread.rollback; split <;> rfl
@[simp] theorem leaveRun_ackScr (th : Thread) : (th.leaveRun).ackScr = th.ackScr := by unfold Thread.leaveRun Thread.rollback; split <;> rfl
@[simp] theorem leaveRun_ackAll (th : Thread) : (th.leaveRun).ackAll = th.ackAll := by unfold Thread.leaveRun Thread.rollback; split <;> rfl
@[simp] theorem leaveRun_ackPkg (th : Thread) : (th.leaveRun).ackPkg = th.ackPkg := by unfold Thread.leaveRun Thread.rollback; split <;> rfl
@[simp] theorem leaveRun_ackDev (th : Thread) : (th.leaveRun).ackDev = th.ackDev := by unfold Thread.leaveRun Thread.rollback; split <;> rfl
@[simp] theorem leaveRun_nackPending (th : Thread) : (th.leaveRun).nackPending = th.nackPending := by unfold Thread.leaveRun Thread.rollback; split <;> rfl
@[simp] theorem leaveRun_acq (th : Thread) : (th.leaveRun).acq = th.acq := by unfold Thread.leaveRun Thread.rollback; split <;> rfl
@[simp] theorem leaveRun_copyFault (th : Thread) : (th.leaveRun).copyFault = th.copyFault := by unfold Thread.leaveRun Thread.rollback; split <;> rfl
@[simp] theorem leaveRun_cnt (th : Thread) : (th.leaveRun).cnt = th.cnt := by unfold Thread.leaveRun Thread.rollback; split <;> rfl
@[simp] theorem leaveRun_cycSnap (th : Thread) : (th.leaveRun).cycSnap = th.cycSnap := by unfold Thread.leaveRun Thread.rollback; split <;> rfl
@[simp] theorem leaveRun_lastIssue (th : Thread) : (th.leaveRun).lastIssue = th.lastIssue := by unfold Thread.leaveRun Thread.rollback; split <;> rfl
@[simp] theorem leaveRun_readyAt (th : Thread) : (th.leaveRun).readyAt = th.readyAt := by unfold Thread.leaveRun Thread.rollback; split <;> rfl
@[simp] theorem leaveRun_pathAt (th : Thread) : (th.leaveRun).pathAt = th.pathAt := by unfold Thread.leaveRun Thread.rollback; split <;> rfl
@[simp] theorem leaveRun_parkedAt (th : Thread) : (th.leaveRun).parkedAt = th.parkedAt := by unfold Thread.leaveRun Thread.rollback; split <;> rfl
@[simp] theorem leaveRun_kept (th : Thread) : (th.leaveRun).kept = th.kept := by unfold Thread.leaveRun Thread.rollback; split <;> rfl
@[simp] theorem leaveRun_waitPage (th : Thread) : (th.leaveRun).waitPage = th.waitPage := by unfold Thread.leaveRun Thread.rollback; split <;> rfl

end Sys2Proof.Machine
end

