-- ==== Sys2Proof/Laws/Words.lean ====
section
/-!
SUPPORT. Looking a thread up after an update, and what the common shapes of a word do to a bundle of one thread.
-/
namespace Sys2Proof.Machine

/-! ## Lookups after updates -/

/-- Finding by id in a mapped list whose map keeps ids. -/
theorem find?_map_id {α : Type} (key : α → Nat) (g : α → α) (hg : ∀ x, key (g x) = key x) (l : List α) (k : Nat) :
    (l.map g).find? (fun x => key x == k) = (l.find? fun x => key x == k).map g := by
  induction l with
  | nil => rfl
  | cons x xs ih =>
    simp only [List.map_cons, List.find?_cons, hg]
    split
    · rfl
    · exact ih

/-- A team after an update of a team that keeps its id. -/
theorem team?_updTeam (s : State) (t u : Nat) (f : Team → Team) (hf : ∀ x, (f x).id = x.id) :
    (s.updTeam t f).team? u = (s.team? u).map fun x => if x.id = t then f x else x := by
  unfold State.updTeam State.team?
  refine find?_map_id Team.id _ (fun x => ?_) s.teams u
  split
  · exact hf x
  · rfl

/-- The team found has the id asked for. -/
theorem team?_id {s : State} {t : Nat} {tm : Team} (h : s.team? t = some tm) : tm.id = t := by
  have := List.find?_some h
  simpa using this

/-- Group lookup after a thread update. -/
theorem group?_updThread (s : State) (r : ThreadRef) (f : Thread → Thread) (t g : Nat) :
    (s.updThread r f).group? t g = (s.group? t g).map fun gr =>
      if t = r.team ∧ g = r.tid / 32 then { gr with threads := gr.threads.modify (r.tid % 32) f } else gr := by
  unfold State.updThread State.updGroup State.group?
  rw [team?_updTeam _ _ _ _ (by intro x; rfl)]
  cases h : s.team? t with
  | none => rfl
  | some tm =>
    have hid := team?_id h
    simp only [Option.map_some, Option.bind_some, hid]
    by_cases ht : t = r.team
    · subst ht
      simp only [if_true, true_and, List.getElem?_modify]
      cases tm.groups[g]? with
      | none => simp
      | some gr =>
        by_cases hg : g = r.tid / 32
        · simp [hg]
        · simp [hg, Ne.symm hg]
    · simp [ht]

/-- NREG of every group stands through a thread update. -/
@[simp] theorem nregOf_updThread (s : State) (r q : ThreadRef) (f : Thread → Thread) :
    (s.updThread r f).nregOf q = s.nregOf q := by
  unfold State.nregOf
  rw [group?_updThread]
  cases s.group? q.team (q.tid / 32) with
  | none => rfl
  | some gr => simp only [Option.map_some]; split <;> rfl

/-- The thread updated. -/
theorem thread?_updThread_self {s : State} {r : ThreadRef} {th : Thread} (f : Thread → Thread) (h : s.thread? r = some th) :
    (s.updThread r f).thread? r = some (f th) := by
  unfold State.thread? at h ⊢
  rw [group?_updThread]
  cases hg : s.group? r.team (r.tid / 32) with
  | none => simp [hg] at h
  | some gr =>
    simp only [hg, Option.bind_some] at h
    simp [h]

/-- Every other thread. -/
theorem thread?_updThread_ne (s : State) {r q : ThreadRef} (f : Thread → Thread) (h : q ≠ r) :
    (s.updThread r f).thread? q = s.thread? q := by
  unfold State.thread?
  rw [group?_updThread]
  cases s.group? q.team (q.tid / 32) with
  | none => rfl
  | some gr =>
    simp only [Option.map_some, Option.bind_some]
    split
    · rename_i hc
      have : q.tid % 32 ≠ r.tid % 32 := by
        intro he
        apply h
        have : q.tid = r.tid := by omega
        cases q; cases r; simp_all
      simp [Ne.symm this]
    · rfl

/-! ## A bundle of one thread -/

/-- Each thread of a bundle of one. -/
theorem eachIssuing_one {s : State} {r : ThreadRef} {i : Instr} {n : Nat} (f : State → ThreadRef → State)
    (hb : s.issue.bundle = [r]) (hn : s.nregOf r = some n) (hf : fieldCheck n i = true) : s.eachIssuing i f = f s r := by
  unfold State.eachIssuing State.forRefs
  simp [hb, hn, hf]

/-- A word on its own thread, in a bundle of one. -/
theorem aluWord_one {s : State} {r : ThreadRef} {i : Instr} {n : Nat} (p : BitVec 3) (f : Thread → Thread)
    (hb : s.issue.bundle = [r]) (hn : s.nregOf r = some n) (hf : fieldCheck n i = true) :
    aluWord i p f s = .next (s.updThread r fun th => if th.pred p.toNat then f th else th.push 0) := by
  unfold aluWord
  rw [eachIssuing_one _ hb hn hf]

/-- A predicated word whose predicate is true, in a bundle of one. -/
theorem predWord_one {s : State} {r : ThreadRef} {i : Instr} {n : Nat} {th : Thread} (p : Nat)
    (f : State → ThreadRef → State) (hb : s.issue.bundle = [r]) (hn : s.nregOf r = some n) (hf : fieldCheck n i = true)
    (ht : s.thread? r = some th) (hp : th.pred p = true) : predWord i p f s = .next (f s r) := by
  unfold predWord
  rw [eachIssuing_one _ hb hn hf]
  simp [ht, hp]

/-- A predicated word whose predicate is false does nothing, in a bundle of one. -/
theorem predWord_off {s : State} {r : ThreadRef} {i : Instr} {n : Nat} {th : Thread} (p : Nat)
    (f : State → ThreadRef → State) (hb : s.issue.bundle = [r]) (hn : s.nregOf r = some n) (hf : fieldCheck n i = true)
    (ht : s.thread? r = some th) (hp : th.pred p = false) : predWord i p f s = .next s := by
  unfold predWord
  rw [eachIssuing_one _ hb hn hf]
  simp [ht, hp]

end Sys2Proof.Machine
end

