-- ==== Sys2Proof/Safety.lean ====
section
/-!
DEFINITION. What counts as a safe run: no fault and no refusal in any number of steps.
-/
namespace Sys2Proof

open Machine

/-- A step that the machine goes on from. -/
def goesOn : Host.Outcome State Fault Refusal → Bool
  | .next _ => true
  | _ => false

/-- The machine goes on for k steps from a state. -/
def SafeFor (k : Nat) (s : State) : Prop := goesOn (core.run k s) = true

/-- The machine never stops from a state. -/
def Safe (s : State) : Prop := ∀ k, SafeFor k s

end Sys2Proof
end

