-- ==== Sys2Proof/Tests/Slice0.lean ====
section
/-!
SUPPORT. Tests on one word or one step, with results worked out from the manual, and for every statement of Obligations.lean a
witness, `witness_` and the statement's name: a concrete state and operands that meet its hypotheses, clause by clause.  An
obligation that is a conjunction of claims of Sys2Proof.Claims has a witness for each of them, under the claim's name.
-/
namespace Sys2Proof.Tests

-- One evaluation at a time: each holds much memory.
set_option Elab.async false

open Sys2Proof Sys2Proof.Machine Sys2Proof.Claims

/-! ## A small state -/

/-- The package with one team, one group, 64 registers, and an identity map of the first 64 MiB whose entry already carries ACC and
DIRTY. -/
def base : State :=
  let s := State.reset.place []
  { s with mem := s.mem.writeBytes 0x14000 (leBytes 0x6F 8), issue := { Issue.idle with bundle := [⟨0, 0⟩] } }

/-- The thread that the tests run. -/
def r0 : ThreadRef := ⟨0, 0⟩

/-- The state with that thread changed. -/
def withThread (f : Thread → Thread) : State := base.updThread r0 f

/-- The state with registers set. -/
def withRegs (xs : List (Nat × Word)) (s : State := base) : State :=
  s.updThread r0 fun th => { th with regs := xs.foldl (fun rs x => rs.set x.1 x.2) th.regs }

/-- The team, the group and the thread of a reference, where they exist. -/
def tmOf (s : State) (r : ThreadRef) : Team := (s.team? r.team).getD placedTeam
def gOf (s : State) (r : ThreadRef) : Group := (tmOf s r).groups.getD (r.tid / 32) (Group.fresh 0 64 0)
def thOf (s : State) (r : ThreadRef) : Thread := (gOf s r).threads.getD (r.tid % 32) (Thread.fresh 64 0)

/-- The reference names a thread of the state. -/
def standsB (s : State) (r : ThreadRef) : Bool :=
  (s.team? r.team == some (tmOf s r)) && ((tmOf s r).groups[r.tid / 32]? == some (gOf s r)) &&
    ((gOf s r).threads[r.tid % 32]? == some (thOf s r))

theorem stands_of {s : State} {r : ThreadRef} (h : standsB s r = true) : s.team? r.team = some (tmOf s r) ∧
    (tmOf s r).groups[r.tid / 32]? = some (gOf s r) ∧ (gOf s r).threads[r.tid % 32]? = some (thOf s r) := by
  simpa [standsB, and_assoc] using h

theorem thread_of {s : State} {r : ThreadRef} (h : standsB s r = true) : s.thread? r = some (thOf s r) := by
  obtain ⟨h1, h2, h3⟩ := stands_of h
  simp [State.thread?, State.group?, h1, h2, h3]

/-- `Alone` and `Acting` at the team, group and thread of the reference. -/
abbrev AloneAt (i : Instr) (s : State) (r : ThreadRef := r0) : Prop := Alone i s r (tmOf s r) (gOf s r) (thOf s r)
abbrev ActingAt (i : Instr) (p : Nat) (s : State) (r : ThreadRef := r0) : Prop := Acting i p s r (tmOf s r) (gOf s r) (thOf s r)

theorem alone_of {i : Instr} {s : State} {r : ThreadRef}
    (h : (s.issue.bundle == [r] && standsB s r && fieldCheck (gOf s r).nreg i) = true) : AloneAt i s r := by
  simp only [Bool.and_eq_true, beq_iff_eq] at h
  obtain ⟨h1, h2, h3⟩ := stands_of h.1.2
  exact ⟨h.1.1, h1, h2, h3, h.2⟩

theorem acting_of {i : Instr} {p : Nat} {s : State} {r : ThreadRef}
    (h : (s.issue.bundle == [r] && standsB s r && fieldCheck (gOf s r).nreg i && (thOf s r).pred p) = true) :
    ActingAt i p s r := by
  rw [Bool.and_eq_true] at h
  exact ⟨alone_of h.1, h.2⟩

theorem issuing_of {i : Instr} {s : State}
    (h : (decide s.issue.bundle.Nodup && s.issue.bundle.all fun r => (s.nregOf r).any fun n => fieldCheck n i) = true) :
    Issuing i s := by
  simp only [Bool.and_eq_true, decide_eq_true_eq, List.all_eq_true] at h
  refine ⟨h.1, fun r hr => ?_⟩
  have hb := h.2 r hr
  cases hn : s.nregOf r with
  | none => rw [hn] at hb; cases hb
  | some n => exact ⟨n, rfl, by rw [hn] at hb; exact hb⟩

/-- What holds of every thread of every team holds of the thread of a reference. -/
theorem thread_all {s : State} {p : Thread → Bool} (h : (s.teams.all fun t => t.groups.all fun g => g.threads.all p) = true)
    {q : ThreadRef} {u : Thread} (hu : s.thread? q = some u) : p u = true := by
  simp only [State.thread?, State.group?, State.team?, Option.bind_eq_some_iff] at hu
  obtain ⟨g, ⟨t, ht, hg⟩, hu⟩ := hu
  simp only [List.all_eq_true] at h
  exact h t (List.mem_of_find?_eq_some ht) g (List.mem_of_getElem? hg) u (List.mem_of_getElem? hu)

/-! ## Ill-formed terms, one for each check (R42 to R55, R77, R78) -/

theorem test_wf_w_with_destination : wellFormed (.iadd false true 1 2 3 0) = false := by decide
theorem test_wf_odd_pair : wellFormed (.iadd64 false false 1 2 4 0) = false := by decide
theorem test_wf_source_code_7F : wellFormed (.iadd false false 1 0x7F 2 0) = false := by decide
theorem test_wf_pair_source_latch : wellFormed (.iadd64 false false 2 0x40 4 0) = false := by decide
theorem test_wf_source_must_be_register : wellFormed (.cvtF16F32 false false 1 0x44 false 0) = false := by decide
theorem test_wf_source_must_be_pair : wellFormed (.qsc4Merge false 2 0x44 0) = false := by decide
theorem test_wf_p0_as_destination : wellFormed (.icmp false 0 0 1 2 0) = false := by decide
theorem test_wf_quad_load_misaligned : wellFormed (.ldq false 6 2 0 0) = false := by decide
theorem test_wf_block_past_63 : wellFormed (.twkLoad false 0 61 0 0) = false := by decide
theorem test_wf_scope_6 : wellFormed (.fenceRel false 6 0) = false := by decide
theorem test_wf_miss_3 : wellFormed (.mmaFwd false 0 false 0 false 0 0 3) = false := by decide
theorem test_wf_object_scope : wellFormed (.syncWait false 2 0 1 0) = false := by decide
theorem test_wf_unknown_special_register : wellFormed (.srd false 0 0x00E) = false := by decide
theorem test_wf_read_only_special_register : wellFormed (.swr false 0 0x020) = false := by decide
theorem test_wf_format_7 : wellFormed (.mmaFwd false 0 false 0 false 7 0 0) = false := by decide
theorem test_wf_bwd_of_int8 : wellFormed (.mmaBwd false 0 false 0 false 2 0 0) = false := by decide
theorem test_wf_above_nreg : fieldCheck 40 (.iadd false false 1 40 2 0) = false ∧ fieldCheck 40 (.iadd false false 1 39 2 0) = true := by
  decide

/-! ## Words laid out bit by bit from the encoding tables -/

theorem test_decode_iadd : decodeWord 0x01060410 0 = .ok (.iadd false false 3 1 2 0) := by decide
theorem test_decode_fmul : decodeWord 0x220817A3 0 = .ok (.fmul false false 4 5 0x74 3) := by decide
theorem test_decode_fadd_no_destination : decodeWord 0x20801838 0 = .ok (.fadd false true 0 6 7 0) := by decide
theorem test_decode_ldw_linked : decodeWord 0xD2284002 0 = .ok (.ldw true 10 4 0 2) := by decide
theorem test_decode_addi : decodeWord 0x40145FFC 0 = .ok (.addi false 5 5 0xFFC) := by decide
theorem test_decode_movk : decodeWord 0x49240000 0x12345678 = .ok (.movk false 9 0x12345678) := by decide
theorem test_decode_rep : decodeWord 0xFE230000 0 = .ok (.rep 8 true true false 0) := by decide
theorem test_decode_mov : decodeWord 0x1F202000 0 = .ok (.mov false false 16 8 0) := by decide
theorem test_decode_srd : decodeWord 0x4B000050 0 = .ok (.srd false 0 0x050) := by decide
theorem test_decode_stw : decodeWord 0x57206001 0 = .ok (.stw false 8 6 0 1) := by decide
theorem test_decode_exit : decodeWord 0x7C300000 0 = .ok (.sysExit false 0) := by decide
theorem test_decode_oprdy : decodeWord 0x79300000 0 = .ok (.fenceOprdy false 0) := by decide
theorem test_decode_word_1 : decodeWord 1 0 = .error .illegalField := by decide
theorem test_decode_all_ones : decodeWord 0xFFFFFFFF 0 = .error .illegalOpcode := by decide
theorem test_decode_reserved_3B : decodeWord 0x3B000000 0 = .error .illegalOpcode := by decide
theorem test_decode_reserved_function : decodeWord 0x6D0420E8 0 = .error .illegalOpcode := by decide
theorem test_decode_reserved_format : decodeWord 0x700C4008 0 = .error .illegalOpcode := by decide

/-! Words that the chapters' own examples give, one family after the other. -/

theorem test_decode_integer : decodeWord 0x07080818 0 = .ok (.imin false false 4 2 3 0) ∧
    decodeWord 0x48A42FFB 0 = .ok (.icmpi false 5 1 2 0xFFB) ∧ decodeWord 0x1A0012A0 0 = .ok (.imadw false 0 4 0x54 0) ∧
    decodeWord 0x1D640030 0 = .ok (.icmp64 false 6 2 0 6 0) ∧ decodeWord 0x33360808 0 = .ok (.plop false 3 3 2 1 0) ∧
    decodeWord 0x1E0A1222 0 = .ok (.sel false false 5 4 0x44 2) := by decide
theorem test_decode_quantizers : decodeWord 0x34500220 0 = .ok (.qsc4Fold false 40 0 0) ∧
    decodeWord 0x3454A230 0 = .ok (.qsc4Scale false false 42 40 0) ∧ decodeWord 0x36580150 0 = .ok (.qnt4 false 44 0 42 0) ∧
    decodeWord 0x385EB950 0 = .ok (.dq false false 47 46 42 0) := by decide
theorem test_decode_memory : decodeWord 0x54204002 0 = .ok (.ldq false 8 4 0 2) ∧
    decodeWord 0x5B206200 0 = .ok (.ldqn false 8 6 1 0) ∧ decodeWord 0x6018A070 0 = .ok (.amoAdd false 6 10 3 4 0) ∧
    decodeWord 0x60202714 0 = .ok (.amoCas64 false 8 2 0 5 0) ∧ decodeWord 0x61B98447 0 = .ok (.samoXchg false 46 24 2 1 3) ∧
    decodeWord 0x62155024 0 = .ok (.ldlk false 5 21 1 1 0) ∧ decodeWord 0x63155044 0 = .ok (.stul false 5 21 2 1 0) := by decide
theorem test_decode_copies : decodeWord 0x732A1914 0 = .ok (.cpy false 10 33 36 1 2) ∧
    decodeWord 0x74800000 0 = .ok (.cpw false 2 0) ∧ decodeWord 0x75365042 0 = .ok (.twkStore false 44 40 4 1) := by decide
theorem test_decode_control : decodeWord 0x649FFFFE 0 = .ok (.bra 4 0x1FFFFE) ∧
    decodeWord 0x7C100000 0 = .ok (.sysEret false 0) ∧ decodeWord 0x7C400000 0 = .ok (.sysPyld false 0) := by decide
theorem test_decode_collectives : decodeWord 0x6C1051D8 0 = .ok (.shflXor false 4 5 7) ∧
    decodeWord 0xED79D748 0 = .ok (.voteAny true 30 29 29) ∧ decodeWord 0x6E4D2740 0 = .ok (.reduxAdd false 19 18 29) ∧
    decodeWord 0x6F2831C0 0 = .ok (.match false 10 3 7) := by decide
theorem test_decode_engine : decodeWord 0x70668818 0 = .ok (.mmaFwd2 false 1 true 40 true 0 3 0) ∧
    decodeWord 0x70088304 0 = .ok (.mmaFwdk false 0 false 8 false 3 0 2) ∧ decodeWord 0x70910310 0 = .ok (.mmaGrad false 2 16 3 2 0) ∧
    decodeWord 0x71128121 0 = .ok (.bankLd false 2 20 9 1) ∧ decodeWord 0x71998005 0 = .ok (.bankGdrain false 3 12 0 5) ∧
    decodeWord 0x72140000 0 = .ok (.topkInit false true 1) ∧ decodeWord 0x72254000 0 = .ok (.topkRead false 1 20) := by decide
theorem test_decode_sync : decodeWord 0x781980A0 0 = .ok (.syncArrive false 4 48 5 0) ∧
    decodeWord 0x780210C4 0 = .ok (.syncInit false 1 2 6 1) ∧ decodeWord 0x790A0000 0 = .ok (.fenceRel false 5 0) ∧
    decodeWord 0x79400000 0 = .ok (.fenceTfence false 0) := by decide
theorem test_decode_objects_and_tasks : decodeWord 0x7A300088 0 = .ok (.nobjHand false 4 2) ∧
    decodeWord 0x7A500080 0 = .ok (.nobjQuery false 4 0) ∧ decodeWord 0x7B060080 0 = .ok (.taskPush false 3 4 0) ∧
    decodeWord 0x7B360000 0 = .ok (.taskEos false 3 0) ∧ decodeWord 0x7D000100 0 = .ok (.sendEmark false 8 0) := by decide

/-- R78's examples decode to terms that break a field rule. -/
theorem test_field_faults : ((decodeWord 0x7B080040 0).toOption.all (!wellFormed ·)) = true ∧
    ((decodeWord 0x7813E0A0 0).toOption.all (!wellFormed ·)) = true ∧ ((decodeWord 0x5A106000 0).toOption.all (!wellFormed ·)) = true := by
  decide

/-! ## One step each, with the results of the chapters' examples -/

/-- The thread after one step that fetches the word, its registers set first. -/
def afterStep (w : Nat) (regs : List (Nat × Word)) : Thread :=
  match step (withRegs regs (State.reset.withFetchWord 64 w)) with
  | .next t => thOf t r0
  | _ => Thread.fresh 0 0

/-- R288's family: ADDI v5, v5, #-4 on 0. -/
theorem test_step_addi : (afterStep 0x40145FFC []).reg 5 = 0xFFFFFFFC ∧ (afterStep 0x40145FFC []).pc = ⟨0, 1⟩ := by decide +kernel
theorem test_step_imadw : let th := afterStep 0x1A0012A0 [(0, 0x1000), (1, 0x40), (4, 7)]
    th.reg 0 = 0x1070 ∧ th.reg 1 = 0x40 := by decide +kernel
theorem test_step_iadds : let th := afterStep 0x16142318 [(8, 0x7FFFFFF0)]
    th.reg 10 = 0x7FFFFFFF ∧ th.fflags = 4 := by decide +kernel
theorem test_step_prmb : (afterStep 0x15162460 [(9, 0x11A23344), (12, 0xA401)]).reg 11 = 0xFF004433 := by decide +kernel
theorem test_step_movk : (afterStep 0x1234567849240000 []).reg 9 = 0x12345678 := by decide +kernel
theorem test_step_qsc4_scale : (afterStep 0x3454A230 [(40, 0xBF800000), (41, 0x40300000)]).reg 42 = 0x01043400 := by decide +kernel
theorem test_step_qnt4 : (afterStep 0x36580150 [(0, 0x40300000), (42, 0x01043400)]).reg 44 = 0xF0000000 := by decide +kernel
theorem test_step_dq : (afterStep 0x385EB950 [(46, 0x0666666F), (42, 0x01043400)]).reg 47 = 0x40300000 := by decide +kernel

/-- R79's packet P and P2, with the REP and its target in slots 0 and 1: REP_TARGET, and ILLEGAL_FIELD; the thread is at its handler. -/
theorem test_step_rep_of_reserved_opcode : let th := afterStep 0x3F000000FE080000 []
    th.ecause.extractLsb' 0 8 = 0x67 ∧ th.pc = ⟨16, 0⟩ := by decide +kernel
theorem test_step_rep_of_reserved_source : (afterStep 0x010407F8FE080000 []).ecause.extractLsb' 0 8 = 0x61 := by decide +kernel

/-! # Witnesses -/

/-! ## Integer and floating-point words -/

/-- Both threads of lanes 0 and 31, predicate p1 true in lane 31 only: one keeps the word, one is predicated off. -/
def twoLanes : State :=
  { base with issue := { Issue.idle with bundle := [⟨0, 0⟩, ⟨0, 31⟩] } }.updThread ⟨0, 31⟩ fun th => { th with preds := 2 }

theorem witness_TwoSourceIntegerWords :
    (∃ a f, twoSource (.iadd false false 63 0 0x7E 1) = some (a, f)) ∧ Issuing (.iadd false false 63 0 0x7E 1) twoLanes ∧
    Issuing (.sar false true 0 63 0x63 1) twoLanes := ⟨⟨_, _, rfl⟩, issuing_of (by decide +kernel), issuing_of (by decide +kernel)⟩
theorem witness_BitCountAndPermuteWords : (∃ a f, bitWords (.prmb false false 63 0 0x40 0) = some (a, f)) ∧
    Issuing (.prmb false false 63 0 0x40 0) twoLanes := ⟨⟨_, _, rfl⟩, issuing_of (by decide +kernel)⟩
theorem witness_SaturatingAdd : Issuing (.iadds false true 0 8 0x63 1) twoLanes ∧
    (let s := withRegs [(8, 0x7FFFFFE1)]; Issuing (.iadds false false 10 8 0x63 0) s ∧
      ((thOf s r0).src 8).toInt + ((thOf s r0).src 0x63).toInt = 2 ^ 31) :=
  ⟨issuing_of (by decide +kernel), issuing_of (by decide +kernel), by decide +kernel⟩
theorem witness_WideAndAccumulatingWords : (∃ p f, wideWords (.iadd64 false false 62 0 0x7E 1) = some (p, f)) ∧
    Issuing (.iadd64 false false 62 0 0x7E 1) twoLanes ∧ Issuing (.imadw false 62 63 0x44 1) twoLanes :=
  ⟨⟨_, _, rfl⟩, issuing_of (by decide +kernel), issuing_of (by decide +kernel)⟩
theorem witness_ComparesWritePredicates : (∃ p q c, compares (.icmp false 7 7 0 0x44 1) = some (p, q, c) ∧ c (thOf twoLanes r0)) ∧
    Issuing (.icmp false 7 7 0 0x44 1) twoLanes ∧ Issuing (.icmpi false 2 1 0 0x800) twoLanes :=
  ⟨⟨_, _, _, rfl, by show ((thOf twoLanes r0).src 0x44).toNat ≤ ((thOf twoLanes r0).src 0).toNat; decide +kernel⟩,
    issuing_of (by decide +kernel), issuing_of (by decide +kernel)⟩
theorem witness_ImmediateWords : (∃ f, immediates (.addi false 63 0 0x800) = some f) ∧ Issuing (.addi false 63 0 0x800) twoLanes ∧
    Issuing (.shli false 0 63 31) twoLanes ∧ Issuing (.addi64 false 62 62 0x7FF) twoLanes :=
  ⟨⟨_, rfl⟩, issuing_of (by decide +kernel), issuing_of (by decide +kernel), issuing_of (by decide +kernel)⟩
/-- Each range of source codes, at its ends. -/
theorem witness_IntegerSourceCodes : let th := { Thread.fresh 64 0 with regs := (List.range 64).map (BitVec.ofNat 32), latches := [9, 8, 7, 6] }
    th.src 0x3F = 63 ∧ th.src 0x40 = 9 ∧ th.src 0x43 = 6 ∧ th.src 0x44 = 0 ∧ th.src 0x63 = 31 ∧ (th.src 0x64).toInt = -1 ∧
    (th.src 0x73).toInt = -16 := by decide
theorem witness_BrokenFieldRaises : base.issue.bundle = [r0] ∧ base.nregOf r0 = some 64 ∧
    fieldCheck 64 (.iadd false true 1 2 3 7) = false ∧ fieldCheck 64 (.iadd false false 1 0x7F 3 7) = false := by decide +kernel
theorem witness_FloatArithmeticWords : (∃ p f, arithWords (.ffma false 63 0 0x7C 1) = some (p, f)) ∧
    Issuing (.ffma false 63 0 0x7C 1) twoLanes ∧ Issuing (.dfma false 62 0 0x7D 1) twoLanes :=
  ⟨⟨_, _, rfl⟩, issuing_of (by decide +kernel), issuing_of (by decide +kernel)⟩
theorem witness_FloatSelectAndClassWords : (∃ p f, selectWords (.fmin false false 1 0x7B 0x7C 1) = some (p, f)) ∧
    Issuing (.fmin false false 1 0x7B 0x7C 1) twoLanes ∧ Issuing (.fclassE4m3 false false 63 0 1) twoLanes :=
  ⟨⟨_, _, rfl⟩, issuing_of (by decide +kernel), issuing_of (by decide +kernel)⟩
theorem witness_ConversionWords : (∃ p f, convertWords (.cvtF64F32 false false 63 62 1) = some (p, f)) ∧
    Issuing (.cvtF64F32 false false 63 62 1) twoLanes ∧ Issuing (.cvtE5m2F32 false false 63 0 3 1) twoLanes :=
  ⟨⟨_, _, rfl⟩, issuing_of (by decide +kernel), issuing_of (by decide +kernel)⟩
theorem witness_SpecialFunctionAndQuantizerWords : (∃ p f, sfuWords (.sfuRcp false false 63 0 1) = some (p, f)) ∧
    Issuing (.sfuRcp false false 63 0 1) twoLanes ∧ (∃ p f, quantWords (.qnt8 false 63 0 1 1) = some (p, f)) ∧
    Issuing (.qnt8 false 63 0 1 1) twoLanes :=
  ⟨⟨_, _, rfl⟩, issuing_of (by decide +kernel), ⟨_, _, rfl⟩, issuing_of (by decide +kernel)⟩
theorem witness_NaNOperandsGiveCanonicalNaN : fmtF32 ∈ formats ∧ fdec fmtF32 0x7F800001 = .nan true ∧ fdec fmtF32 0x7FC00000 = .nan false ∧
    fmtE4M3 ∈ formats ∧ fdec fmtE4M3 0x7F = .nan false := by decide +kernel
/-- 1 + 1 is exact, and 2^24 + 1 is not. -/
theorem witness_ResultWithoutInexactFlagIsExact : fmtF32 ∈ formats ∧ (∃ x, ratOf (fdec fmtF32 0x3F800000) = some x) ∧
    (fadd fmtF32 0 0x3F800000 0x3F800000).2.testBit 0 = false ∧ (fmul fmtF32 0 0x3F800000 0x3F800000).2.testBit 0 = false ∧
    (fadd fmtF32 0 0x4B800000 0x3F800000).2.testBit 0 = true :=
  ⟨by decide +kernel, ⟨_, rfl⟩, by decide +kernel, by decide +kernel, by decide +kernel⟩
/-- A NaN of each kind, the two zeros, and two words. -/
theorem witness_MinMaxChooseAnOperand : isNaN32 0x7F800001 ∧ isNaN32 0xFFFFFFFF ∧ ¬ isNaN32 0x7F800000 ∧ ¬ isNaN32 0xFF800000 ∧
    (0x7F800001 : Word).getLsbD 22 = false ∧ rank32 0x80000000 < rank32 0 ∧ rank32 0x80000000 = -1 ∧
    Issuing (.fmin false true 0 0x7B 0x7C 1) twoLanes ∧ Issuing (.fmax false false 63 0x7A 0x7E 1) twoLanes :=
  ⟨by decide, by decide, by decide, by decide, by decide, by decide, by decide, issuing_of (by decide +kernel), issuing_of (by decide +kernel)⟩

/-! ## Control words and special registers -/

theorem off_of {s : State} {p : Nat} (h : (s.issue.bundle.all fun r => (s.thread? r).all fun th => !th.pred p) = true) :
    ∀ r ∈ s.issue.bundle, ∀ th, s.thread? r = some th → th.pred p = false := by
  intro r hr th ht
  have := List.all_eq_true.mp h r hr
  simpa [ht] using this

theorem witness_NopDoesNothing : Issuing (.nop true) twoLanes := issuing_of (by decide +kernel)
/-- One word of each kind, its predicate p7 (p3 for an atomic), false. -/
theorem witness_PredicatedOffDoesNothing : (∀ r ∈ base.issue.bundle, ∀ th, base.thread? r = some th → th.pred 7 = false) ∧
    (∀ r ∈ base.issue.bundle, ∀ th, base.thread? r = some th → th.pred 3 = false) ∧
    (Guarded (.ldq false 60 62 7 0x100) 7 ∧ Issuing (.ldq false 60 62 7 0x100) base) ∧
    (Guarded (.amoCas64 true 60 62 3 5 3) 3 ∧ Issuing (.amoCas64 true 60 62 3 5 3) base) ∧
    (Guarded (.stul false 63 63 0 0 3) 3 ∧ Issuing (.stul false 63 63 0 0 3) base) ∧
    (Guarded (.cpy false 62 63 0 3 7) 7 ∧ Issuing (.cpy false 62 63 0 3 7) base) ∧
    (Guarded (.call 7 0x1FFFFF) 7 ∧ Issuing (.call 7 0x1FFFFF) base) ∧ (Guarded (.ret 7) 7 ∧ Issuing (.ret 7) base) ∧
    (Guarded (.jmpr 7 63) 7 ∧ Issuing (.jmpr 7 63) base) ∧ (Guarded (.nobjDrop false 60 7) 7 ∧ Issuing (.nobjDrop false 60 7) base) ∧
    (Guarded (.syncErr false 4 55 63 7) 7 ∧ Issuing (.syncErr false 4 55 63 7) base) ∧
    (Guarded (.sysExit true 7) 7 ∧ Issuing (.sysExit true 7) base) ∧ (Guarded (.fenceFull false 5 7) 7 ∧ Issuing (.fenceFull false 5 7) base) ∧
    (Guarded (.twkGather false 63 60 31 7) 7 ∧ Issuing (.twkGather false 63 60 31 7) base) ∧
    (Guarded (.taskPush false 3 63 7) 7 ∧ Issuing (.taskPush false 3 63 7) base) :=
  ⟨off_of (by decide +kernel), off_of (by decide +kernel),
    ⟨.m Instr.ldq (by simp [formsM]) .., issuing_of (by decide +kernel)⟩,
    ⟨.amo (Instr.amoCas64, 14) (by simp [formsAmo]) .., issuing_of (by decide +kernel)⟩,
    ⟨.lock Instr.stul (by simp) .., issuing_of (by decide +kernel)⟩, ⟨.cpy .., issuing_of (by decide +kernel)⟩,
    ⟨.bra Instr.call (by simp) .., issuing_of (by decide +kernel)⟩, ⟨.ret .., issuing_of (by decide +kernel)⟩,
    ⟨.jmpr .., issuing_of (by decide +kernel)⟩, ⟨.v Instr.nobjDrop (by simp [formsV]) .., issuing_of (by decide +kernel)⟩,
    ⟨.sync Instr.syncErr (by simp [formsSync]) .., issuing_of (by decide +kernel)⟩,
    ⟨.p Instr.sysExit (by simp [formsP]) .., issuing_of (by decide +kernel)⟩,
    ⟨.three Instr.fenceFull (by simp [forms3]) .., issuing_of (by decide +kernel)⟩,
    ⟨.twk Instr.twkGather (by simp) .., issuing_of (by decide +kernel)⟩,
    ⟨.threeSix Instr.taskPush (by simp [forms36]) .., issuing_of (by decide +kernel)⟩⟩

theorem witness_SrdReadsSpecialRegisters : AloneAt (.srd false 63 0x051) base ∧ AloneAt (.srd false 0 0) base ∧
    AloneAt (.srd false 0 0x020) base ∧ AloneAt (.srd false 0 0x021) base ∧
    base.launch? (tmOf base r0).launch = some placedLaunch ∧
    (specialValue base r0 (tmOf base r0) (gOf base r0) (thOf base r0) placedLaunch 0x051).isSome ∧
    (specialValue base r0 (tmOf base r0) (gOf base r0) (thOf base r0) placedLaunch 0).isSome ∧
    ((base.ctx? (tmOf base r0).ctx).any fun k => !k.capture && k.replay.isNone) = true :=
  ⟨alone_of (by decide +kernel), alone_of (by decide +kernel), alone_of (by decide +kernel), alone_of (by decide +kernel),
    by decide +kernel, by decide +kernel, by decide +kernel, by decide +kernel⟩

/-- An MMA of the group that takes deferred rows is queued. -/
def deferring : State := withRegs [(63, 8)] (base.updCore 0 fun k => { k with engq := [.mma ⟨0, 0, 0, 0, 48, 0, false, false, 0, 31, 0, false, [], [], []⟩] })
def reading (v : Word) : State := withRegs [(63, v)]

/-- Registers of both kinds at the greatest value each takes, and at the least that it refuses; a deferral register under an MMA. -/
theorem witness_SwrWritesSpecialRegisters :
    AloneAt (.swr false 63 0x030) (reading 0xFFFF) ∧ (0xFFFF : Word) &&& 0xFFFF0000 = 0 ∧
    AloneAt (.swr false 63 0x048) (reading 0xDFF) ∧ (0xDFF : Word) &&& 0xFFFFF000 = 0 ∧ (0xDFF : Word).toNat / 512 % 4 ≠ 3 ∧
    AloneAt (.swr false 63 0x04A) (reading 0xFFF3FFFF) ∧ (0xFFF3FFFF : Word) &&& 0x000C0000 = 0 ∧
      (0xFFF3FFFF : Word).toNat / 2 ^ 20 % 64 ≤ (0xFFF3FFFF : Word).toNat / 2 ^ 26 ∧
    AloneAt (.swr false 63 0x032) (reading 0x1FFFF8) ∧ (0x1FFFF8 : Word) &&& 0xFFE00007 = 0 ∧
    (base.core (tmOf base r0).core).deferPending 0 0 = false ∧
    (AloneAt (.swr false 63 0x032) deferring ∧ (thOf deferring r0).reg 63 &&& 0xFFE00007 = 0 ∧ (deferring.core 0).deferPending 0 0 = true) ∧
    (0x10000 : Word) &&& 0xFFFF0000 ≠ 0 ∧ ¬ (0x600 : Word).toNat / 512 % 4 ≠ 3 ∧
    ¬ (0x04200000 : Word).toNat / 2 ^ 20 % 64 ≤ (0x04200000 : Word).toNat / 2 ^ 26 ∧ (4 : Word) &&& 0xFFE00007 ≠ 0 ∧
    AloneAt (.swr false 63 0x04A) (reading 0x04200000) :=
  ⟨alone_of (by decide +kernel), by decide, alone_of (by decide +kernel), by decide, by decide, alone_of (by decide +kernel), by decide,
    by decide, alone_of (by decide +kernel), by decide, by decide +kernel, ⟨alone_of (by decide +kernel), by decide +kernel, by decide +kernel⟩,
    by decide, by decide, by decide, by decide, alone_of (by decide +kernel)⟩

theorem witness_BranchesSetThePlace : ActingAt (.bra 0 0x100000) 0 base ∧ ActingAt (.jmpr 0 63) 0 base :=
  ⟨acting_of (by decide +kernel), acting_of (by decide +kernel)⟩

/-- %STKP with LIMIT, DEPTH and SP. -/
def stacked (limit depth sp : Nat) : State := withThread fun th => { th with stkp := BitVec.ofNat 32 (limit * 2 ^ 26 + depth * 2 ^ 20 + sp) }

theorem witness_CallAndReturn : base.coreGone 0 = false ∧
    (ActingAt (.call 0 0x100000) 0 (stacked 63 62 512) ∧ (thOf (stacked 63 62 512) r0).stkp.toNat = 63 * 2 ^ 26 + 62 * 2 ^ 20 + 512 ∧
      8 * 512 ≤ (tmOf base r0).scrsz ∧ (base.core 0).rangeBusy ((tmOf base r0).winBase + 8 * 511) 8 = false) ∧
    (ActingAt (.call 0 0) 0 (stacked 2 2 4) ∧ (thOf (stacked 2 2 4) r0).stkp.toNat = 2 * 2 ^ 26 + 2 * 2 ^ 20 + 4) ∧
    (ActingAt (.call 0 0) 0 (stacked 2 1 0) ∧ (thOf (stacked 2 1 0) r0).stkp.toNat = 2 * 2 ^ 26 + 1 * 2 ^ 20 + 0) ∧
    (ActingAt (.ret 0) 0 (stacked 2 1 511) ∧ (thOf (stacked 2 1 511) r0).stkp.toNat = 2 * 2 ^ 26 + 1 * 2 ^ 20 + 511 ∧
      8 * 511 + 8 ≤ (tmOf base r0).scrsz ∧ (base.core 0).rangeBusy ((tmOf base r0).winBase + 8 * 511) 8 = false ∧
      word4 (base.core 0).scratch ((tmOf base r0).winBase + 8 * 511) = 0 ∧
      word4 (base.core 0).scratch ((tmOf base r0).winBase + 8 * 511 + 4) = BitVec.ofNat 32 0) ∧
    (ActingAt (.ret 0) 0 (stacked 2 0 4) ∧ (thOf (stacked 2 0 4) r0).stkp.toNat = 2 * 2 ^ 26 + 0 * 2 ^ 20 + 4) :=
  ⟨by decide +kernel, ⟨acting_of (by decide +kernel), by decide +kernel, by decide +kernel, by decide +kernel⟩,
    ⟨acting_of (by decide +kernel), by decide +kernel⟩, ⟨acting_of (by decide +kernel), by decide +kernel⟩,
    ⟨acting_of (by decide +kernel), by decide +kernel, by decide +kernel, by decide +kernel, by decide +kernel, by decide +kernel⟩,
    ⟨acting_of (by decide +kernel), by decide +kernel⟩⟩

/-- Rejoin mask j7 of the group. -/
def masked (e a : BitVec 32) : State := base.updGroup 0 0 fun g => { g with masks := g.masks.set 7 ⟨e, a⟩ }

/-- Not enrolled, another lane still away, the last to arrive; struck with a lane away, and as the last. -/
theorem witness_RejoinMasks : (thOf base r0).grant = none ∧ (thOf base r0).status = .ready ∧
    ActingAt (.enrol false 7 0) 0 base ∧ (gOf base r0).masks[7]? = some ⟨0, 0⟩ ∧ ActingAt (.rejoin false 7 0) 0 base ∧
    ActingAt (.strike false 7 0) 0 base ∧
    (ActingAt (.rejoin false 7 0) 0 (masked 0x80000001 0) ∧ (gOf (masked 0x80000001 0) r0).masks[7]? = some ⟨0x80000001, 0⟩) ∧
    (ActingAt (.rejoin false 7 0) 0 (masked 0x80000001 0x80000000) ∧
      (gOf (masked 0x80000001 0x80000000) r0).masks[7]? = some ⟨0x80000001, 0x80000000⟩) ∧
    (ActingAt (.strike false 7 0) 0 (masked 0x80000001 0) ∧ (gOf (masked 0x80000001 0) r0).masks[7]? = some ⟨0x80000001, 0⟩) ∧
    ActingAt (.strike false 7 0) 0 (masked 0x80000001 0x80000000) :=
  ⟨by decide +kernel, by decide +kernel, acting_of (by decide +kernel), by decide +kernel, acting_of (by decide +kernel),
    acting_of (by decide +kernel), ⟨acting_of (by decide +kernel), by decide +kernel⟩, ⟨acting_of (by decide +kernel), by decide +kernel⟩,
    ⟨acting_of (by decide +kernel), by decide +kernel⟩, acting_of (by decide +kernel)⟩

/-! ## Causes, waits and ends -/

/-- One thread of team 0 alone, in a state whose first team has one group. -/
theorem only_group {s : State} {tm : Team} {g : Group} (ht : s.team? 0 = some tm) (hg : tm.groups = [g]) {q : ThreadRef} {u : Thread}
    (hq : q.team = 0) (hu : s.thread? q = some u) : q.tid < 32 ∧ g.threads[q.tid]? = some u := by
  simp only [State.thread?, State.group?, hq, ht, hg, Option.bind_some, Option.bind_eq_some_iff] at hu
  obtain ⟨x, hx, hu⟩ := hu
  have hz : q.tid / 32 = 0 := by
    rcases Nat.eq_zero_or_pos (q.tid / 32) with h | h
    · exact h
    · rw [List.getElem?_eq_none (by simp only [List.length_cons, List.length_nil]; omega)] at hx; cases hx
  rw [hz] at hx
  have hl : q.tid < 32 := by omega
  rw [Nat.mod_eq_of_lt hl] at hu
  simp only [List.getElem?_cons_zero, Option.some.injEq] at hx
  exact ⟨hl, hx ▸ hu⟩

theorem witness_stands : base.team? r0.team = some (tmOf base r0) ∧ (tmOf base r0).groups[r0.tid / 32]? = some (gOf base r0) ∧
    (gOf base r0).threads[r0.tid % 32]? = some (thOf base r0) := stands_of (by decide +kernel)

/-- A cause for each delivery: PAGE_ABSENT is parked, a cause of the handler, DIE_LOST kills, PAGE_PROT freezes. -/
theorem witness_CausesAreDelivered :
    deliveryOf base (tmOf base r0) (thOf base r0) 1 = 0 ∧ deliveryOf base (tmOf base r0) (thOf base r0) 0x60 = 1 ∧
    deliveryOf base (tmOf base r0) (thOf base r0) 0xA9 = 2 ∧ deliveryOf base (tmOf base r0) (thOf base r0) cPAGE_PROT = 3 ∧
    (tmOf base r0).state ≠ .killing ∧ (tmOf base r0).state ≠ .ended ∧ (base.ctx? (tmOf base r0).ctx).map Ctx.state = some .running := by
  decide +kernel

/-- TRAP 0 goes to the handler; TRAP 63 parks where its mode says PARK. -/
def trapParks : State := withRegs [] (base.updCtx 0 fun k => { k with modes := k.modes.set 0xFF 0 })
theorem witness_TrapRaisesItsCause : ActingAt (.sysTrap false 0 0) 0 base ∧ deliveryOf base (tmOf base r0) (thOf base r0) 0xC0 = 1 ∧
    ActingAt (.sysTrap false 63 0) 0 trapParks ∧ deliveryOf trapParks (tmOf trapParks r0) (thOf trapParks r0) 0xFF = 0 :=
  ⟨acting_of (by decide +kernel), by decide +kernel, acting_of (by decide +kernel), by decide +kernel⟩

/-- Inside a handler that was entered at packet 5, slot 2. -/
def inHandler : State := withThread fun th => { th with ecause := entryWord 0x60 false 2, epc := 5 }
theorem witness_EretReturns : ActingAt (.sysEret false 0) 0 inHandler ∧ (thOf inHandler r0).ecause.getLsbD 11 = true ∧
    ActingAt (.sysEret false 0) 0 base ∧ (thOf base r0).ecause.getLsbD 11 = false :=
  ⟨acting_of (by decide +kernel), by decide +kernel, acting_of (by decide +kernel), by decide +kernel⟩
theorem witness_EntryThenReturnRestores :
    (runHead { Thread.fresh 8 3 with inRun := true, runStart := ⟨2, 2⟩, pc := ⟨3, 0⟩ }).slot < 3 ∧ (Thread.fresh 8 3).aside = [] := by decide

/-- Lane 31 is parked on cause 0xFF. -/
def parked31 : State := withRegs [(63, 0xFF)] (base.updThread ⟨0, 31⟩ fun th => { th with status := .parked 0xFF })
def sysTeam : State := withRegs [] (base.updLaunch 0 fun l => { l with recd := { l.recd with sys := true } })
theorem witness_DebugAndSystemWords : ActingAt (.sysBkpt false 0) 0 base ∧
    (ActingAt (.sysCclr false 63 0) 0 parked31 ∧
      ∃ u ∈ (gOf parked31 r0).threads, u.status = .parked (BitVec.ofNat 8 (((thOf parked31 r0).reg 63).toNat % 256))) ∧
    (ActingAt (.sysCclr false 63 0) 0 base ∧ ∀ u ∈ (gOf base r0).threads, u.status ≠ .parked 0 ∧ u.record = []) ∧
    (ActingAt (.sysHaltctx false 63 0) 0 base ∧ (base.launch? 0).map (fun l => l.recd.sys) = some false) ∧
    (ActingAt (.sysHaltctx false 63 0) 0 sysTeam ∧ (sysTeam.launch? 0).map (fun l => l.recd.sys) = some true ∧
      (sysTeam.ctx? 0).map Ctx.state = some .running) :=
  ⟨acting_of (by decide +kernel), ⟨acting_of (by decide +kernel), by decide +kernel⟩, ⟨acting_of (by decide +kernel), by decide +kernel⟩,
    ⟨acting_of (by decide +kernel), by decide +kernel⟩, ⟨acting_of (by decide +kernel), by decide +kernel, by decide +kernel⟩⟩

/-- A pending request on the core; a wait that has ended; counts at and past the bounds. -/
def asked : State := withRegs [(63, 7)] (base.updCore 0 fun k => { k with preqs := [⟨0, true, false, 0⟩] })
def granted : State := withRegs [(63, 0x1000000)] (withThread fun th => { th with grant := some 0 })
def copying (n : Nat) (bad : Bool) : State := withThread fun th => { th with cnt := [0, 0, 0, n], copyFault := bad }
theorem witness_WaitsByTimeAndCount :
    ActingAt (.yield false 0) 0 base ∧ (thOf base r0).grant = none ∧ ActingAt (.yield false 0) 0 granted ∧ (thOf granted r0).grant ≠ none ∧
    ActingAt (.sysSleep false 63 0) 0 base ∧ ((thOf base r0).reg 63).toNat = 0 ∧
    ActingAt (.sysSleep false 63 0) 0 asked ∧ (∃ q ∈ (asked.core (tmOf asked r0).core).preqs, q.ctx = (tmOf asked r0).ctx ∧ q.req = true) ∧
    ActingAt (.sysSleep false 63 0) 0 (withRegs [(63, 0x1000001)]) ∧
    (¬ ∃ q ∈ (base.core (tmOf base r0).core).preqs, q.ctx = (tmOf base r0).ctx ∧ q.req = true) ∧
    ActingAt (.sysSleep false 63 0) 0 granted ∧ ActingAt (.sysPyld false 0) 0 base ∧ ActingAt (.sysPyld false 0) 0 asked ∧
    (ActingAt (.cpw false 3 62) 0 (copying 63 false) ∧ (62 : Nat) < (thOf (copying 63 false) r0).cnt.getD 3 0) ∧
    (ActingAt (.cpw false 3 63) 0 (copying 63 false) ∧ (thOf (copying 63 false) r0).cnt.getD 3 0 ≤ 63) ∧
    (ActingAt (.cpw false 3 0) 0 (copying 0 true) ∧ (thOf (copying 0 true) r0).copyFault = true) :=
  ⟨acting_of (by decide +kernel), by decide +kernel, acting_of (by decide +kernel), by decide +kernel, acting_of (by decide +kernel),
    by decide +kernel, acting_of (by decide +kernel), by decide +kernel, acting_of (by decide +kernel), by decide +kernel,
    acting_of (by decide +kernel), acting_of (by decide +kernel), acting_of (by decide +kernel),
    ⟨acting_of (by decide +kernel), by decide +kernel⟩, ⟨acting_of (by decide +kernel), by decide +kernel⟩,
    ⟨acting_of (by decide +kernel), by decide +kernel⟩⟩

/-- Every thread but lane 0 has ended. -/
def lastThread : State := withRegs [] (base.updGroup 0 0 fun g => { g with threads := (g.threads.head?.toList) ++ (g.threads.drop 1).map fun th =>
  { th with status := .exited } })

/-- What EXIT's conditions ask of a state, as far as they are finite. -/
def exitable (s : State) : Prop :=
  (thOf s r0).ackAll = 0 ∧ (thOf s r0).nackPending = false ∧ s.remoteLoads r0 = false ∧ s.dirtyBlocks (tmOf s r0) = [] ∧
  (tmOf s r0).state = .resident ∧ (gOf s r0).masks.length = 8 ∧ (∀ h ∈ (tmOf s r0).groups, h.threads.length = 32) ∧
  ∀ u ∈ (gOf s r0).threads, u.status = .ready ∨ u.status = .exited
theorem witness_ExitEndsThreadAndTeam : (ActingAt (.sysExit false 0) 0 base ∧ exitable base ∧
      ∃ q u, q.team = r0.team ∧ q ≠ r0 ∧ base.thread? q = some u ∧ u.status ≠ .exited) ∧
    (ActingAt (.sysExit false 0) 0 lastThread ∧ exitable lastThread ∧
      ∀ q u, q.team = r0.team → q ≠ r0 → lastThread.thread? q = some u → u.status = .exited) := by
  refine ⟨⟨acting_of (by decide +kernel), by unfold exitable; decide +kernel, ⟨0, 31⟩, thOf base ⟨0, 31⟩, by decide, by decide,
      thread_of (by decide +kernel), by decide +kernel⟩, acting_of (by decide +kernel), by unfold exitable; decide +kernel, fun q u hq hne hu => ?_⟩
  obtain ⟨hl, hx⟩ := only_group (tm := tmOf lastThread r0) (g := gOf lastThread r0) (by decide +kernel) (by decide +kernel) hq hu
  have hz : q.tid ≠ 0 := fun h => hne (by cases q; simp_all [r0])
  have all : ∀ n < 32, n ≠ 0 → ((gOf lastThread r0).threads[n]?).all fun u => u.status == .exited := by decide +kernel
  simpa [hx] using all q.tid hl hz

theorem witness_HandlerModeWithoutHandlerKills :
    let noHandler := base.updLaunch 0 fun l => { l with recd := { l.recd with handler := 0xFFFFFFFF } }
    standsB noHandler r0 = true ∧ noHandler.modeOf (tmOf noHandler r0) 0x60 = 1 ∧ noHandler.handlerOf (tmOf noHandler r0) = 0xFFFFFFFF ∧
    standsB inHandler r0 = true ∧ inHandler.modeOf (tmOf inHandler r0) 0xFF = 1 ∧ (thOf inHandler r0).ecause.getLsbD 11 = true ∧
    (tmOf inHandler r0).state ≠ .killing ∧ (tmOf inHandler r0).state ≠ .ended := by decide +kernel

/-! ## Memory words -/

/-- A cluster of two: member 1 on core 1. -/
def pair : State :=
  withRegs [(2, 0x02200FF0)] { base with
    launches := base.launches.map fun l => { l with recd := { l.recd with shx := 2 } }
    teams := base.teams ++ base.teams.map fun t => { t with id := 1, core := 1, clx := 1 } }

theorem witness_ScratchAddressesResolve : base.coreGone (tmOf base r0).core = false ∧ 2 ^ 21 - 1 + 1 ≤ 2 ^ 21 ∧
    base.resolveScratch (tmOf base r0) (BitVec.ofNat 32 4092) 4 = .at_ 0 ((tmOf base r0).winBase + 4092) false ∧
    base.resolveScratch (tmOf base r0) (BitVec.ofNat 32 4093) 4 = .cause cSCRATCH_RANGE ∧
    base.launch? (tmOf base r0).launch = some placedLaunch ∧ (0 : Nat) < placedLaunch.recd.shx * placedLaunch.recd.shy ∧
    (0 : Nat) = (tmOf base r0).clx ∧
    (∀ x ∈ [TeamState.resident, .swapped, .ended], let s := pair.updTeam 1 fun t => { t with state := x }
      (s.launch? 0).map (fun l => l.recd.shx * l.recd.shy) = some 2 ∧ 1 ≠ (tmOf s r0).clx ∧ (s.cluster? 0 0).map Cluster.origin = some 0 ∧
      s.coreGone 1 = false ∧ s.teams.filter (fun y => y.launch = 0 && y.cix = 0 && y.clx = 1) = [{ tmOf base r0 with id := 1, core := 1, clx := 1, state := x }]) ∧
    (pair.updCore 1 fun k => { k with fenced := true }).coreGone 1 = true ∧ ∀ y ∈ base.teams, y.clx ≠ 1 := by decide +kernel

theorem witness_ScratchLoads :
    (ActingAt (.lsq false 60 2 0 0) 0 (withRegs [(2, 8)]) ∧ ¬ 16 ∣ (scratchAddress (withRegs [(2, 8)]) (thOf (withRegs [(2, 8)]) r0) 2 0 16).toNat) ∧
    (let s := withRegs [(2, 0x1FE0)]
     ActingAt (.lsq false 60 2 0 0x100) 0 s ∧ (thOf s r0).record = [] ∧ 16 ∣ (scratchAddress s (thOf s r0) 2 0x100 16).toNat ∧
      s.resolveScratch (tmOf s r0) (scratchAddress s (thOf s r0) 2 0x100 16) 16 = .at_ 0 ((tmOf s r0).winBase + 0xFE0) false ∧
      (s.core 0).rangeBusy ((tmOf s r0).winBase + 0xFE0) 16 = false) ∧
    (ActingAt (.lsq false 60 2 0 0) 0 pair ∧ (∃ o, pair.resolveScratch (tmOf pair r0) (scratchAddress pair (thOf pair r0) 2 0 16) 16 = .at_ 1 o true ∧
      (pair.core 0).remoteBusy 1 o 16 = false)) :=
  ⟨⟨acting_of (by decide +kernel), by decide +kernel⟩, ⟨acting_of (by decide +kernel), by decide +kernel⟩,
    ⟨acting_of (by decide +kernel), 0xFF0, by decide +kernel⟩⟩

theorem witness_ScratchStores :
    (ActingAt (.ssw false 63 2 0 0) 0 (withRegs [(2, 2)]) ∧ ¬ 4 ∣ (scratchAddress (withRegs [(2, 2)]) (thOf (withRegs [(2, 2)]) r0) 2 0 4).toNat) ∧
    (let s := withRegs [(2, 0)]
     ActingAt (.ssw false 63 2 0 0xFF) 0 s ∧ (thOf s r0).record = [] ∧ 4 ∣ (scratchAddress s (thOf s r0) 2 0xFF 4).toNat ∧
      s.resolveScratch (tmOf s r0) (scratchAddress s (thOf s r0) 2 0xFF 4) 4 = .at_ 0 ((tmOf s r0).winBase + 0x3FC) false ∧
      (s.core 0).rangeBusy ((tmOf s r0).winBase + 0x3FC) 4 = false) ∧
    (ActingAt (.ssq false 60 2 0 0) 0 pair ∧ (thOf pair r0).ackAll < 1024 ∧
      pair.resolveScratch (tmOf pair r0) (scratchAddress pair (thOf pair r0) 2 0 16) 16 = .at_ 1 0xFF0 true) :=
  ⟨⟨acting_of (by decide +kernel), by decide +kernel⟩, ⟨acting_of (by decide +kernel), by decide +kernel⟩,
    ⟨acting_of (by decide +kernel), by decide +kernel⟩⟩

/-- The translation of the first 64 MiB is in the core's TLB. -/
def cached (s : State) : State := s.updCore 0 fun k => { k with l1tlb := [⟨0, 2, 0, 0x6F, 0x14000⟩] }

theorem reaches_of {s : State} {tm : Team} {va : Nat} {kind : AccKind} {h : Home} (e : TlbEntry)
    (hk : (decide (va < 2 ^ 56) && !s.vaHeld tm.ctx va && (s.tlbHit tm.core tm.ctx va false == some e) && ptePermits kind e.pte &&
      (!kind.writes || pteDirty e.pte) && decide (s.leafHome tm.core tm.ctx va kind e.level e.pte = .home h)) = true) :
    Reaches s tm va kind h := by
  simp only [Bool.and_eq_true, decide_eq_true_eq, beq_iff_eq, Bool.not_eq_true', Bool.or_eq_true] at hk
  obtain ⟨⟨⟨⟨⟨h1, h2⟩, h3⟩, h4⟩, h5⟩, h6⟩ := hk
  exact ⟨h1, h2, e, h3, h4, fun hw => by simpa [hw] using h5, h6⟩

/-- The pair v2 holds an address whose last byte of the map is the access's. -/
def loading (va : Nat) : State := withRegs [(2, BitVec.ofNat 32 va)] (cached base)

theorem witness_GlobalLoads :
    (ActingAt (.ldq false 60 2 0 0) 0 (loading 8) ∧ ¬ 16 ∣ (globalAddress (loading 8) (thOf (loading 8) r0) 2 0 16).toNat) ∧
    (let s := loading 0x3FFFFFF
     ActingAt (.ldb false 63 2 0 0) 0 s ∧ (thOf s r0).record = [] ∧
      Reaches s (tmOf s r0) (globalAddress s (thOf s r0) 2 0 1).toNat .load (.dev 0x3FFFFFF) ∧ Home.isMemory (.dev 0x3FFFFFF) ∧
      (s.core 0).storeq = [] ∧ (∀ ln ∈ (s.core 0).l1, ¬ (ln.ctx = 0 ∧ ln.va = 0x3FFFFFF / 64 * 64)) ∧ s.ecc = [] ∧
      LineLost { s with ecc := [0x3FFFFFF / 64] } (.dev 0x3FFFFFF)) ∧
    (let s := loading 0x2000
     ActingAt (.ldq false 60 2 0 0x100) 0 s ∧ 16 ∣ (globalAddress s (thOf s r0) 2 0x100 16).toNat ∧
      Reaches s (tmOf s r0) (globalAddress s (thOf s r0) 2 0x100 16).toNat .load (.dev 0x1000)) ∧
    (AloneAt (.ldqn false 60 2 7 0) (loading 0x2000) ∧ Reaches (loading 0x2000) (tmOf (loading 0x2000) r0) 0x2000 .load (.dev 0x2000)) ∧
    (AloneAt (.ldwn false 63 2 1 0) base ∧ base.vaHeld 0 0 = false ∧ base.tlbHit 0 0 0 false = none) :=
  ⟨⟨acting_of (by decide +kernel), by decide +kernel⟩,
    ⟨acting_of (by decide +kernel), by decide +kernel, reaches_of ⟨0, 2, 0, 0x6F, 0x14000⟩ (by decide +kernel), trivial, by decide +kernel, by decide +kernel,
      by decide +kernel, 0x3FFFFFF, rfl, by decide⟩,
    ⟨acting_of (by decide +kernel), by decide +kernel, reaches_of ⟨0, 2, 0, 0x6F, 0x14000⟩ (by decide +kernel)⟩,
    ⟨alone_of (by decide +kernel), reaches_of ⟨0, 2, 0, 0x6F, 0x14000⟩ (by decide +kernel)⟩,
    ⟨alone_of (by decide +kernel), by decide +kernel, by decide +kernel⟩⟩

theorem witness_GlobalStores :
    (ActingAt (.sth false 63 2 0 0) 0 (loading 1) ∧ ¬ 2 ∣ (globalAddress (loading 1) (thOf (loading 1) r0) 2 0 2).toNat) ∧
    (let s := loading 0x3FFFFF0
     ActingAt (.stq false 60 2 0 0) 0 s ∧ (thOf s r0).record = [] ∧ (thOf s r0).ackAll < 1024 ∧
      Reaches s (tmOf s r0) (globalAddress s (thOf s r0) 2 0 16).toNat .store (.dev 0x3FFFFF0)) :=
  ⟨⟨acting_of (by decide +kernel), by decide +kernel⟩,
    ⟨acting_of (by decide +kernel), by decide +kernel, by decide +kernel, reaches_of ⟨0, 2, 0, 0x6F, 0x14000⟩ (by decide +kernel)⟩⟩

theorem witness_GlobalAtomics :
    (ActingAt (.amoAdd64 false 62 2 0 0 0) 0 (loading 4) ∧ ¬ 8 ∣ ((thOf (loading 4) r0).pair 2).toNat) ∧
    (let s := loading 0x3FFFFF8
     ActingAt (.amoCas64 false 60 2 0 5 0) 0 s ∧ (thOf s r0).record = [] ∧ (thOf s r0).ackAll < 1024 ∧ (s.core 0).storeq = [] ∧
      (∀ k ∈ s.dies, k.replicas = []) ∧ s.mem.wf = true ∧ s.hostMem.wf = true ∧
      Reaches s (tmOf s r0) ((thOf s r0).pair 2).toNat .store (.dev 0x3FFFFF8)) :=
  ⟨⟨acting_of (by decide +kernel), by decide +kernel⟩,
    ⟨acting_of (by decide +kernel), by decide +kernel, by decide +kernel, by decide +kernel, by decide +kernel, by decide +kernel, by decide +kernel,
      reaches_of ⟨0, 2, 0, 0x6F, 0x14000⟩ (by decide +kernel)⟩⟩

/-- The lock bit of scratch address 0 is held. -/
def lockedBy (r : ThreadRef) : State := base.updCore 0 fun k => { k with locks := [⟨0, 0, r⟩] }
def fourLocks : State := base.updCore 0 fun k => { k with locks := [⟨1, 0, r0⟩, ⟨2, 0, r0⟩, ⟨3, 0, r0⟩, ⟨4, 0, r0⟩] }

theorem witness_ScratchAtomicsAndLocks :
    base.resolveScratch (tmOf base r0) 0 8 = .at_ 0 0 false ∧ base.resolveScratch (tmOf base r0) 0 4 = .at_ 0 0 false ∧
    (base.core 0).rangeBusy 0 8 = false ∧ ActingAt (.samoCas64 false 60 2 0 1 0) 0 base ∧ base.lockHolder 0 (0, 0) = none ∧
    ActingAt (.samoAdd false 63 2 0 0 0) 0 (lockedBy r0) ∧ (lockedBy r0).lockHolder 0 (0, 0) = some r0 ∧
    ActingAt (.samoAdd false 63 2 0 0 0) 0 (lockedBy ⟨0, 31⟩) ∧ (lockedBy ⟨0, 31⟩).lockHolder 0 (0, 0) = some ⟨0, 31⟩ ∧
    ActingAt (.ldlk false 63 2 0 0 0) 0 base ∧ base.locksHeld r0 < 4 ∧ ActingAt (.ldlk false 63 2 0 0 0) 0 fourLocks ∧
    4 ≤ fourLocks.locksHeld r0 ∧ fourLocks.resolveScratch (tmOf fourLocks r0) 0 4 = .at_ 0 0 false ∧
    (ActingAt (.ldlk false 63 2 0 0 0) 0 (lockedBy ⟨0, 31⟩) ∧ (lockedBy ⟨0, 31⟩).locksHeld r0 < 4) ∧ (thOf base r0).ackAll < 1024 ∧
    ActingAt (.stul false 63 2 0 0 0) 0 (lockedBy r0) ∧ ActingAt (.stul false 63 2 0 0 0) 0 base :=
  ⟨by decide +kernel, by decide +kernel, by decide +kernel, acting_of (by decide +kernel), by decide +kernel, acting_of (by decide +kernel),
    by decide +kernel, acting_of (by decide +kernel), by decide +kernel, acting_of (by decide +kernel), by decide +kernel,
    acting_of (by decide +kernel), by decide +kernel, by decide +kernel, ⟨acting_of (by decide +kernel), by decide +kernel⟩, by decide +kernel,
    acting_of (by decide +kernel), acting_of (by decide +kernel)⟩

/-- CPY with its 63rd copy of tag 3 started; misaligned; remote. -/
def counting : State := withRegs [(4, 0x20), (5, 33)] (withThread fun th => { th with cnt := [0, 0, 0, 62] })
theorem witness_CopiesStart :
    (ActingAt (.cpy false 2 4 5 3 0) 0 (withRegs [(4, 16)]) ∧ ¬ 32 ∣ ((thOf (withRegs [(4, 16)]) r0).reg 4).toNat) ∧
    (ActingAt (.cpy false 2 4 5 3 0) 0 (withRegs [(4, 0x02000000)]) ∧ ((thOf (withRegs [(4, 0x02000000)]) r0).reg 4).getLsbD 25 = true) ∧
    (ActingAt (.cpy false 2 4 5 3 0) 0 counting ∧ 4 ∣ ((thOf counting r0).pair 2).toNat ∧ 32 ∣ ((thOf counting r0).reg 4).toNat ∧
      counting.resolveScratch (tmOf counting r0) ((thOf counting r0).reg 4) 32 = .at_ 0 0x20 false ∧ (thOf counting r0).cnt.getD 3 0 = 62 ∧
      (∀ q ∈ (counting.core 0).ranges, q.cpy = false) ∧ (counting.core 0).rangeBusy 0x20 32 = false ∧ (counting.core 0).ranges.length < 32) :=
  ⟨⟨acting_of (by decide +kernel), by decide +kernel⟩, ⟨acting_of (by decide +kernel), by decide +kernel⟩,
    ⟨acting_of (by decide +kernel), by decide +kernel⟩⟩

/-! ## Sync objects, fences, collectives -/

/-- Sync object b31 of the team and register v8. -/
def withSync (ob : SyncObj) (x : Word) : State := withRegs [(8, x)] (base.updTeam 0 fun t => { t with syncs := t.syncs.set 31 ob })
def objOf (st : SyncState) (exp xtra arr phase : Nat) : SyncObj := ⟨st, exp, xtra, arr, phase, 0, [(0, 0), (0, 0), (0, 0), (0, 0)]⟩
def isSync (s : State) (ob : SyncObj) : Prop := s.syncObj (tmOf s r0) 31 = ob
def reads8 (s : State) (x : Word) : Prop := (thOf s r0).reg 8 = x

/-- INIT's bounds in each state of the object. -/
theorem witness_SyncObjectsAreSetUp_init :
    (let s := withSync SyncObj.fresh 0; ActingAt (.syncInit false 1 31 8 0) 0 s ∧ isSync s SyncObj.fresh ∧ reads8 s 0) ∧
    (let s := withSync SyncObj.fresh 0x80000000; ActingAt (.syncInit false 1 31 8 0) 0 s ∧ reads8 s 0x80000000) ∧
    (let s := withSync SyncObj.fresh 0x7FFFFFFF; ActingAt (.syncInit false 1 31 8 0) 0 s ∧ reads8 s 0x7FFFFFFF) ∧
    (let s := withSync (objOf .error 1 0 0 0) 1; ActingAt (.syncInit false 1 31 8 0) 0 s ∧ isSync s (objOf .error 1 0 0 0)) ∧
    (let s := withSync (objOf .active 2 0 1 0) 1; ActingAt (.syncInit false 1 31 8 0) 0 s ∧ isSync s (objOf .active 2 0 1 0)) ∧
    (let s := withSync (objOf .active 2 0 0 0) 1
     ActingAt (.syncInit false 1 31 8 0) 0 s ∧ isSync s (objOf .active 2 0 0 0) ∧
      ∀ q u m w, s.thread? q = some u → u.status = .waiting (.sync m w) → m ≠ 31) :=
  ⟨⟨acting_of (by decide +kernel), by unfold isSync reads8; decide +kernel⟩, ⟨acting_of (by decide +kernel), by unfold reads8; decide +kernel⟩,
    ⟨acting_of (by decide +kernel), by unfold reads8; decide +kernel⟩, ⟨acting_of (by decide +kernel), by unfold isSync; decide +kernel⟩,
    ⟨acting_of (by decide +kernel), by unfold isSync; decide +kernel⟩,
    ⟨acting_of (by decide +kernel), by unfold isSync; decide +kernel, fun q u m w hu hw => by
      have h := thread_all (p := fun u => u.status == .ready) (by decide +kernel) hu
      rw [hw] at h; cases h⟩⟩

/-- The other functions at their bounds, on an object that is ACTIVE or in ERROR, and one word on an UNINIT object. -/
def bound (k : Word) (base_ : Word) : State :=
  withRegs [(8, base_), (10, 64), (11, k)] (withSync (objOf .active 2 0 0 0) base_)
theorem witness_SyncObjectsAreSetUp :
    ActingAt (.syncErr false 1 31 8 0) 0 (withSync SyncObj.fresh 1) ∧
    ActingAt (.syncBind false 1 31 8 0) 0 (bound 3 0x1000) ∧ isSync (bound 3 0x1000) (objOf .active 2 0 0 0) ∧
    64 ∣ ((thOf (bound 3 0x1000) r0).pair 8).toNat ∧
    ActingAt (.syncBind false 1 31 8 0) 0 (bound 4 0x1000) ∧ ActingAt (.syncBind false 1 31 8 0) 0 (bound 0 0x20) ∧
    (let s := withSync (objOf .active 2 0 0 0) 3; ActingAt (.syncUnbind false 1 31 8 0) 0 s ∧ reads8 s 3) ∧
    (let s := withSync (objOf .active 2 0 0 0) 4; ActingAt (.syncUnbind false 1 31 8 0) 0 s ∧ reads8 s 4) ∧
    (let s := withSync (objOf .active 2 0 1 0) 65535; ActingAt (.syncExpect false 1 31 8 0) 0 s ∧ reads8 s 65535) ∧
    (let s := withSync (objOf .active 2 0 1 0) 65536; ActingAt (.syncExpect false 1 31 8 0) 0 s ∧ reads8 s 65536) ∧
    (let s := withSync (objOf .active 2 0xFFFFFFFF 1 0) 1; ActingAt (.syncExpect false 1 31 8 0) 0 s ∧ reads8 s 1) ∧
    (let s := withSync (objOf .error 2 0 1 0) 1; ActingAt (.syncExpect false 1 31 8 0) 0 s ∧ isSync s (objOf .error 2 0 1 0)) ∧
    (let s := withSync (objOf .active 2 0 1 0) 255
     ActingAt (.syncErr false 1 31 8 0) 0 s ∧ reads8 s 255 ∧ 31 < (tmOf s r0).syncs.length) ∧
    (let s := withSync (objOf .active 2 0 1 0) 256; ActingAt (.syncErr false 1 31 8 0) 0 s ∧ reads8 s 256) :=
  ⟨acting_of (by decide +kernel), acting_of (by decide +kernel), by unfold isSync; decide +kernel, by decide +kernel,
    acting_of (by decide +kernel), acting_of (by decide +kernel),
    ⟨acting_of (by decide +kernel), by unfold reads8; decide +kernel⟩, ⟨acting_of (by decide +kernel), by unfold reads8; decide +kernel⟩,
    ⟨acting_of (by decide +kernel), by unfold reads8; decide +kernel⟩, ⟨acting_of (by decide +kernel), by unfold reads8; decide +kernel⟩,
    ⟨acting_of (by decide +kernel), by unfold reads8; decide +kernel⟩, ⟨acting_of (by decide +kernel), by unfold isSync; decide +kernel⟩,
    ⟨acting_of (by decide +kernel), by unfold reads8; decide +kernel⟩, ⟨acting_of (by decide +kernel), by unfold reads8; decide +kernel⟩⟩

abbrev SettledAt (s : State) : Prop := Settled s r0 (tmOf s r0) (thOf s r0)
theorem settled_of {s : State} (h : ((thOf s r0).ackAll == 0 && (thOf s r0).ackScr == 0 && (thOf s r0).ackPkg == 0 &&
    !(thOf s r0).nackPending && !s.writesQueued r0 && !s.remoteLoads r0 && (s.dirtyBlocks (tmOf s r0)).isEmpty) = true) : SettledAt s := by
  simp only [Bool.and_eq_true, beq_iff_eq, Bool.not_eq_true', List.isEmpty_iff] at h
  exact ⟨⟨h.1.1.1.1.1.1, h.1.1.1.1.1.2, h.1.1.1.1.2⟩, h.1.1.1.2, h.1.1.2, h.1.2, h.2⟩

/-- An arrival that leaves the phase, one on ERROR, the last one of the last phase, and REL. -/
theorem witness_SyncArrivals :
    (let s := withSync (objOf .active 2 0 0 5) 0; ActingAt (.syncArrive false 1 31 8 0) 0 s ∧ SettledAt s ∧ isSync s (objOf .active 2 0 0 5)) ∧
    (let s := withSync (objOf .error 2 0 0 5) 0; ActingAt (.syncArrive false 1 31 8 0) 0 s ∧ SettledAt s ∧ isSync s (objOf .error 2 0 0 5)) ∧
    (let s := withSync (objOf .active 2 1 2 0x7FFFFFFF) 0
     ActingAt (.syncArrive false 1 31 8 0) 0 s ∧ SettledAt s ∧ isSync s (objOf .active 2 1 2 0x7FFFFFFF) ∧ 31 < (tmOf s r0).syncs.length) ∧
    (let s := withSync (objOf .active 2 0 0 5) 0; ActingAt (.syncRel false 1 31 0) 0 s ∧ SettledAt s) :=
  ⟨⟨acting_of (by decide +kernel), settled_of (by decide +kernel), by unfold isSync; decide +kernel⟩,
    ⟨acting_of (by decide +kernel), settled_of (by decide +kernel), by unfold isSync; decide +kernel⟩,
    ⟨acting_of (by decide +kernel), settled_of (by decide +kernel), by unfold isSync; decide +kernel⟩,
    ⟨acting_of (by decide +kernel), settled_of (by decide +kernel)⟩⟩

theorem test_token_of_this_phase : ¬ PassedBy 5 5 ∧ ¬ InvalidFor 5 5 := by
  refine ⟨?_, ?_⟩
  · rintro ⟨-, d, h1, h2, h3⟩
    simp at h3; omega
  · rintro (h | ⟨d, h1, h2, h3⟩)
    · simp at h
    · simp at h3; omega
theorem test_token_of_oldest_passed_phase : PassedBy 0x3FFFFFFF 0 ∧ ¬ InvalidFor 0x3FFFFFFF 0 := by
  refine ⟨⟨by decide, 0x3FFFFFFF, by decide, by decide, by decide⟩, ?_⟩
  rintro (h | ⟨d, h1, h2, h3⟩)
  · simp at h
  · simp at h3; omega
theorem test_token_too_old : InvalidFor 0x40000000 0 ∧ InvalidFor 0 0x80000000 :=
  ⟨.inr ⟨0x40000000, by decide, by decide, by decide⟩, .inl (by decide)⟩

/-- Tokens: one that has passed, the current one, and an invalid one; an object in ERROR; a wait that has ended. -/
theorem witness_SyncWaits :
    (let s := withSync (objOf .active 2 0 0 0x3FFFFFFF) 0; ActingAt (.syncWait false 1 31 8 0) 0 s ∧ (thOf s r0).grant = none ∧ reads8 s 0) ∧
    (let s := withSync (objOf .active 2 0 0 5) 5; ActingAt (.syncWait false 1 31 8 0) 0 s ∧ reads8 s 5) ∧
    (let s := withSync (objOf .active 2 0 0 0) 0x80000000; ActingAt (.syncWait false 1 31 8 0) 0 s ∧ reads8 s 0x80000000) ∧
    (let s := withSync (objOf .error 2 0 0 5) 5; ActingAt (.syncWait false 1 31 8 0) 0 s ∧ isSync s (objOf .error 2 0 0 5)) ∧
    (let s := (withSync (objOf .active 2 0 0 5) 5).updThread r0 fun th => { th with grant := some 0xFF }
     ActingAt (.syncWait false 1 31 8 0) 0 s ∧ ActingAt (.syncArrw false 1 31 8 0) 0 s ∧ (thOf s r0).grant = some 0xFF) ∧
    (let s := withSync (objOf .active 2 0 0 5) 5; ActingAt (.syncTest false 1 31 8 0) 0 s ∧ ActingAt (.syncAcq false 1 31 8 0) 0 s) ∧
    (let s := withSync (objOf .active 3 0 0 5) 5; ActingAt (.syncArrw false 1 31 8 0) 0 s ∧ SettledAt s ∧ isSync s (objOf .active 3 0 0 5)) ∧
    (let s := withSync (objOf .active 1 0 0 5) 5
     ActingAt (.syncArrw false 1 31 8 0) 0 s ∧ SettledAt s ∧ isSync s (objOf .active 1 0 0 5) ∧ (thOf s r0).status = .ready ∧ (thOf s r0).kept = none) ∧
    (∀ o ∈ [objOf .active 1 0 0 5, objOf .active 1 0 0 6, objOf .error 1 0 0 5], let s := (withSync o 5).updThread r0 fun th => { th with kept := some (31, 5) }
     ActingAt (.syncArrw false 1 31 8 0) 0 s ∧ isSync s o ∧ (thOf s r0).kept = some (31, 5)) :=
  ⟨⟨acting_of (by decide +kernel), by unfold reads8; decide +kernel⟩, ⟨acting_of (by decide +kernel), by unfold reads8; decide +kernel⟩,
    ⟨acting_of (by decide +kernel), by unfold reads8; decide +kernel⟩, ⟨acting_of (by decide +kernel), by unfold isSync; decide +kernel⟩,
    ⟨acting_of (by decide +kernel), acting_of (by decide +kernel), by decide +kernel⟩,
    ⟨acting_of (by decide +kernel), acting_of (by decide +kernel)⟩,
    ⟨acting_of (by decide +kernel), settled_of (by decide +kernel), by unfold isSync; decide +kernel⟩,
    ⟨acting_of (by decide +kernel), settled_of (by decide +kernel), by unfold isSync; decide +kernel⟩,
    fun o ho => by
      simp only [List.mem_cons, List.not_mem_nil, or_false] at ho
      rcases ho with rfl | rfl | rfl <;> exact ⟨acting_of (by decide +kernel), by unfold isSync; decide +kernel⟩⟩

def unacked : State := withThread fun th => { th with ackAll := 1, ackPkg := 1 }
def refused : State := withThread fun th => { th with nackPending := true }
def pendingLoad : State := base.updCore 0 fun k => { k with loads := [⟨r0, 3, [0], none, none, none, none⟩] }
/-- A remote load of the thread is unanswered; a write of it waits in the store queue. -/
def asking : State := { pendingLoad with
  remotes := [⟨7, 0, r0, 5, 0, .load 0x2000 4 3, true, 0⟩] }.updCore 0 fun k => { k with loads := k.loads.map fun (l : InFlight) => { l with txid := some 7 } }
def writing : State := base.updCore 0 fun k => { k with storeq := [⟨r0, 0, 0x2000, .scratch 1 0, [1], false, none⟩] }
/-- A mirrored object that the team has open is dirty. -/
def dirtyMirror : State := { base.updTeam 0 fun t => { t with opens := [⟨7, false, false⟩] } with
  objs := [⟨0, 7, .resident, false, 1, 0, 0x1000, 256, some 0x2000, [0], 0, 0, [], none⟩] }

theorem unperformed_of {s : State} {scope : Nat} (h : (s.remoteLoads r0 || (match scope with
    | 0 | 1 => false
    | 2 => (thOf s r0).ackScr != 0 || s.writesQueued r0
    | 3 | 4 => (thOf s r0).ackPkg != 0 || (thOf s r0).ackScr != 0 || s.writesQueued r0
    | _ => (thOf s r0).ackAll != 0)) = true) : Unperformed s r0 (thOf s r0) scope := by
  simp only [Bool.or_eq_true] at h
  unfold Unperformed
  rcases h with h | h
  · exact .inl h
  · right
    split at h <;> simp_all [or_assoc]

theorem settles_at {s : State} {scope : Nat} (h : SettledAt s) : ¬ Unperformed s r0 (thOf s r0) scope := by
  rintro (hr | hs)
  · rw [h.remote] at hr; cases hr
  · split at hs <;> simp_all [h.acks.1, h.acks.2.1, h.acks.2.2, h.queue]

theorem witness_FencesOrder :
    (ActingAt (.fenceRel false 5 0) 0 base ∧ SettledAt base) ∧
    (ActingAt (.fenceRel false 5 0) 0 unacked ∧ Unperformed unacked r0 (thOf unacked r0) 5) ∧
    (ActingAt (.fenceRel false 3 0) 0 unacked ∧ Unperformed unacked r0 (thOf unacked r0) 3) ∧
    (ActingAt (.fenceRel false 2 0) 0 writing ∧ Unperformed writing r0 (thOf writing r0) 2) ∧
    (ActingAt (.fenceRel false 0 0) 0 asking ∧ Unperformed asking r0 (thOf asking r0) 0) ∧
    (ActingAt (.fenceRel false 0 0) 0 dirtyMirror ∧ ¬ Unperformed dirtyMirror r0 (thOf dirtyMirror r0) 0 ∧ dirtyMirror.dirtyBlocks (tmOf dirtyMirror r0) ≠ []) ∧
    (ActingAt (.fenceRel false 0 0) 0 refused ∧ ¬ Unperformed refused r0 (thOf refused r0) 0 ∧ (thOf refused r0).nackPending = true) ∧
    (ActingAt (.fenceAcq false 5 0) 0 base ∧ base.remoteLoads r0 = false) ∧ (ActingAt (.fenceAcq false 5 0) 0 asking ∧ asking.remoteLoads r0 = true) ∧
    ActingAt (.fenceFull false 5 0) 0 base ∧ (ActingAt (.fenceFull false 5 0) 0 unacked ∧ Unperformed unacked r0 (thOf unacked r0) 5) ∧
    (ActingAt (.fenceFull false 5 0) 0 pendingLoad ∧ SettledAt pendingLoad ∧ ∃ l ∈ (pendingLoad.core 0).loads, l.ref = r0 ∧ l.words ≠ []) ∧
    ActingAt (.fenceOprdy false 0) 0 pendingLoad ∧ (ActingAt (.fenceOprdy false 0) 0 base ∧ (base.core 0).loads = []) :=
  ⟨⟨acting_of (by decide +kernel), settled_of (by decide +kernel)⟩, ⟨acting_of (by decide +kernel), unperformed_of (by decide +kernel)⟩,
    ⟨acting_of (by decide +kernel), unperformed_of (by decide +kernel)⟩, ⟨acting_of (by decide +kernel), unperformed_of (by decide +kernel)⟩,
    ⟨acting_of (by decide +kernel), unperformed_of (by decide +kernel)⟩,
    ⟨acting_of (by decide +kernel), fun h => by rcases h with h | h; exact absurd h (by decide +kernel); exact h, by decide +kernel⟩,
    ⟨acting_of (by decide +kernel), fun h => by rcases h with h | h; exact absurd h (by decide +kernel); exact h, by decide +kernel⟩,
    ⟨acting_of (by decide +kernel), by decide +kernel⟩, ⟨acting_of (by decide +kernel), by decide +kernel⟩, acting_of (by decide +kernel),
    ⟨acting_of (by decide +kernel), unperformed_of (by decide +kernel)⟩,
    ⟨acting_of (by decide +kernel), settled_of (by decide +kernel), by decide +kernel⟩, acting_of (by decide +kernel),
    ⟨acting_of (by decide +kernel), by decide +kernel⟩⟩

/-- Flags NV and DZ, both enabled, and a refused write: the flags' causes go to the handler; with parking modes, all park. -/
def flagsUp : State := withThread fun th => { th with fflags := 0x18, fenable := 0x7F }
def flagsPark : State := flagsUp.updCtx 0 fun k => { k with modes := (k.modes.set 0x40 0).set 0x41 0 }
theorem witness_TfenceRaisesEnabledFlags :
    (ActingAt (.fenceTfence false 0) 0 base ∧ fenceCauses (thOf base r0) = []) ∧
    (ActingAt (.fenceTfence false 0) 0 refused ∧ fenceCauses (thOf refused r0) = [cSTORE_NACK]) ∧
    (ActingAt (.fenceTfence false 0) 0 flagsUp ∧ fenceCauses (thOf flagsUp r0) = [0x40, 0x41] ∧
      ∀ c ∈ fenceCauses (thOf flagsUp r0), deliveryOf flagsUp (tmOf flagsUp r0) (thOf flagsUp r0) c = 1) ∧
    (ActingAt (.fenceTfence false 0) 0 flagsPark ∧
      ∀ c ∈ fenceCauses (thOf flagsPark r0), deliveryOf flagsPark (tmOf flagsPark r0) (thOf flagsPark r0) c = 0) :=
  ⟨⟨acting_of (by decide +kernel), by decide +kernel⟩, ⟨acting_of (by decide +kernel), by decide +kernel⟩,
    ⟨acting_of (by decide +kernel), by decide +kernel⟩, ⟨acting_of (by decide +kernel), by decide +kernel⟩⟩

/-- Lanes 0 and 31 meet, each with their mask in v9. -/
def meeting : State :=
  let s := [(0 : Nat), 31].foldl (fun s l => s.updThread ⟨0, l⟩ fun th => { th with regs := th.regs.set 9 0x80000001 }) base
  { s with issue := { s.issue with bundle := [⟨0, 0⟩, ⟨0, 31⟩] } }
theorem witness_CollectivesCombineLanes : (Instr.shflUp, shuffled 1) ∈ collectives ∧ meeting.issue.bundle = (lanes 0x80000001).map (fun l => ⟨0, 32 * 0 + l⟩) ∧
    Issuing (.shflUp false 63 0 9) meeting ∧ Issuing (.match false 0 63 9) meeting ∧
    (∀ l ∈ lanes 0x80000001, meeting.thread? ⟨0, 32 * 0 + l⟩ = some (thOf meeting ⟨0, l⟩) ∧ (thOf meeting ⟨0, l⟩).reg 9 = 0x80000001 ∧
      (thOf meeting ⟨0, l⟩).status = .ready) ∧
    ∀ l < 32, ∀ u, meeting.thread? ⟨0, 32 * 0 + l⟩ = some u → ∀ w, u.status ≠ .waiting (.collective w meeting.issue.pc) :=
  ⟨by simp [collectives], by decide +kernel, issuing_of (by decide +kernel), issuing_of (by decide +kernel), by decide +kernel,
    fun l _ u hu w hw => by
      have h := thread_all (p := fun u => u.status == .ready) (by decide +kernel) hu
      rw [hw] at h; cases h⟩
def lane5Gone : State := withRegs [(9, 0x21)] (base.updThread ⟨0, 5⟩ fun th => { th with status := .exited })
theorem witness_CollectivesWaitOrFail :
    (AloneAt (.voteAll false 1 2 9) lane5Gone ∧ (thOf lane5Gone r0).status = .ready ∧ ((thOf lane5Gone r0).reg 9).getLsbD 0 = true ∧
      ((thOf lane5Gone r0).reg 9).getLsbD 5 = true ∧ ((gOf lane5Gone r0).threads[5]?).map Thread.status = some .exited) ∧
    (let s := withRegs [(9, 2)]; AloneAt (.voteAll false 1 2 9) s ∧ (thOf s r0).status = .ready ∧ ((thOf s r0).reg 9).getLsbD 0 = false) ∧
    (let s := withRegs [(9, 0x80000001)]
     AloneAt (.voteAll false 1 2 9) s ∧ ((thOf s r0).reg 9).getLsbD 0 = true ∧ (∀ u ∈ (gOf s r0).threads, u = thOf s r0 ∨ u.status = .ready) ∧
      ∃ l < 32, l ≠ 0 ∧ ((thOf s r0).reg 9).getLsbD l = true) :=
  ⟨⟨alone_of (by decide +kernel), by decide +kernel⟩, ⟨alone_of (by decide +kernel), by decide +kernel⟩,
    ⟨alone_of (by decide +kernel), by decide +kernel, by decide +kernel, 31, by decide, by decide, by decide +kernel⟩⟩

/-! ## The matrix engine, the walker, copies -/

/-- A team with a window of 64 KiB whose object b31 is ACTIVE. -/
def roomy : State := base.updTeam 0 fun t => { t with scrsz := 65536, syncs := t.syncs.set 31 (objOf .active 2 0 0 0) }
/-- Its whole group at a word. -/
def whole : State := { roomy with issue := { roomy.issue with bundle := (List.range 32).map fun l => ⟨0, l⟩ } }

theorem sigset_of {tm : Team} (h : tm.syncs[31]? = some (objOf .active 2 0 0 0)) : SigSet tm 31 := ⟨_, h, by decide⟩

abbrev WholeAt (i : Instr) (regs : List Nat) (s : State) : Prop := WholeGroup i regs s 0 0 (tmOf s r0) (gOf s r0)
theorem whole_of {i : Instr} {regs : List Nat} {s : State} (h : (s.issue.bundle == (List.range 32).map (fun l => (⟨0, 32 * 0 + l⟩ : ThreadRef)) &&
      s.issue.bundle.all (fun r => (s.nregOf r).any fun n => fieldCheck n i) && standsB s r0 && (gOf s r0).threads.length == 32 &&
      (gOf s r0).threads.all (·.status == .ready) && s.issue.core == (tmOf s r0).core && (s.core (tmOf s r0).core).loads.all fun ld =>
        regs.all (fun n => decide (n < ld.d ∨ ld.d + ld.words.length ≤ n)) && ld.pk.isNone) = true) : WholeAt i regs s := by
  simp only [Bool.and_eq_true, beq_iff_eq] at h
  obtain ⟨⟨⟨⟨⟨⟨h1, h2⟩, h3⟩, h4⟩, h5⟩, h6⟩, h7⟩ := h
  obtain ⟨h8, h9, -⟩ := stands_of h3
  refine ⟨h6, fun ld hl _ _ => ?_, h1, issuing_of ?_, h8, h9, h4, by simpa using h5⟩
  · have := List.all_eq_true.mp h7 ld hl
    simp only [Bool.and_eq_true, List.all_eq_true, decide_eq_true_eq, Option.isNone_iff_eq_none] at this
    exact ⟨this.1, fun k b hk => by rw [this.2] at hk; cases hk⟩
  · rw [Bool.and_eq_true, decide_eq_true_eq]
    exact ⟨by rw [h1]; decide, h2⟩

/-- 15 words are queued and 3 collectors held: room for one more of each. -/
def nearlyFull : State := whole.updCore 0 fun k => { k with
  engq := List.replicate 15 (.topkInit 0 0 1 0), collectors := List.replicate 3 ⟨9, 0, []⟩ }
/-- The group holds a collector, a load of lane 0 is to write v48, the first operand register, and v0 has been written once. -/
def collecting : State := (nearlyFull.updCore 0 fun k => { k with
  collectors := [⟨0, 0, []⟩], loads := [⟨r0, 48, [7], none, none, none, none⟩] }).updThread r0 fun th => th.setReg 0 0

theorem witness_MmaWordsAreQueued : SigSet (tmOf nearlyFull r0) 31 ∧ (nearlyFull.core 0).engq.length < 16 ∧
    WholeAt (.mmaFwd true 3 true 63 true 6 31 1) [63] nearlyFull ∧ WholeAt (.mmaFwdk false 0 false 63 false 3 31 3) [63] nearlyFull ∧
    WholeAt (.mmaBwd false 0 false 63 false 4 31 0) [63] nearlyFull ∧ WholeAt (.mmaGrad false 2 16 3 31 0) [] nearlyFull ∧
    (WholeAt (.mmaFwd true 3 true 63 true 6 31 1) [63] collecting ∧ (collecting.core 0).holdsCollector 0 0 = true ∧
      Notes collecting 0 r0 (thOf collecting r0) 48 2 [none, some 0] ∧ Notes collecting 0 r0 (thOf collecting r0) 0 1 [some 1]) ∧
    (∀ u, nearlyFull.thread? ⟨0, 32 * 0⟩ = some u → 128 ∣ (u.reg 63).toNat ∧ (u.reg 63).getLsbD 25 = false ∧
      nearlyFull.resolveScratch (tmOf nearlyFull r0) (u.reg 63) 4096 = .at_ 0 0 false) ∧
    (gOf nearlyFull r0).dqlen.toNat % 2 ^ 16 = 0 ∧ (∀ e ∈ (nearlyFull.core 0).collectors, e.team ≠ 0 ∨ e.grp ≠ 0) ∧
    (nearlyFull.core 0).collectors.length < 4 ∧ (nearlyFull.core 0).rangeBusy 0 4096 = false ∧ (nearlyFull.core 0).ranges.length < 32 := by
  refine ⟨sigset_of (by decide +kernel), by decide +kernel, whole_of (by decide +kernel), whole_of (by decide +kernel), whole_of (by decide +kernel),
    whole_of (by decide +kernel), ⟨whole_of (by decide +kernel), by decide +kernel, by unfold Notes Pends; decide +kernel, by unfold Notes Pends; decide +kernel⟩,
    fun u hu => ?_, by decide +kernel, by decide +kernel, by decide +kernel, by decide +kernel, by decide +kernel⟩
  obtain rfl : thOf nearlyFull r0 = u := Option.some.inj ((thread_of (s := nearlyFull) (r := r0) (by decide +kernel)).symm.trans hu)
  exact ⟨by decide +kernel, by decide +kernel, by decide +kernel⟩

/-- The last place of each region; a misaligned one. -/
theorem witness_BankAndTopkWordsAreQueued :
    (let s := withRegs [(63, 0xF000)] roomy
     AloneAt (.bankLd true 3 63 0xFF 31) s ∧ 256 ∣ ((thOf s r0).reg 63).toNat ∧ ((thOf s r0).reg 63).getLsbD 25 = false ∧
      s.resolveScratch (tmOf s r0) ((thOf s r0).reg 63) 4096 = .at_ 0 0xF000 false ∧ SigSet (tmOf s r0) 31 ∧ (s.core 0).engq.length < 16 ∧
      (s.core 0).rangeBusy 0xF000 4096 = false ∧ (s.core 0).ranges.length < 32) ∧
    (let s := withRegs [(63, 0xE000)] roomy
     AloneAt (.bankGdrain true 3 63 0 31) s ∧ s.resolveScratch (tmOf s r0) ((thOf s r0).reg 63) 8192 = .at_ 0 0xE000 false) ∧
    (let s := withRegs [(63, 0x80)] roomy; AloneAt (.bankLd true 3 63 0xFF 31) s ∧ ¬ 256 ∣ ((thOf s r0).reg 63).toNat) ∧
    (let s := withRegs [(63, 8)] roomy; AloneAt (.bankQuery true 0 63 0 31) s ∧ ¬ 16 ∣ ((thOf s r0).reg 63).toNat) ∧
    AloneAt (.bankEvict false 3 0 31) roomy ∧ AloneAt (.topkInit true true 3) base ∧ WholeAt (.topkRead false 3 62) [62, 63] nearlyFull ∧
    (∀ u ∈ (gOf nearlyFull r0).threads, u.grant = none) :=
  ⟨⟨alone_of (by decide +kernel), by decide +kernel, by decide +kernel, by decide +kernel, sigset_of (by decide +kernel), by decide +kernel,
      by decide +kernel, by decide +kernel⟩,
    ⟨alone_of (by decide +kernel), by decide +kernel⟩, ⟨alone_of (by decide +kernel), by decide +kernel⟩,
    ⟨alone_of (by decide +kernel), by decide +kernel⟩, alone_of (by decide +kernel), alone_of (by decide +kernel), whole_of (by decide +kernel),
    by decide +kernel⟩

/-- An MMA of INT8 that waits at the head of the queue, or runs, its operands all captured as zero. -/
def anMma : MmaOp := ⟨0, 0, 0, 2, 48, 0, false, false, 0, 31, 1, false, List.replicate 32 0x0000FFFF, List.replicate 32 0x00003F80,
  List.replicate 32 (List.replicate 16 (some 0))⟩
def queued (op : EngOp) : State := roomy.updCore 0 fun k => { k with engq := [op] }
def running (e : EngRun) (s : State := roomy) : State := s.updCore 0 fun k => { k with engRun := [e] }

theorem witness_EngineWordsStart :
    (let s := queued (.mma anMma); (s.core 0).engq = .mma anMma :: [] ∧ (s.core 0).banks.length = 4 ∧ (s.core 0).mayStart (.mma anMma) = true) ∧
    (let s := running ⟨.mma anMma, [], []⟩ (queued (.mma anMma)); (s.core 0).engq = [.mma anMma] ∧ (s.core 0).mayStart (.mma anMma) = false) ∧
    (∀ fn < 6, let op := EngOp.bank 0 0 fn 3 0 0 31
      let s := queued op
      (s.core 0).engq = [op] ∧ (s.core 0).mayStart op = true ∧ ((s.core 0).banks[3]?).map Bank.gacc = some false) ∧
    (let s := (queued (.mma anMma)).updCore 0 fun k => { k with banks := k.banks.modify 2 fun b => { b with state := .loading, id := 7 } }
     Hits (s.core 0).banks 7 (some 2) ∧ Hits (s.core 0).banks 0xFF none ∧ Hits (s.core 0).banks 9 none) ∧
    (let s := (queued (.topkRead 0 0 3 62)).updCore 0 fun k => { k with sedge := k.sedge.set 3 ⟨1, some 0, List.replicate 32 [(5, 300)]⟩ }
     (s.core 0).sedge[3]? = some ⟨1, some 0, List.replicate 32 [(5, 300)]⟩ ∧ (62 : Nat) + 1 < (thOf s r0).regs.length) ∧
    (let s := queued (.topkInit 0 0 2 3); (s.core 0).mayStart (.topkInit 0 0 2 3) = true ∧ 3 < (s.core 0).sedge.length) ∧
    (let s := (queued (.topkRead 0 0 3 62)).updThread ⟨0, 31⟩ fun th => { th with status := .waiting .engine }
     (s.core 0).mayStart (.topkRead 0 0 3 62) = true ∧ (s.thread? ⟨0, 32 * 0 + 31⟩).map Thread.status = some (.waiting .engine)) := by
  refine ⟨by decide +kernel, by decide +kernel, by decide +kernel, ⟨⟨by decide, ⟨_, rfl, by decide, by decide⟩, ?_⟩, .inl rfl, .inr ?_⟩, by decide +kernel,
    by decide +kernel, by decide +kernel⟩
  · rintro k hk ⟨b, hb, hid, -⟩
    have all : ∀ k < 2, ((((queued (.mma anMma)).updCore 0 fun k => { k with banks := k.banks.modify 2 fun b => { b with state := .loading, id := 7 } }).core 0).banks[k]?).all fun b => b.id != 7 := by
      decide +kernel
    have := all k hk
    rw [hb] at this; simp [hid] at this
  · rintro k ⟨b, hb, hid, -⟩
    have all : ((((queued (.mma anMma)).updCore 0 fun k => { k with banks := k.banks.modify 2 fun b => { b with state := .loading, id := 7 } }).core 0).banks).all fun b => b.id != 9 := by
      decide +kernel
    have := List.all_eq_true.mp all b (List.mem_of_getElem? hb)
    simp [hid] at this

def bankRun (fn n : Nat) : EngRun := ⟨.bank 0 0 fn 3 0 9 31, [], List.replicate n 0⟩
theorem witness_BankFunctionsComplete :
    (∀ fn ∈ [0, 1, 5], let s := running (bankRun fn 16)
      (s.core 0).engRun = [bankRun fn 16] ∧ ((s.core 0).banks[3]?).isSome ∧ s.team? 0 = some (tmOf s r0) ∧ (tmOf s r0).state = .resident ∧
        (tmOf s r0).syncs[31]? = some (objOf .active 2 0 0 0) ∧ (s.core 0).scratch.wf = true) ∧
    (∀ n, ((running (bankRun 4 n)).core 0).engRun = [bankRun 4 n] ∧ ((running (bankRun 4 n)).core 0).scratch.wf = true ∧
      (bankRun 4 n).data.length = n) :=
  ⟨by decide +kernel, fun n => ⟨rfl, rfl, by simp [bankRun]⟩⟩

theorem witness_IntegerMmaWritesItsProducts :
    let s := running ⟨.mma anMma, List.replicate 32 (some 3, none), []⟩
    (s.core 0).engRun = [⟨.mma anMma, List.replicate 32 (some 3, none), []⟩] ∧ anMma.miss = 1 ∧ s.team? 0 = some (tmOf s r0) ∧
    (tmOf s r0).state = .resident ∧ SigSet (tmOf s r0) 31 ∧ anMma.abase + 16 ≤ 64 ∧ (s.core 0).scratch.wf = true ∧
    (∀ b ∈ (s.core 0).banks, b.quant = false) ∧ (∀ h ∈ List.replicate 32 ((some 3, none) : Option Nat × Option Nat), ∀ b, h.1 = some b →
      b < (s.core 0).banks.length) ∧
    (∀ l < 32, ∃ u regs, s.thread? ⟨0, 32 * 0 + l⟩ = some u ∧ anMma.seen[l]? = some regs ∧ regs.length = 16 ∧
      ∀ j < 16, regs[j]? = some (some 0) ∧ u.reg (48 + j) = 0) := by
  refine ⟨by decide +kernel, by decide, by decide +kernel, by decide +kernel, sigset_of (by decide +kernel), by decide, by decide +kernel,
    by decide +kernel, ?_, ?_⟩
  · intro h hh b hb
    obtain rfl := List.eq_of_mem_replicate hh
    cases hb; decide +kernel
  · intro l hl
    refine ⟨Thread.fresh 64 0, List.replicate 16 (some 0), ?_, ?_, by decide, by decide⟩
    · have : ∀ l < 32, (running ⟨.mma anMma, List.replicate 32 (some 3, none), []⟩).thread? ⟨0, 32 * 0 + l⟩ = some (Thread.fresh 64 0) := by
        decide +kernel
      exact this l hl
    · have : ∀ l < 32, anMma.seen[l]? = some (List.replicate 16 (some 0)) := by decide
      exact this l hl

theorem witness_TileWordsQueueJobs :
    (let s := withRegs [(2, 32)] roomy; ActingAt (.twkLoad false 2 60 31 0) 0 s ∧ ¬ 64 ∣ ((thOf s r0).reg 2).toNat) ∧
    (let s := withRegs [(2, 0x02000000)] roomy
     ActingAt (.twkStore false 2 60 31 0) 0 s ∧ 64 ∣ ((thOf s r0).reg 2).toNat ∧ ((thOf s r0).reg 2).getLsbD 25 = true) ∧
    (let s := withRegs [(2, 0xFFC0)] roomy
     ActingAt (.twkGather false 2 60 31 0) 0 s ∧ s.resolveScratch (tmOf s r0) ((thOf s r0).reg 2) 64 = .at_ 0 0xFFC0 false ∧
      SigSet (tmOf s r0) 31 ∧ (s.core 0).rangeBusy 0xFFC0 64 = false ∧ (s.core 0).twq.length < 16) ∧
    (ActingAt (.twkScatteradd false 2 60 0 0) 0 roomy ∧ (tmOf roomy r0).syncs[0]? = some SyncObj.fresh) :=
  ⟨⟨acting_of (by decide +kernel), by decide +kernel⟩, ⟨acting_of (by decide +kernel), by decide +kernel⟩,
    ⟨acting_of (by decide +kernel), by decide +kernel, sigset_of (by decide +kernel), by decide +kernel, by decide +kernel⟩,
    ⟨acting_of (by decide +kernel), by decide +kernel⟩⟩

/-- A record of one tile of one row of one byte, outside its tensor of one element. -/
def tileRecord : List Byte :=
  leBytes 0 8 ++ leBytes 0 4 ++ leBytes 16 4 ++ leBytes 1 4 ++ List.replicate 24 0 ++ leBytes 1 2 ++ leBytes 1 2 ++ leBytes 0 4 ++ leBytes 0 4 ++
    leBytes 0x7F 4 ++ leBytes 1 2 ++ leBytes 0 2
def job (fn tile : Nat) (run : Bool) (ranged : Option Nat) : TwkJob := ⟨0, 0, fn, tileRecord, [1, 0, 0, 0], 31, tile,
  if ranged.isSome then some (0, 0) else none, 0, run, none, false, false, ranged, none, []⟩
def walking (js : List TwkJob) : State := roomy.updCore 0 fun k => { k with twq := js }
def copying1 : State := cached (base.updCore 0 fun k => { k with copies := [⟨r0, 3, 0x3FFFFE0, 64, 32, none, false, none, [], false⟩] })

theorem witness_TileJobsAndCopiesComplete :
    (let s := walking [job 0 0 true (some 0), job 0 0 true (some 0), job 0 0 true (some 0), job 1 0 false none]
     (s.core 0).twq[3]? = some (job 1 0 false none) ∧ (s.jobPlace (tmOf s r0) (job 1 0 false none)).isSome = true ∧ (s.core 0).twq.countP TwkJob.running = 3) ∧
    (let s := walking [job 0 0 true (some 0), job 0 0 true (some 0), job 0 0 true (some 0), job 0 0 true (some 0), job 1 0 false none]
     (s.core 0).twq[4]? = some (job 1 0 false none) ∧ (s.core 0).twq.countP TwkJob.running = 4) ∧
    ((walking [job 1 1 true none]).team? 0 = some (tmOf roomy r0) ∧ (Shape.of (job 1 1 true none).recd).nt ≤ 1 ∧ SigSet (tmOf roomy r0) 31) ∧
    (let h := Shape.of (job 0 0 true (some 0)).recd
     (job 0 0 true (some 0)).at_ = some (0, 0) ∧ 0 + 1 = h.nt ∧ ((h.dims.getD 0 1 : Int) ≤ ((job 0 0 true (some 0)).coords.getD 0 0).toInt) ∧ 1 ≤ h.tile0 ∧ h.tile0 * h.esz ≤ h.rowb ∧
      ((walking [job 0 0 true (some 0)]).core 0).scratch.wf = true) ∧
    ((copying1.core 0).copies[0]? = some ⟨r0, 3, 0x3FFFFE0, 64, 32, none, false, none, [], false⟩ ∧ 0x3FFFFE0 % 65536 + 32 ≤ 65536 ∧
      Reaches copying1 (tmOf copying1 r0) 0x3FFFFE0 .copy (.dev 0x3FFFFE0) ∧ copying1.ecc = [] ∧ (copying1.core 0).storeq = [] ∧ (copying1.core 0).scratch.wf = true) :=
  ⟨by decide +kernel, by decide +kernel, ⟨by decide +kernel, by decide +kernel, sigset_of (by decide +kernel)⟩, by decide +kernel,
    ⟨by decide +kernel, by decide, reaches_of ⟨0, 2, 0, 0x6F, 0x14000⟩ (by decide +kernel), by decide +kernel, by decide +kernel, by decide +kernel⟩⟩

/-! ## Named objects, tasks, markers, REP -/

def obj7 : Obj := ⟨0, 7, .resident, false, 1, 0, 0x1000, 256, none, [], 0, 0, [], none⟩
/-- The object and what the team has open; v8, v9 the name, v10 the argument. -/
def withObj (obs : List Obj) (opens : List OpenRef) (x : Word) : State :=
  withRegs [(8, 7), (10, x)] { base.updTeam 0 fun t => { t with opens := opens } with objs := obs }
def opened : List OpenRef := [⟨7, false, false⟩]
abbrev HoldsAt (s : State) (ob : Obj) : Prop := Holds s (tmOf s r0) 7 ob
theorem holds_of {s : State} {ob : Obj} (h : (s.obj? (tmOf s r0).ctx 7 == some ob && ob.state == .resident && !ob.doomed &&
    ob.holder == (tmOf s r0).core && !s.rebuilding (tmOf s r0).ctx 7) = true) : HoldsAt s ob := by
  simp only [Bool.and_eq_true, beq_iff_eq, Bool.not_eq_true'] at h
  exact ⟨h.1.1.1.1, ⟨h.1.1.1.2, h.1.1.2, h.1.2⟩, h.2⟩

theorem witness_NamedObjectWords_create :
    (let s := withObj [] [] 0x100; ActingAt (.nobjCreate false 8 0) 0 s ∧ s.rebuilding 0 7 = false ∧ (thOf s r0).pair 8 = 7 ∧
      256 ∣ ((thOf s r0).reg 10).toNat ∧ s.obj? 0 7 = none ∧ s.objs.length < 4096 ∧ ∃ b, s.objSpace 0 0x100 = some b) ∧
    (let s := withObj [] [] 0x100000; ActingAt (.nobjCreate false 8 0) 0 s ∧ ((thOf s r0).reg 10).toNat = 1048576 ∧ (s.objSpace 0 0x100000).isSome) ∧
    (let s := withObj [] [] 0x100100; ActingAt (.nobjCreate false 8 0) 0 s ∧ 1048576 < ((thOf s r0).reg 10).toNat) ∧
    (let s := withObj [] [] 0x80; ActingAt (.nobjCreate false 8 0) 0 s ∧ ¬ 256 ∣ ((thOf s r0).reg 10).toNat) ∧
    (ActingAt (.nobjCreate false 4 0) 0 base ∧ (thOf base r0).pair 4 = 0) ∧
    (let s := withObj [obj7] [] 0x100; ActingAt (.nobjCreate false 8 0) 0 s ∧ s.obj? 0 7 = some obj7) ∧
    (let s := withObj [{ obj7 with name := 8, size := 0x1FF000 }] [] 0x100
     ActingAt (.nobjCreate false 8 0) 0 s ∧ s.obj? 0 7 = none ∧ s.objSpace 0 0x100 = none) :=
  ⟨⟨acting_of (by decide +kernel), by decide +kernel, by decide +kernel, by decide +kernel, by decide +kernel, by decide +kernel,
      _, Option.eq_some_of_isSome (by decide +kernel)⟩,
    ⟨acting_of (by decide +kernel), by decide +kernel⟩, ⟨acting_of (by decide +kernel), by decide +kernel⟩,
    ⟨acting_of (by decide +kernel), by decide +kernel⟩, ⟨acting_of (by decide +kernel), by decide +kernel⟩,
    ⟨acting_of (by decide +kernel), by decide +kernel⟩, ⟨acting_of (by decide +kernel), by decide +kernel⟩⟩

theorem witness_NamedObjectWords :
    (ActingAt (.nobjOpen false 8 0) 0 (withObj [] [] 0) ∧ (withObj [] [] 0).obj? 0 7 = none) ∧
    (let s := withObj [{ obj7 with state := .lost }] [] 0; ActingAt (.nobjOpen false 8 0) 0 s ∧ s.obj? 0 7 = some { obj7 with state := .lost }) ∧
    (let s := withObj [obj7] opened 0; ActingAt (.nobjOpen false 8 0) 0 s ∧ HoldsAt s obj7 ∧ ∃ o ∈ (tmOf s r0).opens, o.name = 7 ∧ o.lost = false) ∧
    (let s := withObj [{ obj7 with k := 62 }] [] 0
     ActingAt (.nobjOpen false 8 0) 0 s ∧ HoldsAt s { obj7 with k := 62 } ∧ ¬ ∃ o ∈ (tmOf s r0).opens, o.name = 7 ∧ o.lost = false) ∧
    (let s := withObj [obj7] [] 0; ActingAt (.nobjClose false 8 0) 0 s ∧ SettledAt s ∧ ∀ o ∈ (tmOf s r0).opens, o.lost = false) ∧
    (let s := withObj [obj7] opened 0; ActingAt (.nobjClose false 8 0) 0 s ∧ SettledAt s ∧ HoldsAt s obj7 ∧ ∀ o ∈ (tmOf s r0).opens, o.lost = false) ∧
    (ActingAt (.nobjHand false 8 0) 0 (withObj [] [] 1) ∧ SettledAt (withObj [] [] 1)) ∧
    (let s := withObj [obj7] opened 0x3F2F
     ActingAt (.nobjHand false 8 0) 0 s ∧ SettledAt s ∧ HoldsAt s obj7 ∧ s.coreUsable ((thOf s r0).reg 10).toNat = true ∧
      ((thOf s r0).reg 10).toNat ≠ obj7.holder ∧ (s.objSpace 0x3F2F obj7.size).isSome) ∧
    ActingAt (.nobjDrop false 8 0) 0 (withObj [] [] 1) ∧
    (let s := withObj [{ obj7 with k := 0 }] [] 0; ActingAt (.nobjDrop false 8 0) 0 s ∧ HoldsAt s { obj7 with k := 0 }) ∧
    (let s := withObj [obj7] opened 0; ActingAt (.nobjDrop false 8 0) 0 s ∧ HoldsAt s obj7) ∧
    ActingAt (.nobjQuery false 8 0) 0 (withObj [] [] 0) ∧ ActingAt (.nobjQuery false 8 0) 0 (withObj [obj7] [] 0) ∧
    (ActingAt (.nobjMirror false 8 0) 0 (withObj [obj7] [] 0) ∧ SettledAt (withObj [obj7] [] 0)) ∧
    (let s := withObj [obj7] opened 0x80; ActingAt (.nobjMirror false 8 0) 0 s ∧ SettledAt s ∧ HoldsAt s obj7 ∧ ¬ 256 ∣ ((thOf s r0).pair 10).toNat) ∧
    (let s := withObj [obj7] opened 0; ActingAt (.nobjMirror false 8 0) 0 s ∧ SettledAt s ∧ HoldsAt s obj7 ∧ (thOf s r0).pair 10 = 0) :=
  ⟨⟨acting_of (by decide +kernel), by decide +kernel⟩, ⟨acting_of (by decide +kernel), by decide +kernel⟩,
    ⟨acting_of (by decide +kernel), holds_of (by decide +kernel), by decide +kernel⟩,
    ⟨acting_of (by decide +kernel), holds_of (by decide +kernel), by decide +kernel⟩,
    ⟨acting_of (by decide +kernel), settled_of (by decide +kernel), by decide +kernel⟩,
    ⟨acting_of (by decide +kernel), settled_of (by decide +kernel), holds_of (by decide +kernel), by decide +kernel⟩,
    ⟨acting_of (by decide +kernel), settled_of (by decide +kernel)⟩,
    ⟨acting_of (by decide +kernel), settled_of (by decide +kernel), holds_of (by decide +kernel), by decide +kernel⟩,
    acting_of (by decide +kernel), ⟨acting_of (by decide +kernel), holds_of (by decide +kernel)⟩,
    ⟨acting_of (by decide +kernel), holds_of (by decide +kernel)⟩, acting_of (by decide +kernel), acting_of (by decide +kernel),
    ⟨acting_of (by decide +kernel), settled_of (by decide +kernel)⟩,
    ⟨acting_of (by decide +kernel), settled_of (by decide +kernel), holds_of (by decide +kernel), by decide +kernel⟩,
    ⟨acting_of (by decide +kernel), settled_of (by decide +kernel), holds_of (by decide +kernel), by decide +kernel⟩⟩

/-- A task queue of a level with these records; v8 the scratch address. -/
def tasked (l : Nat) (recs : List (Nat × List Byte)) (x : Word) : State := withRegs [(8, x)] { base with taskqs := [⟨0, l, 0, recs⟩] }
def regionAt (s : State) (x : Nat) : Prop :=
  64 ∣ ((thOf s r0).reg 8).toNat ∧ ((thOf s r0).reg 8).getLsbD 25 = false ∧
  s.resolveScratch (tmOf s r0) ((thOf s r0).reg 8) 64 = .at_ 0 x false ∧ (s.core 0).rangeBusy x 64 = false
def marking (d : Nat) : State :=
  let s := withRegs [(8, BitVec.ofNat 32 d), (9, BitVec.ofNat 32 (d / 2 ^ 32))]
  { s with clusters := s.clusters.map fun c => { c with syncs := c.syncs.set 15 (objOf .active 2 0 0 0) } }
/-- A counter at 0x2000. -/
def counter (n : Nat) : State := withRegs [(8, 0x2000)] (cached { base with mem := base.mem.writeBytes 0x2000 (leBytes n 4) })
theorem witness_TaskAndMarkerWords :
    (let s := tasked 1 (List.replicate 15 (0, List.replicate 64 0)) 0xFC0
     ActingAt (.taskPush false 1 8 0) 0 s ∧ SettledAt s ∧ regionAt s 0xFC0 ∧ (s.taskRecs 0 1 0).length < taskCap 1) ∧
    (let s := tasked 3 (List.replicate 1024 (0, [])) 0
     ActingAt (.taskPush false 3 8 0) 0 s ∧ SettledAt s ∧ regionAt s 0 ∧ (s.taskRecs 0 3 0).length = taskCap 3) ∧
    (ActingAt (.taskPush false 2 8 0) 0 (withRegs [(8, 0x20)]) ∧ ¬ 64 ∣ ((thOf (withRegs [(8, 0x20)]) r0).reg 8).toNat) ∧
    (ActingAt (.taskEos false 3 0) 0 base ∧ SettledAt base ∧ (base.taskRecs 0 3 0).length < taskCap 3) ∧
    (let s := tasked 2 [(0, List.replicate 64 0), (0, eosRecord)] 0
     ActingAt (.taskPop false 2 8 0) 0 s ∧ regionAt s 0 ∧ (s.core 0).scratch.wf = true ∧
      s.taskRecs 0 2 0 = (0, List.replicate 64 0) :: [(0, eosRecord)]) ∧
    (let s := tasked 2 [(0, eosRecord)] 0
     ActingAt (.taskTrypop false 2 8 0) 0 s ∧ regionAt s 0 ∧ s.taskRecs 0 2 0 = (0, eosRecord) :: [] ∧ taskEos eosRecord = true) ∧
    (ActingAt (.taskPop false 1 8 0) 0 base ∧ ActingAt (.taskTrypop false 1 8 0) 0 base ∧ regionAt base 0 ∧ ∀ k, base.taskRecs 0 k 0 = []) ∧
    (ActingAt (.taskDone false 1 8 0) 0 base ∧ SettledAt base ∧ ((thOf base r0).pair 8).toNat = 0) ∧
    (ActingAt (.taskDone false 1 8 0) 0 (withRegs [(8, 0x20)]) ∧ SettledAt (withRegs [(8, 0x20)])) ∧
    (let s := counter 2
     ActingAt (.taskDone false 1 8 0) 0 s ∧ SettledAt s ∧ Reaches s (tmOf s r0) ((thOf s r0).pair 8).toNat .store (.dev 0x2000) ∧
      1 < (word4 s.mem 0x2000).toNat ∧ s.mem.wf = true ∧ (∀ d ∈ s.dies, d.replicas = []) ∧ s.ecc = [] ∧ (s.core 0).storeq = []) ∧
    (let s := counter 1
     ActingAt (.taskDone false 1 8 0) 0 s ∧ SettledAt s ∧ Reaches s (tmOf s r0) ((thOf s r0).pair 8).toNat .store (.dev 0x2000) ∧
      Reaches s (tmOf s r0) (((thOf s r0).pair 8).toNat + 64) .load (.dev 0x2040) ∧ (word4 s.mem 0x2000).toNat = 1 ∧
      (s.taskRecs 0 3 0).length < taskCap 3) ∧
    (let s := counter 0; ActingAt (.taskDone false 1 8 0) 0 s ∧ SettledAt s ∧ (word4 s.mem 0x2000).toNat = 0) ∧
    (let s := marking (31 * 2 ^ 12); ActingAt (.sendEmark false 8 0) 0 s ∧ ((thOf s r0).pair 8).toNat / 2 ^ 12 % 64 = 31) ∧
    (let s := marking (47 * 2 ^ 12)
     ActingAt (.sendEmark false 8 0) 0 s ∧ ((thOf s r0).pair 8).toNat % 2 ^ 12 = s.recDevice.toNat ∧
      (thOf s r0).ackPkg = 0 ∧ (thOf s r0).nackPending = false ∧ s.remoteLoads r0 = false ∧
      ((thOf s r0).pair 8).toNat / 2 ^ 12 % 64 = 47 ∧ ((s.cluster? 0 0).bind fun c => c.syncs[47 - 32]?) = some (objOf .active 2 0 0 0) ∧
      (s.cluster? 0 0).map Cluster.ended = some false) :=
  ⟨⟨acting_of (by decide +kernel), settled_of (by decide +kernel), by unfold regionAt; decide +kernel, by decide +kernel⟩,
    ⟨acting_of (by decide +kernel), settled_of (by decide +kernel), by unfold regionAt; decide +kernel, by decide +kernel⟩,
    ⟨acting_of (by decide +kernel), by decide +kernel⟩, ⟨acting_of (by decide +kernel), settled_of (by decide +kernel), by decide +kernel⟩,
    ⟨acting_of (by decide +kernel), by unfold regionAt; decide +kernel, by decide +kernel, by decide +kernel⟩,
    ⟨acting_of (by decide +kernel), by unfold regionAt; decide +kernel, by decide +kernel, by decide +kernel⟩,
    ⟨acting_of (by decide +kernel), acting_of (by decide +kernel), by unfold regionAt; decide +kernel, fun k => rfl⟩,
    ⟨acting_of (by decide +kernel), settled_of (by decide +kernel), by decide +kernel⟩,
    ⟨acting_of (by decide +kernel), settled_of (by decide +kernel)⟩,
    ⟨acting_of (by decide +kernel), settled_of (by decide +kernel), reaches_of ⟨0, 2, 0, 0x6F, 0x14000⟩ (by decide +kernel), by decide +kernel,
      by decide +kernel, by decide +kernel, by decide +kernel, by decide +kernel⟩,
    ⟨acting_of (by decide +kernel), settled_of (by decide +kernel), reaches_of ⟨0, 2, 0, 0x6F, 0x14000⟩ (by decide +kernel),
      reaches_of ⟨0, 2, 0, 0x6F, 0x14000⟩ (by decide +kernel), by decide +kernel, by decide +kernel⟩,
    ⟨acting_of (by decide +kernel), settled_of (by decide +kernel), by decide +kernel⟩,
    ⟨acting_of (by decide +kernel), by decide +kernel⟩, ⟨acting_of (by decide +kernel), by decide +kernel⟩⟩

/-- A word that both lanes of the bundle are to repeat. -/
def repeating (slot : Nat) (w : Option Word) (s : State := base) : State := { s with issue := { s.issue with pc := ⟨0, slot⟩, next := w } }
def addiWord : Option Word := (encode (.addi false 0 0 1)).head?
def iaddWord : Option Word := (encode (.iadd false false 0 1 2 1)).head?

/-- ADDI v0, v0, #1 by both lanes, 63 times with its registers stepped by one; IADD, a lane predicated off, with all three stepped. -/
theorem witness_RepRepeatsItsTarget :
    (∀ b : Bool, let s := repeating 1 (if b then addiWord else iaddWord) twoLanes
      s.issue.bad = false ∧ s.issue.pc.slot < 2 ∧ s.issue.bump = 0 ∧ s.issue.bundle.Nodup ∧ s.issue.next ≠ none ∧
      (∀ r ∈ s.issue.bundle, (s.thread? r).isSome ∧ s.nregOf r = some 64 ∧ (thOf s r).repc = 0 ∧ (thOf s r).record = [] ∧ (thOf s r).nackPending = false ∧
        (thOf s r).acq = false) ∧ (s.core s.issue.core).loads = []) ∧
    (0 + (63 - 1) * 2 ^ 0 < 64 ∧ ¬ 0 + (64 - 1) * 2 ^ 1 < 64) ∧
    (∃ a f, twoSource (.iadd false false 0 1 2 1) = some (a, f)) ∧ Issuing (.iadd false false 0 1 2 1) (repeating 1 iaddWord twoLanes) ∧
    iaddWord.map (fun w => w.getLsbD 31) = some false :=
  ⟨by decide +kernel, by decide +kernel, ⟨_, _, rfl⟩, issuing_of (by decide +kernel), by decide +kernel⟩

/-- REP in slot 2, before nothing, and before each kind of word that it refuses; and with a register past the thread's last. -/
theorem witness_RepChecksItsTarget :
    (AloneAt (.rep 1 false false false 0) (repeating 2 addiWord) ∧ (repeating 2 addiWord).issue.pc.slot = 2) ∧
    (AloneAt (.rep 1 false false false 0) (repeating 1 none) ∧ (repeating 1 none).issue.next = none) ∧
    (∀ n ∈ [0x80000000, 0, 0x33000000, 0x60000000], let w := BitVec.ofNat 32 n
      (w.getLsbD 31 = true ∨ (w.extractLsb' 24 7).toNat ∈ [0x00, 0x48, 0x49, 0x1C, 0x1D, 0x26, 0x33, 0x7E] ∨ 0x60 ≤ (w.extractLsb' 24 7).toNat)) ∧
    AloneAt (.rep 2 false true true 0) (repeating 1 (some 0x01010200)) ∧
    ((0x01010200 : Word).extractLsb' 24 7 = 1 ∧ 0x40 ≤ ((0x01010200 : Word).extractLsb' 3 7).toNat ∧ ((0x01010200 : Word).extractLsb' 3 7).toNat < 0x7F) ∧
    (AloneAt (.rep 0 true false false 0) (repeating 1 (encode (.addi false 1 0 1)).head?) ∧ (gOf base r0).nreg ≤ 1 + (64 - 1) * 2 ^ 0) :=
  ⟨⟨alone_of (by decide +kernel), by decide +kernel⟩, ⟨alone_of (by decide +kernel), by decide +kernel⟩, by decide +kernel, alone_of (by decide +kernel), by decide +kernel,
    ⟨alone_of (by decide +kernel), by decide +kernel⟩⟩

/-! ## The memory side -/

def aWrite (h : Home) : QStore := ⟨r0, 0, 0x2000, h, [1, 2, 3, 4], false, none⟩
def awaiting (h : Home) : State := base.updCore 0 fun k => { k with storeq := [aWrite h] }
theorem witness_LoadsLandAndWritesAreAcknowledged :
    (let l : InFlight := ⟨r0, 62, [5, 6], some (7, true), some .pkg, none, some 0x2000⟩
     let s := base.updCore 0 fun k => { k with loads := [l] }
     (s.core 0).loads[0]? = some l ∧ s.thread? l.ref = some (thOf s r0)) ∧
    (let l : InFlight := ⟨r0, 62, [5, 6], none, none, some 9, none⟩
     let s := base.updCore 0 fun k => { k with loads := [l] }
     (s.core 0).loads[0]? = some l) ∧
    (let l : InFlight := ⟨r0, 62, [5, 6], none, none, none, none⟩
     let s := (withThread fun th => { th with status := .waiting .pending }).updCore 0 fun k => { k with loads := [l] }
     (s.core 0).loads[0]? = some l ∧ (thOf s r0).status = .waiting .pending) ∧
    (((awaiting (.dev 0x2000)).core 0).storeq[0]? = some (aWrite (.dev 0x2000)) ∧ NoReplicas (awaiting (.dev 0x2000)) ∧
      (awaiting (.dev 0x2000)).migrations = [] ∧ ∀ o ∈ ((awaiting (.dev 0x2000)).core 0).storeq.take 0, o.overlaps (.dev 0x2000) 4 = false) ∧
    ((awaiting (.host 0x2000)).core 0).storeq[0]? = some (aWrite (.host 0x2000)) ∧
    (((awaiting (.scratch 1 64)).core 0).storeq[0]? = some (aWrite (.scratch 1 64)) ∧ (awaiting (.scratch 1 64)).coreGone 1 = false ∧
      (awaiting (.scratch 1 64)).objs = []) := by
  unfold NoReplicas; decide +kernel

/-- A thread in each of the waits; and one in another state. -/
def waitingOn (w : WaitKind) : State := withThread fun th => { th with status := .waiting w, pc := ⟨5, 0⟩ }
/-- The core has counted past AGEMAX since the thread was ready. -/
def aged : State := base.updCore 0 fun k => { k with cyc := 2 ^ 20 }
theorem witness_WaitsEndAndEncodingsRaise :
    (∀ w ∈ [WaitKind.lock, .timer false 99, .timer true 99, .operand], let s := waitingOn w
      s.team? 0 = some (tmOf s r0) ∧ (s.thread? r0).map Thread.status = some (.waiting w)) ∧ base.issue.bundle = [r0] ∧ standsB base r0 = true ∧
    (∀ q ∈ [(aged, true), (base, false)], (pathsOf (q.1.stands 0)).any (fun p => p.head?.any fun x => (q.1.ctx? x.ctx).any fun k =>
      k.agemax < pathAge (q.1.core 0).cyc p) = q.2) := by
  decide +kernel

def parkedToo (w : WaitKind) : State := (waitingOn w).updThread ⟨0, 31⟩ fun th => { th with status := .parked 1 }
/-- The place's count stands at 7, lane 0 being there. -/
def counted (s : State) (full : Bool) (named : Word) : State := s.updTeam 0 fun t => { t with
  groups := t.groups.map fun g => { g with limits := [⟨⟨5, 0⟩, full, 1, named, 7, false⟩] } }
/-- Lane 0 alone has arrived, with no limit counted yet or with one. -/
def arrived (s : State) (w : WaitKind) (l : Nat) : Bool := ((gOf s r0).threads[l]?).all fun u =>
  if l = 0 then u.status = .waiting w else u.status = .ready ∨ u.status = .parked 1
theorem witness_ConvergenceLimitPasses :
    (∀ q ∈ [(WaitKind.collective 0x80000001 ⟨5, 0⟩, false), (.fullGroup ⟨5, 0⟩, true)],
      ∀ s ∈ [waitingOn q.1, counted (waitingOn q.1) q.2 0x80000001, parkedToo q.1],
        s.team? 0 = some (tmOf s r0) ∧ (tmOf s r0).state = .resident ∧ (tmOf s r0).groups[0]? = some (gOf s r0) ∧
        (gOf s r0).threads.length = 32 ∧ (gOf s r0).stopped = false ∧ ∀ l < 32, arrived s q.1 l = true) ∧
    (∀ q ∈ [(WaitKind.collective 0x80000001 ⟨5, 0⟩, false), (.fullGroup ⟨5, 0⟩, true)],
      (gOf (waitingOn q.1) r0).limits = [] ∧ (gOf (counted (waitingOn q.1) q.2 0x80000001) r0).limits = [⟨⟨5, 0⟩, q.2, 1, 0x80000001, 7, false⟩] ∧
      (∀ u ∈ (gOf (waitingOn q.1) r0).threads, u.stopped = false ∧ u.status ≠ .parked 1) ∧
      ((gOf (parkedToo q.1) r0).threads[31]?).map Thread.status = some (.parked 1)) ∧
    (0x80000001 : Word).getLsbD 31 = true ∧
    (arrived (waitingOn (.collective 1 ⟨5, 0⟩)) (.collective 1 ⟨5, 0⟩) 0 = true ∧ ∀ l < 32, (1 : Word).getLsbD l = true → l = 0) := by
  decide +kernel
/-! ## Host queues -/

def q0 : HostQueue := { HostQueue.blank 0 15 with qbase := 0x100000, en := true, limit := some 1 }
def withQueue (qu : HostQueue) (bytes : List Byte := []) : State :=
  { base with queues := [qu], mem := (base.mem.writeBytes 0x100000 bytes) }
def ctxOf0 (s : State) : Ctx := (s.ctx? 0).getD (Ctx.blank 0)

theorem witness_QueueControl :
    (let s := withQueue q0; s.booted = true ∧ s.queue 0 15 = q0 ∧ ((16 : Word) - q0.qrd).toNat ≤ 2 ^ q0.log2n ∧
      ¬ ((17 : Word) - q0.qrd).toNat ≤ 2 ^ q0.log2n) ∧
    ((0x60 : Word).getLsbD 5 = true ∧ (0x60 : Word).getLsbD 6 = true) ∧
    (let qu := { q0 with en := false }
     (withQueue qu).queue 0 15 = qu ∧ (0x40010 : Word).getLsbD 4 = true ∧ (0x40010 : Word).toNat / 2 ^ 16 % 32 = 4 ∧
      (0x40010 : Word).toNat / 2 ^ 8 % 256 = 0 ∧ (0x30010 : Word).toNat / 2 ^ 16 % 32 = 3) ∧
    MayEnable (withQueue { q0 with en := false }) { q0 with en := false, log2n := 4 } ∧
    ¬ MayEnable (withQueue { q0 with en := false }) { q0 with en := false, log2n := 3 } ∧
    (let qu := { q0 with halted := true, haltAt := (0, 0x100000) }
     (withQueue qu).queue 0 15 = qu ∧ qu.limit ≠ some qu.qrd ∧ qu.pkts = [] ∧ qu.qdone = qu.qrd ∧ qu.accs = [] ∧ (withQueue qu).fwHeld = [] ∧ Mapped (withQueue qu) qu.haltAt.1 (qu.haltAt.2 + 4) true 0x100004 ∧ NoReplicas (withQueue qu)) ∧
    (let qu := { q0 with halted := true, haltAt := (0, 0x100000), limit := some 0 }
     (withQueue qu).queue 0 15 = qu ∧ qu.limit = some qu.qrd ∧ Mapped (withQueue qu) qu.haltAt.1 (qu.haltAt.2 + 4) true 0x100004 ∧ NoReplicas (withQueue qu)) := by
  refine ⟨by decide +kernel, by decide, by decide +kernel, ⟨by decide, by decide, by decide +kernel, by decide +kernel,
    ctxOf0 (withQueue { q0 with en := false }), by decide +kernel, .inl rfl, .inl (.inr (.inl (by decide +kernel)))⟩, fun h => by
      have := h.1; contradiction, by unfold Mapped NoReplicas; decide +kernel, by unfold Mapped NoReplicas; decide +kernel⟩

theorem serves_of {s : State} {qu : HostQueue} (h : (s.booted && (s.queue 0 15 == qu) && (s.ctx? qu.ctxid == some (ctxOf0 s)) &&
    (ctxOf0 s).state == .running && !(ctxOf0 s).capture && (ctxOf0 s).replay == none && !qu.frozen && !qu.halted && qu.accs.isEmpty &&
    (s.dies.all fun d => d.replicas.isEmpty) && s.fwHeld.isEmpty) = true) : Serves s 0 15 qu (ctxOf0 s) := by
  simp only [Bool.and_eq_true, beq_iff_eq, Bool.not_eq_true', List.isEmpty_iff, List.all_eq_true] at h
  obtain ⟨⟨⟨⟨⟨⟨⟨⟨⟨⟨h1, h2⟩, h3⟩, h4⟩, h5⟩, h6⟩, h7⟩, h8⟩, h9⟩, h10⟩, h11⟩ := h
  exact ⟨⟨h1, by decide, by decide⟩, h2, h3, .inr (.inl h4), ⟨h5, h6⟩, ⟨h7, h8, h9⟩, h10, h11⟩

theorem fetchable_of {bytes : List Byte} (h : Serves (withQueue q0 bytes) 0 15 q0 (ctxOf0 (withQueue q0 bytes)))
    (hm : Mapped (withQueue q0 bytes) 0 0x100000 false 0x100000) : Fetchable (withQueue q0 bytes) 0 15 q0 (ctxOf0 (withQueue q0 bytes)) 0x100000 :=
  ⟨h, ⟨rfl, rfl⟩, ⟨1, rfl, by decide⟩, ⟨rfl, rfl⟩, hm⟩

/-- A record of one role and one group, 32 threads, one team, 4 KiB of scratch, at 0x100100. -/
def recordBytes1 : List Byte := leBytes 0 12 ++ [64, 1, 0, 0] ++ List.replicate 16 0 ++ leBytes 32 2 ++ leBytes 1 2 ++ leBytes 1 4 ++ leBytes 0x11 4 ++
  leBytes 0 4 ++ leBytes 1 4 ++ leBytes 1 4 ++ leBytes 1 4 ++ leBytes 4096 4 ++ List.replicate 192 0
def launchPacket : List Byte := leBytes 1 8 ++ leBytes 0x100100 8 ++ List.replicate 240 0 ++ recordBytes1
def signalPacket : List Byte := leBytes 2 8 ++ leBytes 0x2000 8 ++ leBytes 5 8 ++ leBytes 13 4
def waitPacket : List Byte := leBytes 3 8 ++ leBytes 0x2000 8 ++ leBytes 0 8 ++ leBytes 3 4
def reservedPacket : List Byte := leBytes 5 8

theorem witness_PacketsAreFetched :
    (Fetchable (withQueue q0) 0 15 q0 (ctxOf0 (withQueue q0)) 0x100000 ∧ Mapped (withQueue q0) 0 0x100004 true 0x100004 ∧
      fieldAt ((withQueue q0).mem.readBytes 0x100000 64) 0 4 = 0 ∧ zeroAt ((withQueue q0).mem.readBytes 0x100000 64) 8 56 = true) ∧
    (let s := withQueue q0 launchPacket
     Fetchable s 0 15 q0 (ctxOf0 s) 0x100000 ∧ Mapped s 0 0x100100 false 0x100100 ∧ fieldAt (s.mem.readBytes 0x100000 64) 0 4 = 1 ∧
      fieldAt (s.mem.readBytes 0x100000 64) 8 8 = 0x100100 ∧ recordOk (s.mem.readBytes 0x100100 256) true = true ∧
      (LaunchRec.of (s.mem.readBytes 0x100100 256)).cor = false ∧
      ((LaunchRec.of (s.mem.readBytes 0x100100 256)).image + 65536) * 1 * 1 ≤ (ctxOf0 s).savesz) ∧
    (let s := withQueue q0 signalPacket
     Fetchable s 0 15 q0 (ctxOf0 s) 0x100000 ∧ fieldAt (s.mem.readBytes 0x100000 64) 0 4 = 2 ∧
      fieldAt (s.mem.readBytes 0x100000 64) 24 4 = 13 ∧ fieldAt (s.mem.readBytes 0x100000 64) 8 8 = 0x2000 ∧ zeroAt (s.mem.readBytes 0x100000 64) 28 36 = true) ∧
    (let s := withQueue q0 waitPacket
     Fetchable s 0 15 q0 (ctxOf0 s) 0x100000 ∧ fieldAt (s.mem.readBytes 0x100000 64) 24 4 = 3 ∧ fieldAt (s.mem.readBytes 0x100000 64) 8 8 = 0x2000 ∧ zeroAt (s.mem.readBytes 0x100000 64) 32 32 = true) ∧
    (let s := withQueue q0 (leBytes 4 8 ++ leBytes 1 4)
     Fetchable s 0 15 q0 (ctxOf0 s) 0x100000 ∧ fieldAt (s.mem.readBytes 0x100000 64) 8 4 = 1 ∧ zeroAt (s.mem.readBytes 0x100000 64) 12 52 = true) ∧
    (let s := withQueue q0 reservedPacket
     Fetchable s 0 15 q0 (ctxOf0 s) 0x100000 ∧ Mapped s 0 0x100004 true 0x100004 ∧ 5 ≤ fieldAt (s.mem.readBytes 0x100000 64) 0 1) :=
  ⟨⟨fetchable_of (serves_of (by decide +kernel)) (by unfold Mapped; decide +kernel), by unfold Mapped; decide +kernel, by decide +kernel⟩,
    ⟨fetchable_of (serves_of (by decide +kernel)) (by unfold Mapped; decide +kernel), by unfold Mapped; decide +kernel, by decide +kernel⟩,
    ⟨fetchable_of (serves_of (by decide +kernel)) (by unfold Mapped; decide +kernel), by decide +kernel⟩,
    ⟨fetchable_of (serves_of (by decide +kernel)) (by unfold Mapped; decide +kernel), by decide +kernel⟩,
    ⟨fetchable_of (serves_of (by decide +kernel)) (by unfold Mapped; decide +kernel), by decide +kernel⟩,
    ⟨fetchable_of (serves_of (by decide +kernel)) (by unfold Mapped; decide +kernel), by unfold Mapped; decide +kernel, by decide +kernel⟩⟩

def packetOf (ty : Nat) (body : List Byte) (held : Bool) : Packet := ⟨0, 0, 0x100000, ty, body ++ List.replicate (64 - body.length) 0, held, false, 0⟩
def holding (p : Packet) : State := withQueue { q0 with qrd := 1, pkts := [p] }
theorem pending_of {p : Packet} (h : (let s := holding p
      s.booted && s.queue 0 15 == { q0 with qrd := 1, pkts := [p] } && s.ctx? p.ctx == some (ctxOf0 s) && (ctxOf0 s).state == .running &&
        s.dies.all (fun d => d.replicas.isEmpty) && s.fwHeld.isEmpty && p.index == 0 && !p.complete) = true) :
    Pending (holding p) 0 15 { q0 with qrd := 1, pkts := [p] } (ctxOf0 (holding p)) p := by
  simp only [Bool.and_eq_true, beq_iff_eq, Bool.not_eq_true', List.isEmpty_iff, List.all_eq_true] at h
  obtain ⟨⟨⟨⟨⟨⟨⟨h1, h2⟩, h3⟩, h4⟩, h5⟩, h8⟩, h6⟩, h7⟩ := h
  exact ⟨⟨h1, by decide, by decide⟩, h2, h3, .inr (.inl h4), ⟨rfl, h5, h8⟩, rfl, h6, h7⟩

/-- A held NOP, a CHECKPOINT, a WAITVAL whose condition (< 0) fails and one whose condition (= 0) holds, with a timeout, and a SIGNAL that
adds. -/
theorem witness_PacketsComplete :
    (let p := packetOf 0 [] true
     Pending (holding p) 0 15 { q0 with qrd := 1, pkts := [p] } (ctxOf0 (holding p)) p ∧ Mapped (holding p) 0 0x100004 true 0x100004) ∧
    (let p := packetOf 4 (leBytes 4 8) true
     Pending (holding p) 0 15 { q0 with qrd := 1, pkts := [p] } (ctxOf0 (holding p)) p ∧ (ctxOf0 (holding p)).ckpt = false) ∧
    (let p := packetOf 3 waitPacket false
     Pending (holding p) 0 15 { q0 with qrd := 1, pkts := [p] } (ctxOf0 (holding p)) p ∧ Mapped (holding p) 0 0x2000 false 0x2000 ∧
      fieldAt p.body 24 4 = 3 ∧ leNat ((holding p).mem.readBytes 0x2000 8) = 0 ∧ fieldAt p.body 16 8 = 0 ∧ fieldAt p.body 28 4 = 0) ∧
    (let p := packetOf 3 (leBytes 3 8 ++ leBytes 0x2000 8 ++ leBytes 0 8 ++ leBytes 0 4 ++ leBytes 1 4) false
     Pending (holding p) 0 15 { q0 with qrd := 1, pkts := [p] } (ctxOf0 (holding p)) p ∧ fieldAt p.body 24 4 = 0 ∧ fieldAt p.body 28 4 = 1) ∧
    (let p := packetOf 2 signalPacket true
     Pending (holding p) 0 15 { q0 with qrd := 1, pkts := [p] } (ctxOf0 (holding p)) p ∧ Mapped (holding p) 0 0x2000 true 0x2000 ∧
      fieldAt p.body 24 4 / 8 % 2 = 1 ∧
      Mapped { holding p with mem := (holding p).mem.writeBytes 0x2000 (leBytes 5 8) } 0 0x100004 true 0x100004) :=
  ⟨⟨pending_of (by decide +kernel), by unfold Mapped; decide +kernel⟩,
    ⟨pending_of (by decide +kernel), by decide +kernel⟩,
    ⟨pending_of (by decide +kernel), by unfold Mapped; decide +kernel, by decide +kernel⟩,
    ⟨pending_of (by decide +kernel), by decide +kernel⟩,
    ⟨pending_of (by decide +kernel), by unfold Mapped; decide +kernel, by decide +kernel, by unfold Mapped; decide +kernel⟩⟩

theorem witness_QueueRegistersAndFunctions : (withQueue q0).booted = true ∧ (withQueue q0).queue 0 15 = q0 ∧
    (withQueue { q0 with en := false }).queue 0 15 = { q0 with en := false } ∧ (∀ l ∈ (withQueue q0).launches, l.fn ≠ 255) ∧
    (∀ k ∈ (withQueue q0).queues, k.fn = 255 → k.halted = false ∧ k.pkts = []) ∧ (withQueue q0).updating = false ∧
    ({ withQueue q0 with update := .handed 1 0 } : State).update = .handed 1 0 := by decide +kernel

/-! ## Launches, objects, the loss of units -/

def l1 : Launch := { placedLaunch with id := 1, next := 0, grid := [17, 1, 1] }
def launching (l : Launch) : State := { base with launches := l :: base.launches }
theorem placeable_of {l : Launch} (h : l.state = .running) (hc : l.ctx = 0) : Placeable (launching l) l :=
  ⟨h, ctxOf0 base, by rw [hc]; rfl, rfl⟩

def l2 : Launch := { l1 with todo := [(63, 4), (63, 3)], next := 5 }
def l3 : Launch := { l1 with recd := { placedRecord with cor := true }, plan := [8], grid := [1, 1, 1] }
def drawing : Launch := { l1 with recd := { placedRecord with waitmax := 2 }, draw := some 7, todo := [(0, 0)] }
/-- The object's core has no room: the team and the object take the whole of its scratch. -/
def crowded : State := { launching drawing with objs := [{ obj7 with size := 0x1FF000 }] }
theorem witness_ClustersAreDispatched :
    ((launching l1).launch? 1 = some l1 ∧ l1.ncl = 17 ∧ (launching l1).launchHeld l1 = false ∧ l1.det = false ∧ l1.draw = none ∧ (launching l1).dieEligible l1 63 = true ∧ (launching l1).rectFor l1 63 none false ≠ none) ∧
    (Placeable (launching l2) l2 ∧ ((launching l2).die 63).placedThisStep < ((launching l2).die 63).stepSize (1 * 1) ∧ (63, 3) ∈ l2.todo ∧
      (∀ c ∈ l2.todo, 3 ≤ c.2) ∧ (∃ o, (launching l2).rectFor l2 63 none false = some o) ∧
      (launching l2).imageRoom l2 (rectCores 1 1 (63 * 256)) = true) ∧
    (Placeable (launching l3) l3 ∧ (∀ c ∈ (launching l3).clusters, c.launch ≠ 1) ∧ (∀ c ∈ rectCores 1 1 8, (launching l3).room l3 c false ≠ none) ∧
      (launching l3).imageRoom l3 (rectCores 1 1 8) = true) ∧
    (Placeable crowded drawing ∧ (dieOf 0, 0) ∈ drawing.todo ∧ drawing.plan = [] ∧ crowded.launch? 1 = some drawing ∧ crowded.drawHolder drawing 7 = some 0 ∧
      crowded.rectFor drawing (dieOf 0) (some 0) false = none ∧ crowded.rectFor drawing (dieOf 0) (some 0) true = none ∧
      drawing.rounds + 1 < drawing.recd.waitmax) :=
  ⟨by decide +kernel, ⟨placeable_of rfl rfl, by decide +kernel, by decide, by decide, ⟨_, Option.eq_some_of_isSome (by decide +kernel)⟩, by decide +kernel⟩,
    ⟨placeable_of rfl rfl, by decide +kernel, by decide +kernel, by decide +kernel⟩, ⟨rfl, ctxOf0 base, rfl, rfl⟩, by decide +kernel⟩

/-- The launch is over: without a SIGVAL, and with one team killed. -/
def ending (killed : Nat) (sigaddr : DWord) : State :=
  { holding { packetOf 1 (leBytes 1 8) false with index := 0 } with
    launches := [{ placedLaunch with q := 15, killed := killed, recd := { placedRecord with sigaddr := sigaddr } }]
    clusters := base.clusters.map fun c => { c with ended := true }
    teams := base.teams.map fun t => { t with state := .ended } }
theorem witness_LaunchesAndKilledTeamsEnd :
    (∀ q ∈ [(0, (0 : DWord)), (0, 0x2000), (1, 0x2000)], let s := ending q.1 q.2
      (s.launch? 0).any (fun l => l.state == .running && s.launchOver l && !l.dieLost && s.launchDrained l && l.killed == q.1 && !s.launchHeld l && l.ctx == 0 && l.pkt == 0) = true ∧
      s.killRecs = [] ∧ s.fwHeld = [] ∧ (∀ x ∈ s.teams, x.launch = 0 → x.state = .ended) ∧
      ((s.queue 0 15).pkts.map (fun p => (p.index, p.ctx, p.complete)), (s.queue 0 15).qdone, (s.queue 0 15).accs) = ([(0, 0, false)], 0, []) ∧ NoReplicas s) ∧
    Mapped (ending 0 0x2000) 0 0x2000 true 0x2000 ∧ Mapped (ending 1 0x2000) 0 0x100004 true 0x100004 ∧
    (let s := base.updTeam 0 fun t => { t with state := .killing }
     s.team? 0 = some (tmOf s r0) ∧ (tmOf s r0).state = .killing ∧ s.teamBusy 0 = false ∧ (s.launch? 0).map Launch.state = some .running) ∧
    ((tmOf base r0).state ≠ .killing) := by
  refine ⟨by unfold NoReplicas; decide +kernel, by unfold Mapped; decide +kernel, by unfold Mapped; decide +kernel, by decide +kernel, by decide +kernel⟩

def moving : Obj := { obj7 with state := .moving, target := 1, targetBase := 0x2000, k := 0 }
def withObjs (obs : List Obj) : State := { base with objs := obs }
/-- A LOAD into the object, issued before the team handed it on. -/
def handedJob : TwkJob := { job 0 0 false none with recd := tileRecord.take 48 ++ leBytes (2 ^ 26 + 0x1000) 4 ++ tileRecord.drop 52 }
theorem witness_ObjectCopiesComplete :
    (let s := withObjs [moving]; s.obj? 0 7 = some moving ∧ (∀ k ∈ s.cores, k.scratch.wf = true) ∧ moving.holder ≠ moving.target ∧
      (s.core 0).rangeBusy 0x1000 256 = false ∧
      (∀ c ∈ s.cores, c.remoteBusy 0 0x1000 256 = false) ∧ moving.doomed = false ∧ moving.forLaunch = none) ∧
    (let s := (withObjs [moving]).updCore 1 fun k => { k with storeq := [⟨r0, 0, 0x2000, .scratch 0 0x1000, [1], false, none⟩] }
     s.obj? 0 7 = some moving ∧ ∃ c ∈ s.cores, c.remoteBusy 0 0x1000 256 = true) ∧
    ((withObjs [moving]).updCore 0 fun k => { k with ranges := [⟨0x10E0, 32, 1, true⟩] }).obj? 0 7 = some moving ∧
    (((withObjs [moving]).updCore 0 fun k => { k with ranges := [⟨0x10E0, 32, 1, true⟩] }).core 0).rangeBusy 0x1000 256 = true ∧
    (let s := { walking [handedJob] with objs := [moving], teams := base.teams.map fun t => { t with opens := [⟨7, false, true⟩] } }
     s.obj? 0 7 = some moving ∧ (tmOf s r0).ctx = 0 ∧ tmOf s r0 ∈ s.teams ∧ handedJob ∈ (s.core 0).twq ∧ moving.jobWrites (tmOf s r0) handedJob = true) ∧
    (let ob := { obj7 with state := .restoring, k := 0, backing := [(255, 9)] }
     (withObjs [ob]).obj? 0 7 = some ob ∧ ob.mirror = none ∧ ob.backing.wf = true ∧ ∀ c ∈ ob.backing, c.1 < ob.size) ∧
    (let ob := { obj7 with state := .restoring, k := 0, mirror := some 0x2000 }
     (withObjs [ob]).obj? 0 7 = some ob ∧ ob.size = 256 * 1 ∧ (withObjs [ob]).tableWalk 0 (0x2000 + 256 * 0) false = (withObjs [ob], .home (.dev 0x2000))) := by
  decide +kernel

/-- A launch with clusters handed to die 63, its table with the copy of the master. -/
def handed (master : Nat) (copyDie : Option Nat) : State :=
  { launching { l2 with master := master, copyDie := copyDie, copy := ([(63, 0, 5)], []) } with ctxs := [] }
theorem witness_UnitsAreLost : base.objs = [] ∧ (∀ l ∈ base.launches, l.plan = []) ∧
    ((base.core (63 * 256 + 47)).fenced = false ∧ ∀ x ∈ base.teams, x.core ≠ 63 * 256 + 47) ∧
    ((base.core 0).fenced = false ∧ base.teams.filter (fun x => x.core = 0) = [tmOf base r0] ∧ (tmOf base r0).state = .resident ∧
      (base.launch? 0).map (fun l => l.recd.reissue) = some false) ∧
    ((base.updCore 47 fun k => { k with fenced := true }).core 47).fenced = true ∧
    (∀ m ∈ [0, 63], ∀ b : Bool, let s := handed m (if b then some 0 else none)
     (s.die 63).fenced = false ∧ s.ctxs = [] ∧ s.pageReqs = [] ∧ s.objs = [] ∧ (∀ l ∈ s.launches, l.plan = []) ∧ (s.launches.map Launch.id).Nodup ∧
      (s.launch? 1).map (fun l => (l.master, l.todo)) = some (m, [(63, 4), (63, 3)]) ∧ ∀ c ∈ s.clusters, c.ended = false → dieOf c.origin ≠ 63) ∧
    ((base.updDie 63 fun d => { d with fenced := true }).die 63).fenced = true := by decide +kernel
/-! ## Contexts -/

/-- A descriptor: its id, its FLAGS, tables at 0x10000, and a save area of 64 KiB. -/
def descriptor (id flags : Nat) : List Byte :=
  leBytes id 4 ++ leBytes flags 4 ++ leBytes 0x10000 8 ++ leBytes 0 8 ++ leBytes 0x10000 8 ++ leBytes 0x10000 8 ++ List.replicate 472 0
/-- Every cause under its default mode but PAGE_ABSENT, which is taken by a handler. -/
def withModes : List Byte :=
  (descriptor 0 0).take 64 ++ (List.range 64).map (fun i => BitVec.ofNat 8 ((List.range 4).foldl (fun a j => a + 4 ^ j * defaultMode (4 * i + j)) 0)) ++
    (descriptor 0 0).drop 128
def inState (x : CtxState) (f : Ctx → Ctx := id) (s : State := base) : State := s.updCtx 0 fun k => f { k with state := x }

theorem witness_ContextsAreBoundAndConfigured :
    (base.booted = true ∧ descOk (descriptor 255 15) = true ∧ base.ctx? (fieldAt (descriptor 255 15) 0 4) = none) ∧
    (State.reset.booted = false ∧ descOk (descriptor 256 0) = false ∧ base.ctx? (fieldAt (descriptor 0 0) 0 4) ≠ none) ∧
    (let s := inState .running (fun k => { k with desc := descriptor 0 0 })
     let k := ctxOf0 s
     let b := k.desc.take 56 ++ leBytes 1024 4 ++ k.desc.drop 60
     s.ctx? 0 = some k ∧ 56 + (leBytes 1024 4).length ≤ 60 ∧ fieldAt b 0 4 = 0 ∧ descOk b = true ∧
      descOk (k.desc.take 56 ++ leBytes 1023 4 ++ k.desc.drop 60) = false) ∧
    (let s := inState .saved (fun k => { k with desc := descriptor 0 0 })
     let b := (ctxOf0 s).desc.take 24 ++ leBytes 0x20000 8 ++ (ctxOf0 s).desc.drop 32
     (ctxOf0 s).state = .saved ∧ fieldAt b 0 4 = 0 ∧ descOk b = true ∧ zeroAt b 64 64 = true ∧
      (let b := withModes.take 24 ++ leBytes 0x20000 8 ++ withModes.drop 32; descOk b = true ∧ zeroAt b 64 64 = false)) ∧
    (let s := inState .running (fun k => { k with desc := withModes })
     let b := withModes.take 64 ++ [0x71] ++ withModes.drop 65
     64 ≤ 65 ∧ fieldAt b 0 4 = 0 ∧ descOk b = true ∧ zeroAt b 64 64 = false ∧ s.ctx? 0 = some (ctxOf0 s)) := by decide +kernel

theorem witness_ContextLife : base.ctx? 0 = some (ctxOf0 base) ∧ (∀ q ∈ base.queues, q.fn = 255 → q.en = true → q.ctxid ≠ 0) ∧
    (∃ q ∈ (withQueue q0).queues, q.fn = 0 ∧ q.en = true ∧ q.ctxid = 0) ∧
    (ctxOf0 (inState .saved)).state = .saved ∧ (ctxOf0 base).state ≠ .saved ∧
    (let k := ctxOf0 (inState .frozen fun k => { k with before := .running }); k.state = .frozen ∧ k.before = .running ∧ k.preemptPending = false) ∧
    (let s := { base with launches := [], teams := [] }
     (ctxOf0 s).state ≠ .scrubbing ∧ (ctxOf0 s).state ≠ .teardown ∧ s.updating = false ∧ s.launches = [] ∧ s.queues = [] ∧ s.teams = [] ∧ s.objs = [] ∧
      ∃ c ∈ s.cores, c.owner = some 0) ∧
    (base.leaves (ctxOf0 base) ≠ [] ∧ ∀ q ∈ base.leaves (ctxOf0 base), pteKind q.2.2.1 = 0) ∧
    (let s := { base with launches := [], teams := [], cores := [] }; s.ctx? 0 = some (ctxOf0 s) ∧ ∀ c ∈ s.cores, c.owner ≠ some 0 ∧ c.departing ≠ some 0) ∧
    ({ base with update := .handed 1 0 } : State).updating = true := by decide +kernel

/-- Context 1 beside context 0. -/
def twoContexts : State := { base with ctxs := base.ctxs ++ [{ ctxOf0 base with id := 1 }], teams := [] }
theorem witness_CoresPassBetweenContexts :
    (∀ x ∈ [CtxState.running, .frozen], let s := inState x (fun k => { k with before := .running }) twoContexts
      (s.ctx? 1).isSome ∧ (s.ctx? 0).map Ctx.state = some x ∧ (s.ctx? 0).map Ctx.before = some .running ∧ s.objs = [] ∧
      (s.core 0).owner = some 0 ∧ (s.core 0).scrubbing = false ∧ (s.core 0).engq = [] ∧ (s.core 0).engRun = [] ∧
      (∀ b ∈ (s.core 0).banks, b.state ≠ .loading ∧ b.state ≠ .draining) ∧ ∀ x ∈ s.teams, x.core ≠ 0) ∧
    (let s := twoContexts.updCore 0 fun k => { k with owner := some 1, scrubbing := true, departing := some 0 }
     (s.core 0).owner = some 1 ∧ (s.core 0).scrubbing = true ∧ (s.core 0).departing = some 0 ∧ (s.ctx? 1).map Ctx.state = some .running ∧
      (s.ctx? 0).map Ctx.state = some .running) ∧
    (let s := inState .scrubbing id (twoContexts.updCore 0 fun k => { k with owner := some 1, scrubbing := true, departing := some 0 })
     (s.core 0).departing = some 0 ∧ (s.core 0).scrubbing = true ∧ (s.ctx? 0).map Ctx.state = some .scrubbing ∧ s.teams = [] ∧
      ∀ c ∈ s.cores, c.id ≠ 0 → c.owner ≠ some 0 ∧ c.departing ≠ some 0) ∧
    (twoContexts.core 0).scrubbing = false := by decide +kernel

def preempting : State := inState .preempting id asked
/-- No thread of the team is in the middle of an issue group. -/
def betweenB (tm : Team) : Bool := tm.groups.all fun g => g.threads.all fun th => th.before == none
theorem between_of {tm : Team} (h : betweenB tm = true) : Between tm := by
  simpa [betweenB, Between] using h

theorem witness_PreemptionIsRequested :
    ((ctxOf0 base).state = .running ∧ ∃ x ∈ base.teams, x.ctx = 0 ∧ x.state = .resident) ∧
    (let s := { base with teams := [] }; (ctxOf0 s).state = .running ∧ (ctxOf0 s).freezeAfter = none ∧ ∀ x ∈ s.teams, x.ctx ≠ 0) ∧
    (ctxOf0 (inState .checkpointing)).state = .checkpointing ∧
    ((ctxOf0 preempting).state = .preempting ∧ (ctxOf0 preempting).ckptPending = false ∧ ∀ x ∈ preempting.teams, x.ctx = 0 → x.preempted = false) ∧
    (∃ x ∈ (preempting.updTeam 0 fun t => { t with preempted := true, state := .swapped }).teams, x.ctx = 0 ∧ x.preempted = true ∧ x.state = .swapped) ∧
    (preempting.team? (tmOf preempting r0).id = some (tmOf preempting r0) ∧ (tmOf preempting r0).state = .resident ∧
      ((preempting.core 0).preqs.find? (fun p => p.ctx = 0 && p.req)).isSome ∧
      ∃ g ∈ (tmOf preempting r0).groups, ∃ th ∈ g.threads, th.stopped = false ∧ th.status = .ready) ∧ Between (tmOf preempting r0) := by
  refine ⟨by decide +kernel, by decide +kernel, by decide +kernel, by decide +kernel, by decide +kernel, by decide +kernel, between_of (by decide +kernel)⟩

/-- Every thread is parked, and a launch that needs the whole core has a cluster for it. -/
def crowdedCore : State :=
  let l := { l1 with recd := { placedRecord with scrsz := 0x200000, placeEn := true, placeMask := 1 }, todo := [(0, 0)], next := 1, grid := [1, 1, 1] }
  (launching l).updTeam 0 fun t => { t with groups := t.groups.map fun g => { g with threads := g.threads.map fun th => { th with status := .parked 1 } } }
def saving : State := base.updTeam 0 fun t => { t with state := .saving }
def swapped : State := base.updTeam 0 fun t => { t with state := .swapped, savedWin := [(4095, 7)] }
/-- Its first attempt has failed, and its round has passed. -/
def swappedLate : State := swapped.updTeam 0 fun t => { t with roundFailed := true }
theorem witness_TeamsAreSwappedAndReturn :
    (crowdedCore.team? 0 = some (tmOf crowdedCore r0) ∧ (crowdedCore.ctx? 0).isSome ∧ (∀ c ∈ crowdedCore.cores, c.scratch.wf = true) ∧
      crowdedCore.swapMet (tmOf crowdedCore r0) = true ∧ ∀ x ∈ crowdedCore.teams, x.core = 0 → x.id = 0) ∧
    base.swapMet (tmOf base r0) = false ∧ Between (tmOf crowdedCore r0) ∧
    ((tmOf saving r0).state = .saving ∧ (tmOf saving r0).preempted = false ∧ saving.drained (tmOf saving r0) = true ∧ saving.saveAbsent 0 = none) ∧
    ((tmOf swapped r0).state = .swapped ∧ (∀ x ∈ swapped.teams, x.id ≠ 0 → x.core ≠ 0 ∨ x.state ≠ .swapped) ∧ swapped.teamCor (tmOf swapped r0) = false ∧
      (tmOf swapped r0).savedWin.wf = true ∧ (∀ c ∈ (tmOf swapped r0).savedWin, c.1 < (tmOf swapped r0).scrsz) ∧
      (swapped.returnCore (tmOf swapped r0)).isSome ∧
      (tmOf swappedLate r0).roundFailed = true ∧ (swappedLate.returnCore (tmOf swappedLate r0)).isNone ∧
      ((swappedLate.updTeam 0 fun x => { x with anyCore := true }).returnCore { tmOf swappedLate r0 with anyCore := true }).isSome) ∧
    (tmOf swapped r0).roundFailed = false ∧ (∀ g ∈ (tmOf swapped r0).groups, ∀ th ∈ g.threads, (∀ c, th.status ≠ .parked c) ∧ th.record = []) ∧
    (∀ x ∈ swapped.teams, (x.id ≠ 0 → x.state ≠ .swapped) ∧ 0 ∉ x.lent) ∧ Between (tmOf saving r0) ∧ (tmOf base r0).state ≠ .swapped := by
  refine ⟨by decide +kernel, by decide +kernel, between_of (by decide +kernel), by decide +kernel, by decide +kernel, by decide +kernel, fun g hg th ht => ?_, by decide +kernel,
    between_of (by decide +kernel), by decide +kernel⟩
  have : ∀ g ∈ (tmOf swapped r0).groups, ∀ th ∈ g.threads, th.status = .ready ∧ th.record = [] := by decide +kernel
  exact ⟨fun c hc => (by rw [(this g hg th ht).1] at hc; cases hc), (this g hg th ht).2⟩

/-- The package with a page of 64 KiB at 0x4000000, mapped to 0x40000 by an entry at 0x16000 that carries ACC and DIRTY. -/
def paged (e : Nat) : State :=
  { base with mem := ((base.mem.writeBytes 0x14008 (leBytes 0x16001 8)).writeBytes 0x16000 (leBytes e 8)) }

/-- A generation that holds one page and the team. -/
def gen0 : Generation := ⟨4, true, true, base.teams, base.launches, base.clusters, [], [(0x2000000, 65536, [(65535, 9)])], [], [], [], [], []⟩
/-- A delta after it, of which the buddy has no copy. -/
def gen1 : Generation := { gen0 with num := 5, base := false, buddy := false }
/-- The one team of the context has yielded and drained. -/
def quieted : State :=
  inState .checkpointing id (({ base with cores := base.cores.map fun c => { c with preqs := [⟨0, true, true, 0⟩] } } : State).updTeam 0 fun t => { t with
    groups := t.groups.map fun g => { g with threads := g.threads.map fun th => { th with status := .yielded } } })
theorem witness_CheckpointsAndRestores :
    ((ctxOf0 base).ckpt = false) ∧
    (let s := inState .running fun k => { k with ckpt := true }; (ctxOf0 s).ckpt = true ∧ (ctxOf0 s).state = .running) ∧
    (∀ x ∈ [CtxState.saved, .ready, .preempting, .checkpointing], let s := inState x fun k => { k with ckpt := true }
     (ctxOf0 s).ckpt = true ∧ (ctxOf0 s).state = x) ∧
    (let s := inState .ready fun k => { k with ckptPending := true, ckptBase := true }
     (ctxOf0 s).state = .ready ∧ (ctxOf0 s).ckptPending = true ∧ s.saveAbsent 0 = none ∧ (ctxOf0 s).ckptBase = true) ∧
    ((ctxOf0 quieted).state = .checkpointing ∧ quieted.quiet 0 = true ∧ (ctxOf0 quieted).preemptPending = false ∧ quieted.saveAbsent 0 = none ∧
      ∃ l ∈ quieted.launches, l.ctx = 0) ∧
    (let s := inState .saved (fun k => { k with ckptPending := true }) { base with measured := [[1]], rootBlock := [] }
     s.saveAbsent 0 = none ∧ s.keyReleased = false ∧ (ctxOf0 s).state = .saved ∧ (ctxOf0 s).ckptPending = true) ∧
    quieted.keyReleased = true ∧
    (let s := inState .saved (fun k => { k with gens := gen0 :: List.replicate 15 gen1, ckptPending := true })
     15 ≤ ((ctxOf0 s).gens.reverse.takeWhile fun x => !x.base).length ∧ s.saveAbsent 0 = none) ∧
    (∀ x ∈ [CtxState.ready, .saved, .frozen, .failed], (ctxOf0 (inState x)).state = x) ∧
    (let s := inState .restoring; (ctxOf0 s).state = .restoring ∧ (ctxOf0 s).gens = []) ∧
    (let s := inState .restoring fun k => { k with gens := [gen0] }
     (ctxOf0 s).state = .restoring ∧ (ctxOf0 s).gens = [gen0] ∧ gen0.base = true ∧ gen0.num ∉ ([] : List Nat) ∧
      (gen0.num ∈ [4] ∧ gen0.buddy = true ∧ gen0.num ∉ ([] : List Nat)) ∧
      (s.walkLevels 0x2000000 4 0 (ctxOf0 s).ptroot).2 = .leaf 2 0x6F 0x14000) ∧
    (let s := inState .restoring (fun k => { k with gens := [{ gen0 with pages := [(0x4000000, 65536, [(65535, 9)])] }] }) (paged 0x4006F)
     (s.walkLevels 0x4000000 4 0 (ctxOf0 s).ptroot).2 = .leaf 3 0x4006F 0x16000 ∧ pteKind 0x4006F = 0 ∧ s.mem.wf = true ∧
      Memory.wf [(65535, 9)] = true) ∧
    (let s := inState .restoring fun k => { k with gens := [gen0, gen1] }
     (ctxOf0 s).gens = [gen0, gen1] ∧ gen1.base = false ∧ gen0.num ≠ gen1.num ∧ gen1.num ∈ [5] ∧ gen1.buddy = false) ∧
    (let s := inState .saved fun k => { k with gens := [gen0] }
     s.booted = true ∧ descOk (descriptor 255 0) = true ∧ s.ctx? 255 = none ∧ (∀ x ∈ s.teams, x.ctx ≠ 255) ∧ (∀ l ∈ s.launches, l.ctx ≠ 255) ∧
      (ctxOf0 s).gens = [gen0]) ∧
    (∀ g ∈ (ctxOf0 base).gens, g.num ≠ 0) := by decide +kernel

/-! ## Pages and frames -/

def aRequest : PageReq := ⟨0, 0x400, 1, 0, 3, false⟩
/-- Lane 0 is parked on that page with its load recorded. -/
def onPage : State :=
  { withThread (fun th => { th with status := .parked cPAGE_ABSENT, recCause := cPAGE_ABSENT, record := [.load 0x4000000 4 3] }) with
    pageReqs := [aRequest], prqHeld := [.absent 0 0x400] }
theorem witness_PageRequestsAreAnswered :
    (({ onPage with prqwr := 256 } : State).prqwr - onPage.prqrd).toNat = 256 ∧ base.prqHeld = [] ∧
    ({ base with update := .handed 0 0 } : State).updating = true ∧
    (let s := { base with prqHeld := [.words [4, 0, 0, 0, 0, 0, 0, 0]], prqwr := 255 }; (s.prqwr - s.prqrd).toNat ≠ 256 ∧ s.updating = false) ∧
    ((onPage.prqwr - onPage.prqrd).toNat ≠ 256 ∧ onPage.updating = false ∧ onPage.prqHeld = .absent aRequest.ctx aRequest.page :: [] ∧ onPage.pageReqs = [aRequest] ∧
      aRequest.posted = false) ∧
    (Requested onPage 0 ((0x4000000 : BitVec 56).toNat / 65536) ∧ ¬ Requested base 0 ((0x4000000 : BitVec 56).toNat / 65536) ∧
      ParkedOn onPage 0 ((0x4000000 : BitVec 56).toNat / 65536) r0 (tmOf onPage r0) (thOf onPage r0) ∧ (ctxOf0 onPage).state = .running) := by
  refine ⟨by decide +kernel, by decide +kernel, by decide +kernel, by decide +kernel, by decide +kernel,
    ⟨aRequest, by decide +kernel, by decide⟩, by rintro ⟨q, hq, -⟩; exact absurd hq (by simp [show base.pageReqs = [] from rfl]),
    ⟨by decide +kernel, thread_of (by decide +kernel), by decide +kernel, .load 0x4000000 4 3, [], by decide +kernel, by decide⟩, by decide +kernel⟩

def invalidating (n : Nat) : State := { base with rangeInvs := List.replicate n ⟨0, 0, 65536, true⟩ }
def walkingBg (e : Nat) : State := (paged e).updDie 63 fun d => { d with bgWalks := [(0, 0x400, 63 * 256 + 47)] }
theorem witness_RangesAndBackgroundWalks :
    (65536 ∣ (0x10000 : BitVec 64).toNat ∧ ((1 <<< 56 : BitVec 64)).toNat ≤ 2 ^ 56 ∧ 65536 ∣ ((1 <<< 56 : BitVec 64)).toNat ∧
      (invalidating 63).rangeInvs.countP RangeInv.active < 64 ∧ 64 ≤ (invalidating 64).rangeInvs.countP RangeInv.active ∧
      ¬ 65536 ∣ (0x8000 : BitVec 64).toNat) ∧
    ((invalidating 1).rangeInvs[0]? = some ⟨0, 0, 65536, true⟩ ∧ (∀ x ∈ (invalidating 1).rangeInvs, x.active = true) ∧
      (invalidating 1).rangeBusy ⟨0, 0, 65536, true⟩ = false) ∧
    (let s := { awaiting (.dev 0x2000) with rangeInvs := [⟨0, 0, 65536, true⟩] }; s.rangeBusy ⟨0, 0, 65536, true⟩ = true) ∧
    (let s := walkingBg 0x4000F
     (s.die 63).bgWalks[0]? = some (0, 0x400, 63 * 256 + 47) ∧ dieOf (63 * 256 + 47) = 63 ∧ s.vaHeld 0 (0x400 * 65536) = false ∧
      (s.die 63).walkCache = [] ∧ (s.walkLevels (0x400 * 65536) 4 0 0x10000).2 = .leaf 3 0x4000F 0x16000 ∧ s.mem.wf = true) ∧
    ((walkingBg 0).walkLevels (0x400 * 65536) 4 0 0x10000).2 = .absent 3 := by decide +kernel

/-- Frames of die 1 are in the pool; the page's requests come from die 1. -/
def counted1 (n : Nat) (e : Nat := 0x4006F) : State :=
  { (paged e).updDie 0 fun d => { d with counts := [(0, 0x400, 1, n, false)] } with
    frames := (List.range 64).map fun i => 2 ^ 36 + 65536 * i, sluiceThresh := 100, sluiceWater := 1, sluiceQmax := 8, sluiceMaxrepl := 1 }
/-- A copy of the page under way: a migration, or a replica for die 1. -/
def migrating (rep : Option Nat := none) : State := { paged 0x4006F with migrations := [⟨0, 0x400, 0x40000, 0x1000000000, 0x16000, 0x4006F, rep⟩] }
def aFrame : BitVec 64 := 0x3FAFFFF0000
theorem witness_FramesAreGrantedAndReclaimed :
    State.reset.booted = false ∧ base.booted = true ∧ ((0x20002 : BitVec 64).toNat % 4 = 2) ∧
    (aFrame.toNat < 2 ^ 52 ∧ aFrame.toNat % 65536 / 4 = 0 ∧ paOk (aFrame.toNat / 65536 * 65536) = true ∧ aFrame.toNat % 4 = 0 ∧
      ¬ FrameTaken base (aFrame.toNat / 65536 * 65536)) ∧
    (paOk ((0x3FB00000000 : BitVec 64).toNat / 65536 * 65536) = false ∧ FrameTaken { base with frames := [0x20000] } 0x20000) ∧
    ((0x20001 : BitVec 64).toNat % 4 = 1 ∧ paOk 0x20000 = true ∧ 0x20000 ∈ ({ base with frames := [0x20000] } : State).frames) ∧
    (let s := base.updDie 1 fun d => { d with replicas := [(0, 9, 0x20000)] }
     0x20000 ∉ s.frames ∧ (∃ d ∈ s.dies, ∃ q ∈ d.replicas, q.2.2 = 0x20000) ∧ (s.dies.map Die.id).Nodup ∧
      s.dies.countP (fun d => d.replicas.any fun q => q.2.2 = 0x20000) = 1) ∧
    (0x1000000000 ∉ (migrating none).frames ∧ (∀ d ∈ (migrating none).dies, d.replicas = []) ∧ (∃ m ∈ (migrating none).migrations, m.dst = 0x1000000000) ∧
      paOk 0x1000000000 = true) := by
  refine ⟨by decide +kernel, by decide +kernel, by decide, ⟨by decide, by decide, by decide, by decide, ?_⟩, ⟨by decide, .inl (by decide)⟩, by decide +kernel,
    by decide +kernel, by decide +kernel⟩
  rintro (h | ⟨d, hd, -⟩ | ⟨m, hm, -⟩)
  · exact absurd h (by simp [show base.frames = [] from rfl])
  · exact absurd hd (by simp [show base.dies = [] from rfl])
  · exact absurd hm (by simp [show base.migrations = [] from rfl])

theorem witness_SluiceCopiesFarPages :
    (∀ q ∈ ((counted1 99).die 0).counts, q.2.2.2.1 * hops q.2.2.1 0 < (counted1 99).sluiceThresh) ∧
    (∀ e ∈ [0x4006F, 0x4007F], let s := counted1 100 e
     (s.die 0).counts = [(0, 0x400, 1, 100, false)] ∧ (s.walkLevels (0x400 * 65536) 4 0 0x10000).2 = .leaf 3 (BitVec.ofNat 64 e) 0x16000 ∧
      pteKind (BitVec.ofNat 64 e) = 0 ∧ paDie (pteAddr (BitVec.ofNat 64 e)) = 0 ∧ pteRepl (BitVec.ofNat 64 e) = (e = 0x4007F) ∧
      s.sluiceThresh ≤ 100 * hops 1 0 ∧ ([] : List Nat).getD 1 0 ≤ s.sluiceQmax ∧ s.migrations = [] ∧ (∀ d ∈ s.dies, d.replicas = []) ∧
      0 < s.sluiceMaxrepl ∧ s.frameRoom 1 = true ∧ (ctxOf0 s).state ≠ .frozen) := by decide +kernel

/-- A write to the page waits in core 0, and the operating system has moved the page to 0x50000. -/
def moved : State :=
  let s := { migrating with mem := migrating.mem.writeBytes 0x16000 (leBytes 0x5006F 8) }
  s.updCore 0 fun k => { k with storeq := [⟨r0, 0, 0x4000004, .dev 0x40004, [1, 2, 3, 4], false, none⟩] }
theorem witness_MigrationsComplete :
    (let s := migrating
     s.dieFenced (paDie 0x1000000000) = false ∧ s.readPte 0x16000 = 0x4006F ∧ s.mem.wf = true ∧ 8192 ∣ 0x1000000000 ∧ 0x16000 + 8 ≤ 0x1000000000) ∧
    (let s := (migrating (some 1)).updDie 1 id
     s.migrations.map Migration.replica = [some 1] ∧ s.dieFenced 1 = false ∧ s.readPte 0x16000 = 0x4006F ∧ s.mem.wf = true ∧
      (s.dies.any fun d => d.id = 1) = true) ∧
    (moved.readPte 0x16000 ≠ 0x4006F ∧ (moved.migrations.map Migration.pte) = [0x4006F] ∧ (moved.ctx? 0).isSome ∧
      (moved.core 0).storeq.map (fun w => (w.va / 65536, w.home)) = [(0x400, .dev 0x40004)] ∧
      (moved.walkLevels 0x4000004 4 0 0x10000).2 = .leaf 3 0x5006F 0x16000 ∧ pteAddr 0x5006F % 65536 = 0 ∧ moved.dieFenced (paDie (pteAddr 0x5006F)) = false) ∧
    (let s := { migrating with mem := migrating.mem.writeBytes 0x16000 [0x2F] }
     s.readPte 0x16000 ≠ 0x4006F ∧ ∀ c ∈ s.cores, ∀ w ∈ c.storeq, w.ctx ≠ 0 ∨ w.va / 65536 ≠ 0x400) := by decide +kernel
/-! ## The link -/

def frameOf (vc type seq addr ops len : Nat) : FrameHdr := ⟨0, 5, vc, type, seq, 0, 9, len, addr, 77, ops, 0⟩
theorem wellFramed_of {h : FrameHdr} {payload : List Byte} (hk : ((FrameHdr.unpack h.pack == h) && !frameBad h.pack && h.len == payload.length &&
    decide (payload.length ≤ 512)) = true) : WellFramed h.pack payload h := by
  simp only [Bool.and_eq_true, beq_iff_eq, Bool.not_eq_true', decide_eq_true_eq] at hk
  exact ⟨hk.1.1.1, hk.1.1.2, hk.1.2, hk.2⟩

def tenant0 : Tenant := ⟨255, true, false, 5, 9, 0x1000, 0x2000, 0, 15, 0⟩
/-- Device 5 is reached by port 3 and has a tenant entry for queue 15; the next number of each VC is the last there is. -/
def linked (tn : Tenant := tenant0) (qu : HostQueue := { q0 with inbound := true }) : State :=
  { withQueue qu with ports := [⟨3, .up, [0], none⟩], routes := [(5, 8)], tenants := [tn], rx := (List.range 3).map fun vc => ⟨5, vc, 0xFFFFFF, []⟩ }
theorem inOrder_of {s : State} {h : FrameHdr} {payload : List Byte} (hf : WellFramed h.pack payload h)
    (hk : (decide (h.src ≠ s.recDevice.toNat) && (s.rxOf h.src h.vc == ⟨h.src, h.vc, h.seq, []⟩) && decide (2 ≤ h.type) &&
      s.ctxs.all fun k => !k.capture) = true) : InOrder s h.pack payload h := by
  simp only [Bool.and_eq_true, beq_iff_eq, decide_eq_true_eq, List.all_eq_true, Bool.not_eq_true'] at hk
  exact ⟨hf, hk.1.1.1, ⟨hk.1.1.2, hk.1.2⟩, hk.2⟩

/-- Port 15 in a state, with its entries to TRAINING and its last failure. -/
def onePort (x : PortState) (trs : List Nat := [0]) (failed : Option Nat := none) : State := { base with ports := [⟨15, x, trs, failed⟩] }
def aFrameSent (tries : Nat) : Sent := ⟨5, 0, 67, 0, [], 0, tries, 3, 0⟩
/-- That frame is kept, and the ports to its destination train. -/
def trainingPort : State := { linked with sent := [aFrameSent 16], ports := [⟨3, .training, [0], none⟩] }
theorem witness_PortsAndResends :
    (∀ x ∈ [PortState.down, .training, .up, .degraded, .fenced], ((onePort x).port 15).state = x) ∧
    (∀ x ∈ [PortState.down, .up, .degraded], ∀ f ∈ [none, some 5], let s := onePort x (List.replicate 6 0) f
      MayTrain s 15 ∧ (s.port 15).failedAt = f ∧ (s.port 15).state = x) ∧
    (∀ x ∈ [PortState.down, .up, .degraded], ¬ MayTrain (onePort x (List.replicate 7 0)) 15) ∧
    ((0xF0 : BitVec 8).extractLsb' 4 4 = 0xF ∧ (0xF0 : BitVec 8) ≠ 0xFF ∧ (0xEF : BitVec 8).extractLsb' 0 4 = 0xF ∧
      ¬ ((0xEE : BitVec 8).extractLsb' 0 4 = 0xF ∨ (0xEE : BitVec 8).extractLsb' 4 4 = 0xF)) ∧
    (0 % 8 ≠ 63 % 8 ∧ 0 / 8 ≠ 63 / 8) ∧
    (frameBad 0 = false ∧ frameBad (1 <<< 255) = true ∧ (0 : BitVec 32) ≠ frameCrc 0 []) ∧
    (let s := { linked with sent := [aFrameSent 16] }
     s.sent[0]? = some (aFrameSent 16) ∧ (aFrameSent 16).tries < 17 ∧ s.usablePorts 5 ≠ []) ∧
    (trainingPort.usablePorts 5 = [] ∧ trainingPort.routes = [(5, 8)] ∧ (8 : BitVec 16).getLsbD 3 = true ∧ (trainingPort.port 3).state = .training) ∧
    (let s := { trainingPort with ports := [⟨3, .down, [0], none⟩] }; s.usablePorts 5 = [] ∧ s.remotes = [] ∧ ∀ o < 16, (s.port o).state ≠ .training) ∧
    (17 ≤ (aFrameSent 17).tries ∧ ({ linked with sent := [aFrameSent 17] } : State).remotes = []) := by
  unfold MayTrain; decide +kernel

theorem witness_FramesAreReceived :
    (let h := frameOf 0 1 0 0 0 0; WellFramed h.pack [] h ∧ h.src ≠ linked.recDevice.toNat ∧ h.type = 1) ∧
    (let h := { frameOf 0 0 0 0 0 8 with ackseq := 4 }
     let f := aFrameSent 16
     let s := { linked with sent := [f] }
     WellFramed h.pack (leBytes (2 ^ 63) 8) h ∧ covered s h = [f] ∧ f.dst = h.src ∧ f.vc = h.vc ∧ s.usablePorts f.dst ≠ [] ∧
      (f.seq + 2 ^ 24 - h.ackseq) % 2 ^ 24 = 63 ∧ leNat (leBytes (2 ^ 63) 8) / 2 ^ 63 % 2 = 1 ∧ leNat (leBytes (2 ^ 62) 8) / 2 ^ 63 % 2 = 0 ∧
      64 ≤ (f.seq + 2 ^ 24 - 3) % 2 ^ 24) ∧
    (let h := frameOf 0 2 0xFFFFFF 0x2000 0 2
     InOrder linked h.pack (leBytes 512 2) h ∧ Sendable linked h.src ∧ linked.tenants.find? (fun t => t.valid && t.srcdev.toNat = h.src && t.tag.toNat = h.tag) = some tenant0 ∧
      Tenanted linked h tenant0 { q0 with inbound := true } (ctxOf0 linked) ∧ NoReplicas linked ∧ Mapped linked 0 (h.addr % 2 ^ 52) false 0x2000 ∧
      linked.eccAt (.dev 0x2000) 512 = false ∧ (let s := { linked with ecc := [0x80] }
        s.eccAt (.dev 0x2000) 512 = true ∧ Mapped s 0 (h.addr % 2 ^ 52) false 0x2000)) ∧
    (let s := linked { tenant0 with frozen := true }
     s.tenants.find? (fun t => t.valid && t.srcdev.toNat = 5 && t.tag.toNat = 9) = some { tenant0 with frozen := true }) ∧
    (linked { tenant0 with valid := false }).tenants.find? (fun t => t.valid && t.srcdev.toNat = 5 && t.tag.toNat = 9) = none ∧
    (let h := frameOf 0 3 0xFFFFFF 0x4000000 0 4
     InOrder linked h.pack [1, 2, 3, 4] h ∧ linked.tableWalk 0 (h.addr % 2 ^ 52) true = (linked, .cause cPAGE_ABSENT 2)) ∧
    (let h := frameOf 0 3 0xFFFFFF 0x2000 0 4
     let s := linked.updDie 0 fun d => { d with fenced := true }
     InOrder s h.pack [1, 2, 3, 4] h ∧ s.tableWalk 0 (h.addr % 2 ^ 52) true = (s, .cause cMEMORY_LOST 0)) ∧
    (let h := frameOf 0 3 0xFFFFFF 0x4000000 0 4
     let s := { linked with mem := (paged 0x4004B).mem }
     InOrder s h.pack [1, 2, 3, 4] h ∧ s.tableWalk 0 (h.addr % 2 ^ 52) true = (s, .cause cPAGE_PROT 0)) ∧
    (let h := frameOf 0 3 0xFFFFFF 0x2000 0 4; InOrder linked h.pack [1, 2, 3, 4] h ∧ Mapped linked 0 (h.addr % 2 ^ 52) true 0x2000) ∧
    (let h := frameOf 0 4 0xFFFFFF 0x2000 11 8; InOrder linked h.pack (List.replicate 8 1) h ∧ h.ops % 32 ≤ 11 ∧ linked.eccAt (.dev 0x2000) 4 = false) ∧
    (let h := frameOf 2 7 0xFFFFFF (47 * 2 ^ 12) 0 0
     let s := { linked with
      launches := [{ placedLaunch with q := 15 }]
      clusters := base.clusters.map fun c => { c with syncs := c.syncs.set 15 (objOf .active 2 0 0 0) } }
     InOrder s h.pack [] h ∧ h.addr / 2 ^ 12 % 64 = 47 ∧ ((s.cluster? 0 (h.addr / 2 ^ 48)).bind fun c => c.syncs[47 - 32]?) = some (objOf .active 2 0 0 0)) ∧
    (let h := frameOf 1 9 0xFFFFFF 0 0 1; InOrder linked h.pack [0] h) ∧
    (let h := frameOf 0 8 0xFFFFFE 0 0 0
     WellFramed h.pack [] h ∧ (linked.rxOf h.src h.vc).above = [] ∧ seqBelow h.seq (linked.rxOf h.src h.vc).next = true) := by
  refine ⟨⟨wellFramed_of (by decide +kernel), by decide +kernel⟩, ⟨wellFramed_of (by decide +kernel), by decide +kernel⟩,
    ⟨inOrder_of (wellFramed_of (by decide +kernel)) (by decide +kernel), by unfold Sendable; decide +kernel, by decide +kernel,
      ⟨by decide +kernel, by decide +kernel, by decide +kernel⟩, by unfold NoReplicas; decide +kernel, by unfold Mapped; decide +kernel,
      by decide +kernel, by decide +kernel, by unfold Mapped; decide +kernel⟩,
    by decide +kernel, by decide +kernel, ⟨inOrder_of (wellFramed_of (by decide +kernel)) (by decide +kernel), by decide +kernel⟩,
    ⟨inOrder_of (wellFramed_of (by decide +kernel)) (by decide +kernel), by decide +kernel⟩,
    ⟨inOrder_of (wellFramed_of (by decide +kernel)) (by decide +kernel), by decide +kernel⟩,
    ⟨inOrder_of (wellFramed_of (by decide +kernel)) (by decide +kernel), by unfold Mapped; decide +kernel⟩,
    ⟨inOrder_of (wellFramed_of (by decide +kernel)) (by decide +kernel), by decide +kernel⟩,
    ⟨inOrder_of (wellFramed_of (by decide +kernel)) (by decide +kernel), by decide +kernel⟩,
    inOrder_of (wellFramed_of (by decide +kernel)) (by decide +kernel), ⟨wellFramed_of (by decide +kernel), by decide +kernel⟩⟩

def aLoad (fills : Bool) : Remote := ⟨77, 0, r0, 5, 0x2000, .load 0x2000 16 3, fills, 0⟩
def aStore : Remote := ⟨77, 0, r0, 5, 0x2000, .store 0x2000 [1], false, 0⟩
def remoteOf (q : Remote) : State := { linked with remotes := [q] }
theorem witness_LaunchMessagesAndAnswers :
    (let h := frameOf 0 8 0xFFFFFF 0 0 56
     let qu := { q0 with inbound := true, limit := some 15 }
     InOrder (linked tenant0 qu) h.pack (leBytes 0x1FFF 56) h ∧ Sendable (linked tenant0 qu) h.src ∧
      Tenanted (linked tenant0 qu) h tenant0 qu (ctxOf0 linked) ∧
      (linked tenant0 qu).update = .none ∧ tenant0.reclo.toNat ≤ leNat ((leBytes 0x1FFF 56).take 8) ∧ leNat ((leBytes 0x1FFF 56).take 8) < tenant0.rechi.toNat ∧ NoReplicas (linked tenant0 qu) ∧
      leNat (linked.mem.readBytes (0x1FFF + 48) 4) = 0 ∧
      Mapped (linked tenant0 qu) 0 (0x1FFF + 48) false (0x1FFF + 48) ∧ (15 - qu.qdone).toNat ≠ 2 ^ qu.log2n ∧
      Mapped (linked tenant0 qu) 0 (packetVa qu 15) true (0x100000 + 64 * 15)) ∧
    ((16 - q0.qdone).toNat = 2 ^ q0.log2n ∧ ¬ leNat ((leBytes 0x2000 56).take 8) < tenant0.rechi.toNat) ∧
    (let s := { linked with mem := linked.mem.writeBytes (0x1FFF + 48) (leBytes 1 4 ++ leBytes 1 4 ++ leBytes 1 4) }
     Mapped s 0 (0x1FFF + 48) false (0x1FFF + 48) ∧ tenant0.maxgrid.toNat < leNat (s.mem.readBytes (0x1FFF + 48) 4) *
       leNat (s.mem.readBytes (0x1FFF + 48 + 4) 4) * leNat (s.mem.readBytes (0x1FFF + 48 + 8) 4)) ∧
    (∀ f : Bool, let h := frameOf 1 5 0xFFFFFF 0 0 64
     let s := remoteOf (aLoad f)
     InOrder s h.pack (List.replicate 64 3) h ∧ s.remotes = [aLoad f] ∧ (aLoad f).txid = h.txid ∧ (aLoad f).dev = h.src ∧ (aLoad f).fills = f ∧
      NotEngines (s.core 0) 77 ∧ s.thread? r0 = some (thOf s r0) ∧ (thOf s r0).acq = false ∧ s.ctxOf? r0 = some 0 ∧
      (0x2000 : DWord).toNat % 64 + 16 ≤ 64) ∧
    (∀ ops ∈ [0, 1], let h := frameOf 2 6 0xFFFFFF 0 ops 0; InOrder (remoteOf aStore) h.pack [] h ∧ (remoteOf aStore).remotes = [aStore]) ∧
    ((77 : BitVec 32).toNat = aStore.txid ∧ (remoteOf (aLoad true)).team? 0 = some (tmOf base r0) ∧ (tmOf base r0).state = .resident ∧
      NotEngines ((remoteOf aStore).core 0) 77) := by
  refine ⟨⟨inOrder_of (wellFramed_of (by decide +kernel)) (by decide +kernel), by unfold Sendable; decide +kernel,
      ⟨by decide +kernel, by decide +kernel, by decide +kernel⟩, by decide +kernel, by decide +kernel, by decide +kernel, by unfold NoReplicas; decide +kernel,
      by decide +kernel, by unfold Mapped; decide +kernel, by decide +kernel, by unfold Mapped; decide +kernel⟩, by decide +kernel,
      ⟨by unfold Mapped; decide +kernel, by decide +kernel⟩, fun f => ?_, fun ops ho => ?_, by unfold NotEngines; decide +kernel⟩
  · cases f <;> exact ⟨inOrder_of (wellFramed_of (by decide +kernel)) (by decide +kernel), by decide +kernel, by decide, by decide, rfl,
      by unfold NotEngines; decide +kernel, thread_of (by decide +kernel), by decide +kernel, by decide +kernel, by decide⟩
  · simp only [List.mem_cons, List.not_mem_nil, or_false] at ho
    rcases ho with rfl | rfl <;> exact ⟨inOrder_of (wellFramed_of (by decide +kernel)) (by decide +kernel), by decide +kernel⟩

/-! ## Power, debugger, firmware -/

theorem witness_ClocksCapAndSlope : (300 ≤ 950 ∧ 950 % 50 = 0 ∧ 950 * 4 ≤ 3800) ∧ (1200 % 50 = 0 ∧ 1200 * 2 ≤ 3800) ∧ ¬ 1000 * 4 ≤ 3800 ∧ ¬ 1200 < 1200 ∧
    base.booted = true ∧ (let s := base.updDie 63 fun d => { d with rampCtx := [0] }; (s.die 63).rampCtx = [0] ∧ (s.ctx? 0).isSome) ∧
    (base.die 63).rampCtx = [] := by decide +kernel

def debugging (stopped : Bool) : State :=
  { base.updGroup 0 0 fun g => { g with stopped := stopped, stopReq := stopped } with debuggers := [0] }
theorem witness_DebuggerStopsWritesAndResumes : (base.ctx? 0).isSome ∧
    ((debugging false).group? 0 (0 / 32) = some (gOf (debugging false) r0) ∧ (debugging false).debugged 0 = true ∧ (gOf (debugging false) r0).stopped = false) ∧
    base.debugged 0 = false ∧
    ((gOf (debugging true) r0).stopReq = true ∧ (debugging true).groupBusy 0 0 = false ∧
      ((debugging true).updCore 0 fun k => { k with loads := [⟨r0, 3, [0], none, none, none, none⟩] }).groupBusy 0 0 = true) ∧
    Stopped (debugging true) r0 (gOf (debugging true) r0) (thOf (debugging true) r0) ∧ 63 < (gOf (debugging true) r0).nreg ∧ (gOf (debugging true) r0).nreg ≤ 64 :=
  ⟨by decide +kernel, by decide +kernel, by decide +kernel, by decide +kernel, ⟨by decide +kernel, by decide +kernel, by decide +kernel, by decide +kernel⟩,
    by decide +kernel, by decide +kernel⟩

/-- An image that keeps R279, of four bytes and VERSION 3, its DIGEST what they say, with a signature; slots that hold two of them. -/
def imageBytes : List Byte := leBytes 0x4F514246 4 ++ leBytes 3 4 ++ leBytes 4 4 ++ leBytes 0 4 ++ leBytes (Config.shake256 [1, 2, 3, 4]).toNat 32 ++
  leBytes 68 4 ++ List.replicate 12 0 ++ [1, 2, 3, 4] ++ List.replicate 2500 0
def image (version : Nat) : Image := ⟨version, 0, leBytes (Config.shake256 [1, 2, 3, 4]).toNat 32, [1, 2, 3, 4]⟩
def slots (a b : SlotState) : State :=
  { base with flash := { base.flash with slots := [⟨a, [image 3, image 3]⟩, ⟨b, [image 4, image 4]⟩], minVersion := 3 } }
def updatingTo (x : UpdateStage) : State := { slots .active .pending with update := x }

theorem imageBytes_ok : ImageOk (slots .active .standby) imageBytes := by
  have hsize : leNat ((imageBytes.drop 8).take 4) = 4 := by decide +kernel
  have hoff : leNat ((imageBytes.drop 48).take 4) = 68 := by decide +kernel
  have hlen : imageBytes.length = 2568 := by decide +kernel
  refine ⟨by decide +kernel, by decide +kernel, by rw [hsize]; decide, fun i h1 h2 => ?_, by rw [hsize, hoff, hlen]; decide, by rw [hsize]; rfl⟩
  have h : ∀ j < 12, imageBytes[52 + j]? = some 0 := by decide +kernel
  exact (by omega : 52 + (i - 52) = i) ▸ h (i - 52) (by omega)

theorem witness_BootImagesAndUpdates :
    (State.reset.booted = false ∧ State.reset.flash.slots.length = 2 ∧ (State.reset.flash.slot 0).state = .active ∧ State.reset.flash.disabled = [] ∧
      State.reset.flash.minVersion ≤ (State.reset.flash.slot 0).version ∧ State.reset.flash.recVersion ≤ State.reset.flash.records.version) ∧
    (let s := { State.reset with flash := (slots .pending .active).flash }
     (s.flash.slot 1).state = .active ∧ (s.flash.slot 0).state = .pending ∧ s.booted = false ∧ s.flash.recVersion ≤ s.flash.records.version ∧
      s.flash.minVersion ≤ (s.flash.slot 0).version) ∧
    (let f := State.reset.flash
     let s := { State.reset with flash := { f with recVersion := 2, records := { f.records with version := 1 } } }
     s.flash.records.version < s.flash.recVersion ∧ (s.flash.slot 1).state ≠ .pending) ∧
    (let s := State.reset.place []
     let s := { s with booted := false, flash := { s.flash with records := { s.flash.records with disabled := [0] } } }
     s.flash.slots.length = 2 ∧ 0 ∈ s.flash.records.disabled ++ s.flash.disabled ∧ ∃ c ∈ s.cores, c.id = 0) ∧
    ((∀ b ∈ [imageBytes, imageBytes], ImageOk (slots .active .standby) b) ∧ ((slots .active .standby).flash.slot 1).state ≠ .active ∧
      ((slots .active .standby).flash.slot 1).state ≠ .pending ∧ (slots .active .standby).flash.slots.length = 2) ∧
    (let s := slots .active .pending
     (s.flash.slot 1).state = .pending ∧ (s.flash.slot 0).state = .active ∧ s.booted = true ∧ s.update = .none ∧ ¬ CheckpointRuns s ∧
      ∀ im ∈ (s.flash.slot 1).images, im.statever ≤ Config.structVersion ∧ im.digest = leBytes (Config.shake256 im.body).toNat 32) ∧
    (let s := slots .active .pending
     let s := { s with flash := { s.flash with slots := [⟨.active, []⟩, ⟨.pending, [{ image 4 with body := [] , digest := [] }]⟩] } }
     ¬ ∀ im ∈ (s.flash.slot 1).images, im.statever ≤ Config.structVersion ∧ im.digest = leBytes (Config.shake256 im.body).toNat 32) ∧
    (let s := inState .saved (fun k => { k with ckptPending := true }) (slots .active .pending); CheckpointRuns s ∧ s.update = .none ∧ s.booted = true) ∧
    (∀ n ∈ [0, 2 ^ 28 + 1], let s := { updatingTo (.handed 1 0) with ns := n }
      s.update = .handed 1 0 ∧ s.heldTeardowns = [] ∧ s.heldResets = [] ∧ s.flash.slots.length = 2) ∧
    ((updatingTo (.handed 1 0)).now ≤ 0 + 2 ^ 28 ∧ 0 + 2 ^ 28 < ({ updatingTo (.handed 1 0) with ns := 2 ^ 28 + 1 } : State).now) ∧
    (let s := { slots .active .pending with running := some 1 }; s.update = .none ∧ s.running = some 1 ∧ (s.flash.slot 1).state = .pending) ∧
    (updatingTo (.waiting true)).update ≠ .none ∧
    (let s := { base with gated := true, wakeFilter := [(2, 0xFF, 7)] }
     s.gated = true ∧ (∃ e ∈ s.wakeFilter, BitVec.ofNat 32 (leNat ((([0, 0, 7] : List Byte).drop e.1).take 4)) &&& e.2.1 = e.2.2) ∧ s.wakeHeld.length < 4 ∧
      ¬ ∃ e ∈ s.wakeFilter, BitVec.ofNat 32 (leNat ((([0, 0, 8] : List Byte).drop e.1).take 4)) &&& e.2.1 = e.2.2) ∧
    base.gated = false ∧ 4 ≤ ({ base with wakeHeld := [[1], [2], [3], [4]] } : State).wakeHeld.length := by
  have nock : ¬ CheckpointRuns (slots .active .pending) := by
    have h : ∀ k ∈ (slots .active .pending).ctxs, k.state = .running := by decide +kernel
    rintro ⟨k, hk, hs | ⟨-, hs⟩⟩
    · rw [h k hk] at hs; cases hs
    · rw [h k hk] at hs; rcases hs with hs | hs <;> cases hs
  refine ⟨by decide +kernel, by decide +kernel, by decide +kernel, by decide +kernel, ⟨?_, by decide +kernel⟩,
    ⟨by decide +kernel, by decide +kernel, by decide +kernel, by decide +kernel, nock, ?_⟩, ?_, ⟨?_, by decide +kernel⟩, by decide +kernel, by decide +kernel,
    by decide +kernel, by decide +kernel, by decide +kernel⟩
  · intro b hb
    simp only [List.mem_cons, List.not_mem_nil, or_false, or_self] at hb
    exact hb ▸ imageBytes_ok
  · intro im hm
    have : im = image 4 := by simpa [slots, Flash.slot] using hm
    subst this
    exact ⟨Nat.zero_le _, rfl⟩
  · intro _ s h
    have := congrArg List.length (h { image 4 with body := [], digest := [] } (by simp [s, Flash.slot])).2
    simp [leBytes] at this
  · have h : ∀ k ∈ (inState .saved (fun k => { k with ckptPending := true }) (slots .active .pending)).ctxs, k.ckptPending = true ∧ k.state = .saved := by
      decide +kernel
    obtain ⟨k, hk⟩ := List.exists_mem_of_ne_nil _ (by decide +kernel :
      (inState .saved (fun k => { k with ckptPending := true }) (slots .active .pending)).ctxs ≠ [])
    exact ⟨k, hk, .inr ⟨(h k hk).1, .inr (h k hk).2⟩⟩

theorem witness_AttestationAnswers : base.booted = true ∧ base.gated = false ∧ base.flash.keyIndex < 1048576 ∧ base.signing = none ∧ base.signs = [] ∧
    ({ base with signing := some 5 } : State).signing = some 5 ∧
    ({ base with flash := { base.flash with keyIndex := 1048576 } } : State).flash.keyIndex ≥ 1048576 ∧
    (let s := { base with measured := [[1], [2], [3], [4]] }; s.measured.length = 4 ∧ s.measured[3]? = some [4]) ∧
    ((0 : Byte).getLsbD 0 = base.attachedEver ∧ ((0 : Byte).getLsbD 1 = true ↔ ∃ k ∈ base.ctxs, fieldAt k.desc 4 4 % 2 = 1) ∧ (0 : Byte).extractLsb' 2 6 = 0) := by
  decide +kernel

/-- R276: a median wait of 20 in phases of 100 lowers the front clock of the quarter that runs the launch by one step, and waits of
1 raise it again, to no more than before; R315: RCP of a negative power of two is exact. -/
def skewed (w : Nat) (s : State) : State := (s.updLaunch 0 fun l => { l with skew := List.replicate 8 (w, 100) }).budgetShare 0
theorem test_skew_moves_the_clock : ((skewed 20 base).quarter 0 0).front = 900 ∧ ((skewed 1 (skewed 20 base)).quarter 0 0).front = 950 ∧
    ((skewed 1 base).quarter 0 0).front = 950 ∧ ((skewed 5 base).quarter 0 0).front = 950 := by decide +kernel
theorem test_reciprocal_of_minus_two : sfu 0 0 0xC0000000 = (0xBF000000, 0) ∧ sfu 0 0 0x00200000 = (0x7F800000, 5) := by decide +kernel

/-! ## Encodings and the step -/

theorem witness_DecodingGivesTheEncodedInstructionBack : WellFormed (.movk true 63 0xFFFFFFFF) ∧ encode (.movk true 63 0xFFFFFFFF) ≠ [] ∧
    WellFormed (.amoCas64 true 60 62 3 5 3) ∧ encode (.amoCas64 true 60 62 3 5 3) ≠ [] := by decide

/-- An outcome that is a next state, told by a test. -/
theorem next_of {o : Host.Outcome State Fault Refusal} (h : (match o with | .next _ => true | _ => false) = true) : ∃ t, o = .next t := by
  cases o with
  | next t => exact ⟨t, rfl⟩
  | fault _ => cases h
  | refused _ => cases h

theorem runs_of {o : Host.Outcome State Fault Refusal} {b : List ThreadRef}
    (h : (match o with
      | .next t => t.issue.raised.isEmpty && !t.issue.hold && b.all fun r => (t.thread? r).all fun u => u.status == .ready
      | _ => false) = true) :
    ∃ t, o = .next t ∧ t.issue.raised = [] ∧ t.issue.hold = false ∧ ∀ r ∈ b, ∀ u w, t.thread? r = some u → u.status ≠ .waiting w := by
  cases o with
  | next t =>
    simp only [Bool.and_eq_true, List.isEmpty_iff, Bool.not_eq_true', List.all_eq_true, Option.all_eq_true] at h
    refine ⟨t, rfl, h.1.1, h.1.2, fun r hr u w hu hw => ?_⟩
    have := h.2 r hr u hu
    simp [hw] at this
  | fault _ => cases h
  | refused _ => cases h

theorem noPending_of {s : State} {c : Nat} (h : (s.core c).loads = []) {r : ThreadRef} (ha : ((s.thread? r).map Thread.acq).getD false = false)
    (x : Issue) {i : Instr} : ({ s with issue := x } : State).pendingOn c r i = false := by
  have h' : (({ s with issue := x } : State).core c).loads = [] := h
  have ha' : ((({ s with issue := x } : State).thread? r).map Thread.acq).getD false = false := ha
  simp [State.pendingOn, State.operandPending, h', ha']

/-- ADDI v5, v5, #-4 where the first step fetches it. -/
def atAddi : State := State.reset.withFetchWord 32 0x40145FFC
def allLanes : List ThreadRef := (List.range 32).map fun l => ⟨0, l⟩
def fetched : State × Fetch := (atAddi.ticked.enter 0 allLanes ⟨0, 0⟩).fetchPacket 0 (ctxOf0 atAddi) 0
theorem witness_AStepRunsTheDecodedInstruction :
    Turns atAddi 0 allLanes (Thread.fresh 64 0) (ctxOf0 atAddi) fetched.1 [0x40145FFC, 0, 0] 1 ∧
    Issues fetched.1 0 allLanes [0x40145FFC, 0, 0] 0 (.addi false 5 5 0xFFC) ∧
    (∃ t, exec (.addi false 5 5 0xFFC) { fetched.1 with issue := { fetched.1.issue with
      bundle := allLanes, raised := [], pc := ⟨0, 0⟩, next := some 0, bad := false } } = .next t ∧ t.issue.raised = [] ∧
      t.issue.hold = false ∧ ∀ r ∈ allLanes, ∀ u w, t.thread? r = some u → u.status ≠ .waiting w) ∧
    (let s := { base with inputs := [.pcapWrite 8000] }; s.inputs = .pcapWrite 8000 :: [] ∧ ∃ t, exec (.pcapWrite 8000) { s with inputs := [] } = .next t) := by
  refine ⟨⟨by decide +kernel, by decide +kernel, by decide +kernel, ⟨Prod.ext rfl (by decide +kernel), by decide +kernel⟩, by decide +kernel⟩,
    ⟨by decide +kernel, ?_, ?_⟩, runs_of (by decide +kernel), by decide +kernel, next_of (by decide +kernel)⟩
  · have h : ∀ r ∈ allLanes, fetched.1.nregOf r = some 64 := by decide +kernel
    intro r hr n hn
    rw [h r hr] at hn
    obtain rfl := Option.some.inj hn
    decide
  · intro r hr
    refine ⟨fun th ht => ?_, fun x => ?_⟩
    · have h := thread_all (p := fun th => th.record.isEmpty) (by decide +kernel) ht
      simp [Thread.mustPark, h]
    · have h : (fetched.1.core 0).loads = [] := by decide +kernel
      exact noPending_of h ((by decide +kernel : ∀ r ∈ allLanes, ((fetched.1.thread? r).map Thread.acq).getD false = false) r hr) x

theorem witness_StepsKeepMemoryCanonical : Canonical atAddi ∧ (∃ t, step atAddi = .next t) ∧ Canonical State.reset :=
  ⟨by unfold Canonical; decide +kernel, next_of (by decide +kernel), by unfold Canonical; decide +kernel⟩

end Sys2Proof.Tests
end

section
/-!
Proofs about KILL (R104, R109): the statements of the family 06_trap.
-/
namespace Sys2Proof.Proofs

open Sys2Proof Sys2Proof.Machine Sys2Proof.Claims

/-! ## What a KILL does is not undone

Everything that `killTeam` does after it has noted the cause, the ends of waits on shared objects among it, only moves a
state towards "killed": an ended thread stays ended, a killing team stays killing, a closed object stays closed, a freed lock bit
stays free, a cause's bit stays set.  `Irrevocable` says so once; each operation is shown to have it, and a KILL's effects are then
read off at the operation that brings them about. -/

/-- A thread as R109 leaves it. -/
structure ThreadEnded (th : Thread) : Prop where
  status : th.status = .exited
  record : th.record = []
  grant : th.grant = none

/-- The bits of a group's bitmap and the ends of its threads are still there. -/
structure GroupKept (x y : Group) : Prop where
  causes : ∀ i : Nat, x.causes.getLsbD i = true → y.causes.getLsbD i = true
  threads : ∀ (n : Nat) (v : Thread), y.threads[n]? = some v → ∃ u, x.threads[n]? = some u ∧ (ThreadEnded u → ThreadEnded v)

/-- What a KILL did to a team is still there. -/
structure TeamKept (x y : Team) : Prop where
  killing : x.state = .killing → y.state = .killing
  opens : x.opens = [] → y.opens = []
  groups : ∀ (n : Nat) (h : Group), y.groups[n]? = some h → ∃ g, x.groups[n]? = some g ∧ GroupKept g h

/-- What of a launch a kill record and its counter of killed teams speak of. -/
def account (la : Launch) : Nat × Nat × Nat := (la.fn, la.q, la.killed)

/-- Every team of t stands in s, and has kept there what a KILL did to it. -/
def TeamsKept (s t : State) : Prop := ∀ u y, t.team? u = some y → ∃ x, s.team? u = some x ∧ TeamKept x y

/-- No effect of a KILL in s is undone in t; no kill record and no byte of memory has been written between them. -/
structure Irrevocable (s t : State) : Prop where
  memory : t.mem = s.mem ∧ t.hostMem = s.hostMem
  killRecs : t.killRecs = s.killRecs
  launches : ∀ l, (t.launch? l).map account = (s.launch? l).map account
  locks : ∀ k' ∈ t.cores, ∀ l ∈ k'.locks, ∃ k ∈ s.cores, l ∈ k.locks
  teams : TeamsKept s t

theorem GroupKept.refl (x : Group) : GroupKept x x := ⟨fun _ h => h, fun _ v h => ⟨v, h, id⟩⟩

theorem GroupKept.trans {x y z : Group} (hxy : GroupKept x y) (hyz : GroupKept y z) : GroupKept x z where
  causes i h := hyz.causes i (hxy.causes i h)
  threads n w hw := by
    obtain ⟨v, hv, hvw⟩ := hyz.threads n w hw
    obtain ⟨u, hu, huv⟩ := hxy.threads n v hv
    exact ⟨u, hu, hvw ∘ huv⟩

theorem TeamKept.of_groups_eq {x y : Team} (hs : x.state = .killing → y.state = .killing) (ho : x.opens = [] → y.opens = [])
    (hg : y.groups = x.groups) : TeamKept x y := ⟨hs, ho, fun _ g h => ⟨g, hg ▸ h, .refl g⟩⟩

theorem TeamKept.refl (x : Team) : TeamKept x x := .of_groups_eq id id rfl

theorem TeamKept.trans {x y z : Team} (hxy : TeamKept x y) (hyz : TeamKept y z) : TeamKept x z where
  killing h := hyz.killing (hxy.killing h)
  opens h := hyz.opens (hxy.opens h)
  groups n i hi := by
    obtain ⟨h, hh, hhi⟩ := hyz.groups n i hi
    obtain ⟨g, hg, hgh⟩ := hxy.groups n h hh
    exact ⟨g, hg, hgh.trans hhi⟩

/-- Modifying one group, where the new one keeps what the old one had. -/
theorem TeamKept.modify_group {x : Team} {m : Nat} {f : Group → Group} (h : ∀ g, x.groups[m]? = some g → GroupKept g (f g)) :
    TeamKept x { x with groups := x.groups.modify m f } where
  killing := id
  opens := id
  groups n y hy := by
    simp only [List.getElem?_modify, Option.map_eq_map, Option.map_eq_some_iff] at hy
    obtain ⟨g, hg, rfl⟩ := hy
    refine ⟨g, hg, ?_⟩
    split
    · next hm => exact h g (hm ▸ hg)
    · exact .refl g

theorem Irrevocable.trans {s t u : State} (hst : Irrevocable s t) (htu : Irrevocable t u) : Irrevocable s u where
  memory := ⟨htu.memory.1.trans hst.memory.1, htu.memory.2.trans hst.memory.2⟩
  killRecs := htu.killRecs.trans hst.killRecs
  launches l := (htu.launches l).trans (hst.launches l)
  locks k hk l hl := by
    obtain ⟨k', hk', hl'⟩ := htu.locks k hk l hl
    exact hst.locks k' hk' l hl'
  teams n z hz := by
    obtain ⟨y, hy, hyz⟩ := htu.teams n z hz
    obtain ⟨x, hx, hxy⟩ := hst.teams n y hy
    exact ⟨x, hx, hxy.trans hyz⟩

/-- A change outside teams, launches, memory and kill records, under which no core holds a new lock bit. -/
theorem Irrevocable.of_teams_eq {s t : State} (hm : t.mem = s.mem) (hh : t.hostMem = s.hostMem) (hk : t.killRecs = s.killRecs)
    (hl : t.launches = s.launches) (ht : t.teams = s.teams)
    (hc : ∀ k' ∈ t.cores, ∀ l ∈ k'.locks, ∃ k ∈ s.cores, l ∈ k.locks) : Irrevocable s t where
  memory := ⟨hm, hh⟩
  killRecs := hk
  launches l := by unfold State.launch?; rw [hl]
  locks := hc
  teams u y hy := ⟨y, by unfold State.team? at hy ⊢; rwa [ht] at hy, .refl y⟩

theorem locks_of_cores_eq {s t : State} (h : t.cores = s.cores) : ∀ k' ∈ t.cores, ∀ l ∈ k'.locks, ∃ k ∈ s.cores, l ∈ k.locks :=
  fun k hk _ hl => ⟨k, h ▸ hk, hl⟩

theorem Irrevocable.refl (s : State) : Irrevocable s s := .of_teams_eq rfl rfl rfl rfl rfl (locks_of_cores_eq rfl)

theorem Irrevocable.foldl {α : Type} {f : State → α → State} (h : ∀ s x, Irrevocable s (f s x)) (l : List α) (s : State) :
    Irrevocable s (l.foldl f s) := by
  induction l generalizing s with
  | nil => exact .refl s
  | cons x xs ih => exact (h s x).trans (ih (f s x))

/-! ## Updates -/

theorem irrevocable_updTeam (s : State) (n : Nat) {f : Team → Team} (hf : ∀ x, TeamKept x (f x))
    (hid : ∀ x, (f x).id = x.id := by intro _; rfl) :
    Irrevocable s (s.updTeam n f) where
  memory := ⟨rfl, rfl⟩
  killRecs := rfl
  launches _ := rfl
  locks := locks_of_cores_eq rfl
  teams u y hy := by
    rw [team?_updTeam s n u f hid, Option.map_eq_some_iff] at hy
    obtain ⟨x, hx, rfl⟩ := hy
    refine ⟨x, hx, ?_⟩
    split
    · exact hf x
    · exact .refl x

theorem irrevocable_updGroup {s : State} {t g : Nat} {f : Group → Group} (h : ∀ x, s.group? t g = some x → GroupKept x (f x)) :
    Irrevocable s (s.updGroup t g f) where
  memory := ⟨rfl, rfl⟩
  killRecs := rfl
  launches _ := rfl
  locks := locks_of_cores_eq rfl
  teams u y hy := by
    unfold State.updGroup at hy
    rw [team?_updTeam s t u _ (by intro _; rfl), Option.map_eq_some_iff] at hy
    obtain ⟨x, hx, rfl⟩ := hy
    refine ⟨x, hx, ?_⟩
    split
    · next ht =>
      obtain rfl : u = t := (team?_id hx).symm.trans ht
      exact .modify_group fun z hz => h z (by simp [State.group?, hx, hz])
    · exact .refl x

theorem irrevocable_updThread {s : State} {r : ThreadRef} {f : Thread → Thread}
    (h : ∀ th, s.thread? r = some th → ThreadEnded th → ThreadEnded (f th)) : Irrevocable s (s.updThread r f) := by
  refine irrevocable_updGroup fun x hx => ⟨fun _ hi => hi, fun n v hv => ?_⟩
  simp only [List.getElem?_modify, Option.map_eq_map, Option.map_eq_some_iff] at hv
  obtain ⟨th, hth, rfl⟩ := hv
  refine ⟨th, hth, fun hend => ?_⟩
  split
  · next hn => exact h th (by simp [State.thread?, hx, hn, hth]) hend
  · exact hend

/-- A launch after an update of a launch that keeps its id. -/
theorem launch?_updLaunch (s : State) (n l : Nat) (f : Launch → Launch) (hf : ∀ x, (f x).id = x.id) :
    (s.updLaunch n f).launch? l = (s.launch? l).map fun x => if x.id = n then f x else x := by
  unfold State.updLaunch State.launch?
  refine find?_map_id Launch.id _ (fun x => ?_) s.launches l
  split
  · exact hf x
  · rfl

theorem irrevocable_updLaunch (s : State) (n : Nat) {f : Launch → Launch}
    (hid : ∀ x, (f x).id = x.id := by intro _; rfl) (hf : ∀ x, account (f x) = account x := by intro _; rfl) :
    Irrevocable s (s.updLaunch n f) where
  memory := ⟨rfl, rfl⟩
  killRecs := rfl
  launches l := by
    rw [launch?_updLaunch s n l f hid, Option.map_map]
    congr 1
    funext x
    simp only [Function.comp_apply]
    split
    · exact hf x
    · rfl
  locks := locks_of_cores_eq rfl
  teams _ y hy := ⟨y, hy, .refl y⟩

theorem irrevocable_updCluster (s : State) (l c : Nat) (f : Cluster → Cluster) : Irrevocable s (s.updCluster l c f) :=
  .of_teams_eq rfl rfl rfl rfl rfl (locks_of_cores_eq rfl)

theorem locks_updCore {s : State} {n : Nat} {f : Core → Core} (hf : ∀ k, (f k).locks = k.locks) :
    ∀ k' ∈ (s.updCore n f).cores, ∀ l ∈ k'.locks, ∃ k ∈ s.cores, l ∈ k.locks := by
  intro k' hk' l hl
  unfold State.updCore at hk'
  split at hk'
  · obtain ⟨k, hk, rfl⟩ := List.mem_map.mp hk'
    refine ⟨k, hk, ?_⟩
    split at hl
    · exact hf k ▸ hl
    · exact hl
  · rcases List.mem_cons.mp hk' with rfl | hk
    · rw [hf] at hl
      exact absurd hl List.not_mem_nil
    · exact ⟨k', hk, hl⟩

theorem irrevocable_updCore (s : State) (n : Nat) {f : Core → Core} (hf : ∀ k, (f k).locks = k.locks := by intro _; rfl) :
    Irrevocable s (s.updCore n f) :=
  .of_teams_eq (by simp) (by simp) (by simp) (by simp) (by simp) (locks_updCore hf)

/-! ## The ends of waits on an object (R184, R191) -/

/-- A thread that waits has not ended. -/
theorem not_ended_of_waiting {th : Thread} {w : WaitKind} (h : th.status = .waiting w) : ¬ ThreadEnded th :=
  fun he => by simp [he.status] at h

theorem irrevocable_grantTeam (s : State) (tm : Team) (o : Nat) : Irrevocable s (s.grantTeam tm o) := by
  refine .foldl (fun s r => ?_) _ s
  split
  · next hst =>
    split
    · refine irrevocable_updThread fun th hth hend => absurd hend ?_
      simp only [State.status?, hth, Option.map_some, Option.some.injEq] at hst
      exact not_ended_of_waiting hst
    · exact .refl s
  · exact .refl s

theorem irrevocable_invalidateRanges (s : State) (n c : Nat) (rs : List (DWord × Nat)) : Irrevocable s (s.invalidateRanges n c rs) :=
  (irrevocable_updCore s n).trans (.of_teams_eq rfl rfl rfl rfl rfl (locks_of_cores_eq rfl))

theorem irrevocable_wakeTeam (s : State) (tm : Team) (o : Nat) : Irrevocable s (s.wakeTeam tm o) := by
  refine .foldl (fun s r => ?_) _ s
  split
  · next th hth =>
    split
    · next hst =>
      split
      · refine (irrevocable_updThread fun u hu hend => ?_).trans (irrevocable_invalidateRanges _ _ _ _)
        obtain rfl : th = u := Option.some.inj (hth.symm.trans hu)
        exact absurd hend (not_ended_of_waiting hst)
      · exact .refl s
    · exact .refl s
  · exact .refl s

theorem irrevocable_releaseStep (s : State) (l g : Nat) (only : Option Nat) : Irrevocable s (s.releaseStep l g only) := by
  unfold State.releaseStep
  dsimp only
  split
  · exact .refl s
  · split
    · exact .refl s
    · exact ((irrevocable_updLaunch s l).trans
        (.foldl (fun s c => irrevocable_updCluster s _ _ _) _ _)).trans (.foldl (fun s t => irrevocable_wakeTeam s t _) _ _)

theorem irrevocable_released (s : State) (tm : Team) (o : Nat) : Irrevocable s (s.released tm o) := by
  have hgrant : Irrevocable s ((s.sharers tm o).foldl (fun s t => s.grantTeam t o) s) :=
    .foldl (fun s t => irrevocable_grantTeam s t o) _ s
  refine hgrant.trans ?_
  unfold State.released
  dsimp only
  generalize (s.sharers tm o).foldl (fun s t => s.grantTeam t o) s = u
  split
  · exact .foldl (fun s t => irrevocable_wakeTeam s t o) _ _
  · split
    · exact .refl _
    · exact ((Irrevocable.foldl (fun s c => irrevocable_updCluster s _ _ _) _ _).trans
        (irrevocable_updLaunch _ _)).trans (irrevocable_releaseStep _ _ _ _)

theorem irrevocable_setSync (s : State) (tm : Team) (o : Nat) (v : SyncObj) : Irrevocable s (s.setSync tm o v) := by
  unfold State.setSync
  split
  · exact irrevocable_updTeam s _ fun _ => .of_groups_eq id id rfl
  · split
    · exact irrevocable_updCluster s _ _ _
    · exact irrevocable_updLaunch s _

theorem irrevocable_putSync (s : State) (tm : Team) (o : Nat) (v : SyncObj) : Irrevocable s (s.putSync tm o v) := by
  unfold State.putSync
  dsimp only
  split
  · exact (irrevocable_setSync s tm o v).trans (irrevocable_released _ tm o)
  · exact irrevocable_setSync s tm o v

theorem irrevocable_errorShared (s : State) (tm : Team) (c : Cause) : Irrevocable s (s.errorShared tm c) := by
  refine .foldl (fun s i => ?_) _ s
  split
  · exact irrevocable_putSync s _ _ _
  · exact .refl s

/-! ## R109 steps 1 to 3 -/

/-- A team whose threads have all ended. -/
structure TeamStopped (x : Team) : Prop where
  killing : x.state = .killing
  threads : ∀ g ∈ x.groups, ∀ th ∈ g.threads, ThreadEnded th


/-- What step 1 of R109 does to the team itself. -/
def stoppedTeam (t : Team) : Team :=
  { t with
    state := .killing
    groups := t.groups.map fun g => { g with threads := g.threads.map fun th =>
      { th.leaveRun with status := .exited, record := [], aside := [], grant := none, nackPending := false } } }

theorem teamStopped_stoppedTeam (t : Team) : TeamStopped (stoppedTeam t) where
  killing := rfl
  threads g hg th hth := by
    obtain ⟨g₀, -, rfl⟩ := List.mem_map.mp hg
    obtain ⟨th₀, -, rfl⟩ := List.mem_map.mp hth
    exact ⟨rfl, rfl, rfl⟩

theorem teamKept_stoppedTeam (t : Team) : TeamKept t (stoppedTeam t) where
  killing _ := rfl
  opens := id
  groups n h hh := by
    simp only [stoppedTeam, List.getElem?_map, Option.map_eq_some_iff] at hh
    obtain ⟨g, hg, rfl⟩ := hh
    refine ⟨g, hg, fun _ hi => hi, fun m v hv => ?_⟩
    simp only [List.getElem?_map, Option.map_eq_some_iff] at hv
    obtain ⟨th, hth, rfl⟩ := hv
    exact ⟨th, hth, fun _ => ⟨rfl, rfl, rfl⟩⟩

theorem TeamKept.stopped {x y : Team} (h : TeamKept x y) (hx : TeamStopped x) : TeamStopped y where
  killing := h.killing hx.killing
  threads g hg th hth := by
    obtain ⟨n, hn⟩ := List.mem_iff_getElem?.mp hg
    obtain ⟨g₀, hg₀, hkept⟩ := h.groups n g hn
    obtain ⟨m, hm⟩ := List.mem_iff_getElem?.mp hth
    obtain ⟨th₀, hth₀, hend⟩ := hkept.threads m th hm
    exact hend (hx.threads g₀ (List.mem_of_getElem? hg₀) th₀ (List.mem_of_getElem? hth₀))

/-- What a team is known to be after an update of it. -/
theorem of_team?_updTeam {s : State} {n : Nat} {f : Team → Team} {y : Team} (h : (s.updTeam n f).team? n = some y)
    {p : Team → Prop} (hp : ∀ x, p (f x)) (hid : ∀ x, (f x).id = x.id := by intro _; rfl) : p y := by
  rw [team?_updTeam s n n f hid, Option.map_eq_some_iff] at h
  obtain ⟨x, hx, rfl⟩ := h
  rw [if_pos (team?_id hx)]
  exact hp x

theorem irrevocable_freeLocks (s : State) (p : ThreadRef → Bool) : Irrevocable s (s.freeLocks p) := by
  refine .of_teams_eq rfl rfl rfl rfl rfl fun k' hk' l hl => ?_
  obtain ⟨k, hk, rfl⟩ := List.mem_map.mp hk'
  exact ⟨k, hk, (List.mem_filter.mp hl).1⟩

theorem freeLocks_free {s : State} {p : ThreadRef → Bool} : ∀ k ∈ (s.freeLocks p).cores, ∀ l ∈ k.locks, p l.holder = false := by
  intro k' hk' l hl
  obtain ⟨k, -, rfl⟩ := List.mem_map.mp hk'
  simpa using (List.mem_filter.mp hl).2

theorem irrevocable_dropBundles (s : State) (p : ThreadRef → Bool) : Irrevocable s (s.dropBundles p) := by
  refine .of_teams_eq rfl rfl rfl rfl rfl fun k' hk' l hl => ?_
  obtain ⟨k, hk, rfl⟩ := List.mem_map.mp hk'
  exact ⟨k, hk, hl⟩

/-- The state in which a team has no object open. -/
def opensEmptied (s : State) (n : Nat) : State := s.updTeam n fun t => { t with opens := [] }

/-- `closeAll` on its way empties the team's list of open objects. -/
theorem closeAll_through (s : State) (tm : Team) :
    ∃ u, Irrevocable s u ∧ Irrevocable (opensEmptied u tm.id) (s.closeAll tm) := by
  delta State.closeAll
  extract_lets lowered emptied doomed dropped
  refine ⟨lowered, ?_, ?_⟩
  · refine .foldl (fun s o => ?_) tm.opens s
    split
    · exact .refl s
    · exact .of_teams_eq rfl rfl rfl rfl rfl (locks_of_cores_eq rfl)
  · have hdropped : Irrevocable emptied dropped := .foldl (fun s ob => irrevocable_updCore s _) doomed emptied
    exact hdropped.trans (.of_teams_eq rfl rfl rfl rfl rfl (locks_of_cores_eq rfl))

theorem irrevocable_opensEmptied (s : State) (n : Nat) : Irrevocable s (opensEmptied s n) :=
  irrevocable_updTeam s n fun _ => .of_groups_eq id (fun _ => rfl) rfl

theorem irrevocable_closeAll (s : State) (tm : Team) : Irrevocable s (s.closeAll tm) := by
  obtain ⟨u, hsu, hut⟩ := closeAll_through s tm
  exact (hsu.trans (irrevocable_opensEmptied u tm.id)).trans hut

theorem closeAll_opens {s : State} {tm y : Team} (h : (s.closeAll tm).team? tm.id = some y) : y.opens = [] := by
  obtain ⟨u, -, hut⟩ := closeAll_through s tm
  obtain ⟨x, hx, hxy⟩ := hut.teams _ y h
  exact hxy.opens (of_team?_updTeam (p := fun t => t.opens = []) hx fun _ => rfl)

/-- `stopTeam` ends the team's threads, then frees its locks and closes its objects. -/
theorem stopTeam_through (s : State) (tm : Team) :
    ∃ u, Irrevocable (s.updTeam tm.id stoppedTeam) u ∧
      s.stopTeam tm = ((u.freeLocks fun r => r.team = tm.id).closeAll tm).dropBundles fun r => r.team = tm.id := by
  refine ⟨_, ?_, rfl⟩
  exact (irrevocable_updCore _ _).trans (.of_teams_eq rfl rfl rfl rfl rfl (locks_of_cores_eq rfl))

theorem irrevocable_stopTeam (s : State) (tm : Team) : Irrevocable s (s.stopTeam tm) := by
  obtain ⟨u, hu, heq⟩ := stopTeam_through s tm
  rw [heq]
  exact (((irrevocable_updTeam s _ teamKept_stoppedTeam).trans hu).trans (irrevocable_freeLocks u _)).trans
    ((irrevocable_closeAll _ tm).trans (irrevocable_dropBundles _ _))

theorem stopTeam_stopped {s : State} {tm y : Team} (h : (s.stopTeam tm).team? tm.id = some y) : TeamStopped y := by
  obtain ⟨u, hu, heq⟩ := stopTeam_through s tm
  have hrest : Irrevocable (s.updTeam tm.id stoppedTeam) (s.stopTeam tm) := by
    rw [heq]
    exact (hu.trans (irrevocable_freeLocks u _)).trans ((irrevocable_closeAll _ tm).trans (irrevocable_dropBundles _ _))
  obtain ⟨x, hx, hxy⟩ := hrest.teams _ y h
  exact hxy.stopped (of_team?_updTeam hx teamStopped_stoppedTeam)

theorem stopTeam_opens {s : State} {tm y : Team} (h : (s.stopTeam tm).team? tm.id = some y) : y.opens = [] := by
  obtain ⟨u, -, heq⟩ := stopTeam_through s tm
  rw [heq] at h
  obtain ⟨x, hx, hxy⟩ := (irrevocable_dropBundles _ _).teams _ y h
  exact hxy.opens (closeAll_opens hx)

theorem stopTeam_locks {s : State} {tm : Team} : ∀ k ∈ (s.stopTeam tm).cores, ∀ l ∈ k.locks, l.holder.team ≠ tm.id := by
  obtain ⟨u, -, heq⟩ := stopTeam_through s tm
  intro k hk l hl
  rw [heq] at hk
  obtain ⟨k', hk', hl'⟩ := ((irrevocable_closeAll _ tm).trans (irrevocable_dropBundles _ _)).locks k hk l hl
  simpa using freeLocks_free k' hk' l hl'

/-! ## The kill record (R145) -/

theorem leBytes_length (v n : Nat) : (leBytes v n).length = n := by
  induction n generalizing v with
  | zero => rfl
  | succ n ih => simp [leBytes, ih]

theorem killRecord_length (pkt : Word) (tm : Team) (c : Cause) (tid epc : Nat) : (killRecord pkt tm c tid epc).length = 64 := by
  simp [killRecord, leBytes_length]

/-- A kill record begins with its type, 1, and the cause. -/
theorem killRecord_head (pkt : Word) (tm : Team) (c : Cause) (tid epc : Nat) :
    (killRecord pkt tm c tid epc).getD 0 0 = 1 ∧ (killRecord pkt tm c tid epc).getD 1 0 = c := by
  have hkind : BitVec.ofNat 8 (1 + 256 * c.toNat) = 1 := by bv_omega
  have hcause : BitVec.ofNat 8 ((1 + 256 * c.toNat) / 256) = c := by
    rw [show (1 + 256 * c.toNat) / 256 = c.toNat by omega, BitVec.ofNat_toNat, BitVec.setWidth_eq]
  have hfirst : leBytes (1 + 256 * c.toNat) 4 = BitVec.ofNat 8 (1 + 256 * c.toNat) :: BitVec.ofNat 8 ((1 + 256 * c.toNat) / 256) ::
      leBytes ((1 + 256 * c.toNat) / 256 / 256) 2 := rfl
  simp [killRecord, hfirst, hkind, hcause]

/-- A kill record is posted and the launch's killed teams are counted, the last acts of a KILL. -/
def accounted (s : State) (tm : Team) (c : Cause) (tid epc : Nat) : State :=
  (s.postKill tm c tid epc).updLaunch tm.launch fun la => { la with killed := la.killed + 1 }

section
variable (s : State) (tm : Team) (c : Cause) (tid epc : Nat)

@[simp] theorem postKill_launches : (s.postKill tm c tid epc).launches = s.launches := by
  unfold State.postKill; split <;> rfl

@[simp] theorem accounted_teams : (accounted s tm c tid epc).teams = s.teams := by
  unfold accounted State.postKill; split <;> rfl

@[simp] theorem accounted_cores : (accounted s tm c tid epc).cores = s.cores := by
  unfold accounted State.postKill; split <;> rfl

@[simp] theorem accounted_mem : (accounted s tm c tid epc).mem = s.mem := by
  unfold accounted State.postKill; split <;> rfl

@[simp] theorem accounted_hostMem : (accounted s tm c tid epc).hostMem = s.hostMem := by
  unfold accounted State.postKill; split <;> rfl

@[simp] theorem accounted_team? (n : Nat) : (accounted s tm c tid epc).team? n = s.team? n := by
  simp [State.team?]

variable {s tm} {la : Launch} (h : s.launch? tm.launch = some la)
include h

theorem accounted_killRecs :
    (accounted s tm c tid epc).killRecs = s.killRecs ++ [(la.fn, la.q, killRecord la.pkt tm c tid epc)] := by
  simp [accounted, State.postKill, h]

theorem accounted_launch? :
    (accounted s tm c tid epc).launch? tm.launch = some { la with killed := la.killed + 1 } := by
  have hid : la.id = tm.launch := by simpa using List.find?_some h
  have hpost : (s.postKill tm c tid epc).launch? tm.launch = some la := by simpa [State.launch?] using h
  unfold accounted
  rw [launch?_updLaunch _ _ _ _ (by intro _; rfl), hpost, Option.map_some, if_pos hid]

end

/-! ## KILL -/

/-- The parts of a KILL of a team that has not ended. -/
theorem killTeam_parts {s : State} {n : Nat} {tm : Team} (ht : s.team? n = some tm) (hk : tm.state ≠ .killing) (he : tm.state ≠ .ended)
    (c : Cause) (who : Option ThreadRef) :
    ∃ tid epc, s.killTeam n c who = accounted ((s.stopTeam tm).errorShared tm c) tm c tid epc := by
  simp only [State.killTeam, ht, hk, he, decide_false, Bool.or_self, Bool.false_eq_true, if_false]
  cases who with
  | none => exact ⟨_, _, rfl⟩
  | some r => exact ⟨_, _, rfl⟩

theorem teamsKept_killTeam {s : State} {n : Nat} {tm : Team} (ht : s.team? n = some tm) (hk : tm.state ≠ .killing)
    (he : tm.state ≠ .ended) (c : Cause) (who : Option ThreadRef) : TeamsKept s (s.killTeam n c who) := by
  obtain ⟨tid, epc, heq⟩ := killTeam_parts ht hk he c who
  intro u y hy
  rw [heq, accounted_team?] at hy
  exact ((irrevocable_stopTeam s tm).trans (irrevocable_errorShared _ tm c)).teams u y hy

theorem Irrevocable.launch {s t : State} (h : Irrevocable s t) {l : Nat} {la : Launch} (hl : s.launch? l = some la) :
    ∃ lb, t.launch? l = some lb ∧ account lb = account la := by
  have := h.launches l
  rwa [hl, Option.map_some, Option.map_eq_some_iff] at this

theorem mem_of_thread? {s : State} {q : ThreadRef} {u : Thread} (h : s.thread? q = some u) :
    ∃ x g, s.team? q.team = some x ∧ g ∈ x.groups ∧ u ∈ g.threads := by
  simp only [State.thread?, State.group?, Option.bind_eq_some_iff] at h
  obtain ⟨g, ⟨x, hx, hg⟩, hu⟩ := h
  exact ⟨x, g, hx, List.mem_of_getElem? hg, List.mem_of_getElem? hu⟩

/-- R109: a KILL of a team that has not ended. -/
theorem killed_killTeam {s : State} {n : Nat} {tm : Team} (ht : s.team? n = some tm) (hk : tm.state ≠ .killing)
    (he : tm.state ≠ .ended) (c : Cause) (who : Option ThreadRef) : Killed s (s.killTeam n c who) tm c := by
  obtain ⟨tid, epc, heq⟩ := killTeam_parts ht hk he c who
  have herr := irrevocable_errorShared (s.stopTeam tm) tm c
  have hall := (irrevocable_stopTeam s tm).trans herr
  rw [heq]
  generalize (s.stopTeam tm).errorShared tm c = e at herr hall
  have hteam : ∀ y, e.team? tm.id = some y → TeamStopped y ∧ y.opens = [] := fun y hy => by
    obtain ⟨x, hx, hxy⟩ := herr.teams _ y hy
    exact ⟨hxy.stopped (stopTeam_stopped hx), hxy.opens (stopTeam_opens hx)⟩
  constructor
  case threads =>
    intro q u hq hu
    obtain ⟨x, g, hx, hg, hmem⟩ := mem_of_thread? hu
    have hend := (hteam x (by simpa [hq] using hx)).1.threads g hg u hmem
    exact ⟨hend.status, hend.record, hend.grant⟩
  case team =>
    intro x hx
    obtain ⟨hst, hop⟩ := hteam x (by simpa using hx)
    exact ⟨hst.killing, hop⟩
  case launch =>
    intro la hla
    obtain ⟨lb, hlb, hacc⟩ := hall.launch hla
    exact ⟨_, accounted_launch? c tid epc hlb, congrArg (·.2.2 + 1) hacc⟩
  case locks =>
    intro k hk l hl
    rw [accounted_cores] at hk
    obtain ⟨k', hk', hl'⟩ := herr.locks k hk l hl
    exact stopTeam_locks k' hk' l hl'
  case record =>
    intro la hla
    obtain ⟨lb, hlb, hacc⟩ := hall.launch hla
    simp only [account, Prod.mk.injEq] at hacc
    obtain ⟨hfn, hq, -⟩ := hacc
    refine ⟨killRecord lb.pkt tm c tid epc, ?_, killRecord_length .., killRecord_head ..⟩
    rw [accounted_killRecs c tid epc hlb, hfn, hq, hall.killRecs]
  case memory => simpa using hall.memory

/-! ## A cause is noted, then its mode acts -/

/-- The state in which a cause is noted and its thread has left the bundle, before the mode acts (R105). -/
def causeNoted (s : State) (r : ThreadRef) (c : Cause) : State :=
  let u := (s.setCause r.team (r.tid / 32) c).dropBundles (· == r)
  { u with issue := { u.issue with raised := u.issue.raised ++ [(r, c)] } }

theorem team?_causeNoted {s : State} {r : ThreadRef} {tm : Team} (h : s.team? r.team = some tm) (c : Cause) :
    (causeNoted s r c).team? r.team = some { tm with
      groups := tm.groups.modify (r.tid / 32) fun g => { g with causes := g.causes ||| BitVec.ofNat 256 (2 ^ c.toNat) } } := by
  change (s.setCause r.team (r.tid / 32) c).team? r.team = _
  unfold State.setCause State.updGroup
  rw [team?_updTeam _ _ _ _ (by intro _; rfl), h, Option.map_some, if_pos (team?_id h)]

theorem group?_causeNoted {s : State} {r : ThreadRef} {tm : Team} {g : Group} (ht : s.team? r.team = some tm)
    (hg : tm.groups[r.tid / 32]? = some g) (c : Cause) :
    (causeNoted s r c).group? r.team (r.tid / 32) = some { g with causes := g.causes ||| BitVec.ofNat 256 (2 ^ c.toNat) } := by
  simp [State.group?, team?_causeNoted ht c, hg]

theorem thread?_causeNoted {s : State} {r : ThreadRef} {tm : Team} {g : Group} {th : Thread} (ht : s.team? r.team = some tm)
    (hg : tm.groups[r.tid / 32]? = some g) (hth : g.threads[r.tid % 32]? = some th) (c : Cause) :
    (causeNoted s r c).thread? r = some th := by
  simp [State.thread?, group?_causeNoted ht hg c, hth]

/-- R105: the noted cause has its bit. -/
theorem causes_or_causeBit (x : BitVec 256) (c : Cause) : (x ||| BitVec.ofNat 256 (2 ^ c.toNat)).getLsbD c.toNat = true := by
  have hlt : c.toNat < 256 := c.isLt
  rw [BitVec.getLsbD_or, BitVec.getLsbD_ofNat, Nat.testBit_two_pow_self, decide_eq_true hlt]
  simp

/-- R104: where HANDLER has no handler to enter, the noted cause is delivered as KILL. -/
theorem deliver_eq_killTeam {s : State} {r : ThreadRef} {tm : Team} {g : Group} {th : Thread} {c : Cause} (ht : s.team? r.team = some tm)
    (hg : tm.groups[r.tid / 32]? = some g) (hth : g.threads[r.tid % 32]? = some th) (hmode : s.modeOf tm c = 1)
    (hnone : s.handlerOf tm = 0xFFFFFFFF ∨ th.ecause.getLsbD 11 = true) (inrec : Bool) :
    s.deliver r c inrec = (causeNoted s r c).killTeam r.team c (some r) := by
  have hmode' : (causeNoted s r c).modeOf tm c = 1 := hmode
  have hkill : (decide ((causeNoted s r c).handlerOf tm = 0xFFFFFFFF) ||
      (((causeNoted s r c).thread? r).map (·.inHandler)).getD false) = true := by
    rw [thread?_causeNoted ht hg hth c, Bool.or_eq_true, decide_eq_true_eq]
    exact hnone
  unfold State.deliver
  rw [ht]
  change (match (causeNoted s r c).modeOf tm c with | 0 => _ | 1 => _ | 2 => _ | _ => _) = _
  rw [hmode']
  exact if_pos hkill

theorem TeamsKept.group {s t : State} (h : TeamsKept s t) {n m : Nat} {y : Group} (hy : t.group? n m = some y) :
    ∃ x, s.group? n m = some x ∧ GroupKept x y := by
  simp only [State.group?, Option.bind_eq_some_iff] at hy
  obtain ⟨ty, hty, hgy⟩ := hy
  obtain ⟨tx, htx, hkept⟩ := h n ty hty
  obtain ⟨x, hx, hxy⟩ := hkept.groups m y hgy
  exact ⟨x, by simp [State.group?, htx, hx], hxy⟩

/-- Settles O20: the delivery is a KILL of the team in the state that has noted the cause; the KILL reports that cause, and
undoes no bit of the bitmap. -/
theorem handlerModeWithoutHandlerKills : Obligations.HandlerModeWithoutHandlerKills := by
  unfold Obligations.HandlerModeWithoutHandlerKills
  intro s r tm g th c inrec ht hg hth hmode hnone hk he
  have hteam := team?_causeNoted ht c
  rw [deliver_eq_killTeam ht hg hth hmode hnone inrec]
  refine ⟨?_, fun g' hg' => ?_⟩
  · obtain ⟨threads, team, launch, locks, record, memory⟩ := killed_killTeam hteam hk he c (some r)
    exact ⟨threads, team, launch, locks, record, memory⟩
  · obtain ⟨x, hx, hkept⟩ := (teamsKept_killTeam hteam hk he c (some r)).group hg'
    rw [group?_causeNoted ht hg c] at hx
    obtain rfl := Option.some.inj hx
    exact hkept.causes _ (causes_or_causeBit g.causes c)

end Sys2Proof.Proofs
end

section
/-!
Proofs about the integer words (R288 to R298): the statements of the family 18_isa_integer.
-/
namespace Sys2Proof.Proofs

open Sys2Proof Sys2Proof.Machine Sys2Proof.Claims

/-! ## Only threads differ -/

theorem onlyThreads_refl (s : State) : OnlyThreads s s := ⟨rfl, rfl⟩

theorem onlyThreads_trans {s t u : State} (hst : OnlyThreads s t) (htu : OnlyThreads t u) : OnlyThreads s u where
  rest := by
    have h := htu.rest
    rw [hst.rest] at h
    exact h
  teams := htu.teams.trans hst.teams

theorem bare_modify_threads (tm : Team) (g n : Nat) (f : Thread → Thread) :
    bare { tm with groups := tm.groups.modify g fun gr => { gr with threads := gr.threads.modify n f } } = bare tm := by
  have hgroups : (tm.groups.modify g fun gr => { gr with threads := gr.threads.modify n f }).map
      (fun gr => { gr with threads := [] }) = tm.groups.map fun gr => { gr with threads := [] } := by
    apply List.ext_getElem?
    intro k
    rw [List.getElem?_map, List.getElem?_map, List.getElem?_modify]
    cases tm.groups[k]? with
    | none => rfl
    | some gr => by_cases hk : g = k <;> simp [hk]
  unfold bare
  rw [hgroups]

theorem onlyThreads_updThread (s : State) (r : ThreadRef) (f : Thread → Thread) : OnlyThreads s (s.updThread r f) where
  rest := rfl
  teams := by
    unfold State.updThread State.updGroup State.updTeam
    rw [List.map_map]
    refine List.map_congr_left fun tm _ => ?_
    simp only [Function.comp_apply]
    split
    · exact bare_modify_threads ..
    · rfl

/-! ## A word on its own thread, in any bundle -/

theorem thread?_updThread (s : State) (r q : ThreadRef) (f : Thread → Thread) :
    (s.updThread r f).thread? q = (s.thread? q).map fun th => if q = r then f th else th := by
  by_cases h : q = r
  · subst h
    cases hth : s.thread? q with
    | some th => simp [thread?_updThread_self f hth]
    | none =>
      unfold State.thread? at hth ⊢
      rw [group?_updThread]
      cases hg : s.group? q.team (q.tid / 32) with
      | none => rfl
      | some g => simpa [hg] using hth
  · simp [thread?_updThread_ne s f h, h]

/-- One update for each of several distinct threads updates each of them once. -/
theorem forRefs_updThread (f : Thread → Thread) {rs : List ThreadRef} (hnodup : rs.Nodup) (s : State) :
    OnlyThreads s (s.forRefs rs fun u r => u.updThread r f) ∧
    ∀ q, (s.forRefs rs fun u r => u.updThread r f).thread? q = (s.thread? q).map fun th => if q ∈ rs then f th else th := by
  induction rs generalizing s with
  | nil => exact ⟨onlyThreads_refl s, fun q => by simp [State.forRefs]⟩
  | cons r rs ih =>
    obtain ⟨hr, hrs⟩ := List.nodup_cons.mp hnodup
    obtain ⟨honly, hthreads⟩ := ih hrs (s.updThread r f)
    refine ⟨onlyThreads_trans (onlyThreads_updThread s r f) honly, fun q => ?_⟩
    refine (hthreads q).trans ?_
    rw [thread?_updThread, Option.map_map]
    congr 1
    funext th
    by_cases hq : q = r
    · subst hq; simp [hr]
    · simp [hq]

/-- Two actions give one result where they agree in every state that the second one can reach. -/
theorem forRefs_congr {f g : State → ThreadRef → State} {P : State → Prop} {rs : List ThreadRef}
    (hkept : ∀ u r, P u → P (g u r)) (hagree : ∀ u, P u → ∀ r ∈ rs, f u r = g u r) {s : State} (hs : P s) :
    s.forRefs rs f = s.forRefs rs g := by
  induction rs generalizing s with
  | nil => rfl
  | cons r rs ih =>
    change (f s r).forRefs rs f = (g s r).forRefs rs g
    rw [hagree s hs r List.mem_cons_self]
    exact ih (fun u hu q hq => hagree u hu q (List.mem_cons_of_mem r hq)) (hkept s r hs)

/-- What decides which threads of a bundle act: the bundle and the NREG of every group. -/
def SameBundle (s u : State) : Prop := u.issue = s.issue ∧ ∀ r, u.nregOf r = s.nregOf r

/-- R42: where every thread of the bundle keeps the word's field rules, a word on its own thread acts for each of them. -/
theorem eachIssuing_updThread {i : Instr} {s : State} (h : Issuing i s) (f : Thread → Thread) :
    s.eachIssuing i (fun u r => u.updThread r f) = s.forRefs s.issue.bundle fun u r => u.updThread r f := by
  unfold State.eachIssuing
  refine forRefs_congr (P := SameBundle s) (fun u r hu => ?_) (fun u hu r hr => ?_) ⟨rfl, fun _ => rfl⟩
  · obtain ⟨hissue, hnreg⟩ := hu
    exact ⟨hissue, fun q => (nregOf_updThread u r q f).trans (hnreg q)⟩
  · obtain ⟨hissue, hnreg⟩ := hu
    obtain ⟨n, hn, hfield⟩ := h.fields r hr
    simp [hissue, hr, hnreg, hn, hfield]

/-- R42, R45: such a word completes; the threads whose predicate is true take its effect, the others push zero. -/
theorem aluWord_eachThread {i : Instr} {s : State} (h : Issuing i s) (p : BitVec 3) (f : Thread → Thread) :
    ∃ t, aluWord i p f s = .next t ∧ EachThread s t (guarded p f) := by
  obtain ⟨honly, hthreads⟩ := forRefs_updThread (guarded p f) h.nodup s
  exact ⟨_, congrArg Host.Outcome.next (eachIssuing_updThread h (guarded p f)), honly, hthreads⟩

/-! ## IADDS (R289) -/

theorem exec_iadds (c w : Bool) (d : BitVec 6) (a b : BitVec 7) (p : BitVec 3) (s : State) :
    exec (.iadds c w d a b p) s = execIadds c w d a b p s := rfl

theorem result_eq_put (th : Thread) (w : Bool) (d : BitVec 6) (v : Word) : th.result w d.toNat v = put w d v th := by
  cases w <;> rfl

theorem orFlags_flOF (th : Thread) : th.orFlags flOF = { th with fflags := th.fflags ||| 4 } := rfl

theorem satInt_eq_max_min (x lo hi : Int) (h : lo ≤ hi) : satInt x lo hi = max lo (min x hi) := by
  unfold satInt
  split <;> omega

/-- R289: clamping changes the sum exactly where it leaves the range of a word. -/
theorem satAdd_eq (a b : Word) : satAdd a b =
    (BitVec.ofInt 32 (max (-2 ^ 31) (min (a.toInt + b.toInt) (2 ^ 31 - 1))),
      decide (a.toInt + b.toInt < -2 ^ 31 ∨ 2 ^ 31 - 1 < a.toInt + b.toInt)) := by
  simp only [satAdd, satInt_eq_max_min _ (-2147483648) 2147483647 (by decide)]
  refine Prod.ext rfl ?_
  rw [Bool.eq_iff_iff, bne_iff_ne, decide_eq_true_eq]
  omega

/-- Settles O1: IADDS is a word on its own thread, whose effect is the clamped sum and, where clamping changed it, OF. -/
theorem saturatingAdd : Obligations.SaturatingAdd := by
  unfold Obligations.SaturatingAdd
  intro c w d a b p s h
  rw [exec_iadds]
  unfold execIadds
  simp only [satAdd_eq, decide_eq_true_eq, result_eq_put, orFlags_flOF]
  exact aluWord_eachThread h p _

end Sys2Proof.Proofs
end

section
/-!
Proofs about FMIN and FMAX (R307): the statements of the family 19_isa_float.
-/
namespace Sys2Proof.Proofs

open Sys2Proof Sys2Proof.Machine Sys2Proof.Claims

/-! ## The value of an FP32 pattern

The finite values of FP32 are whole multiples of 2^-149 (R21), so that comparing them is comparing integers. -/

/-- The multiple of 2^-149 that a pattern without its sign stands for (R21). An infinity's pattern is read on by the same rule, as
2^128, which lies above every finite value. -/
def magnitude32 (k : Nat) : Nat := if k / 2 ^ 23 = 0 then k else (k % 2 ^ 23 + 2 ^ 23) * 2 ^ (k / 2 ^ 23 - 1)

theorem magnitude32_subnormal {k : Nat} (h : k / 2 ^ 23 = 0) : magnitude32 k = k := if_pos h

theorem magnitude32_normal {k e : Nat} (h : k / 2 ^ 23 = e + 1) : magnitude32 k = (k % 2 ^ 23 + 2 ^ 23) * 2 ^ e := by
  rw [magnitude32, h, if_neg e.succ_ne_zero, Nat.add_sub_cancel]

/-- Patterns without sign are in the order of their values: a step up adds one to the fraction, or enters the next binade at its start. -/
theorem magnitude32_strictMono : StrictMono magnitude32 := by
  refine strictMono_nat_of_lt_succ fun k => ?_
  have hpos (e : Nat) : 0 < 2 ^ e := Nat.two_pow_pos e
  by_cases hlast : k % 2 ^ 23 = 2 ^ 23 - 1
  · have hnext : (k + 1) / 2 ^ 23 = k / 2 ^ 23 + 1 := by omega
    have hfrac : (k + 1) % 2 ^ 23 = 0 := by omega
    rw [magnitude32_normal hnext, hfrac]
    cases he : k / 2 ^ 23 with
    | zero => rw [magnitude32_subnormal he]; omega
    | succ e => rw [magnitude32_normal he, hlast, pow_succ]; have := hpos e; omega
  · have hnext : (k + 1) / 2 ^ 23 = k / 2 ^ 23 := by omega
    have hfrac : (k + 1) % 2 ^ 23 = k % 2 ^ 23 + 1 := by omega
    cases he : k / 2 ^ 23 with
    | zero => rw [magnitude32_subnormal he, magnitude32_subnormal (hnext.trans he)]; omega
    | succ e =>
      rw [magnitude32_normal he, magnitude32_normal (hnext.trans he), hfrac]
      exact Nat.mul_lt_mul_of_pos_right (by omega) (hpos e)

/-- The multiple of 2^-149 that a pattern stands for. -/
def value32 (a : Word) : Int :=
  if a.getLsbD 31 then -(magnitude32 (a.toNat % 2 ^ 31) : Int) else magnitude32 (a.toNat % 2 ^ 31)

/-! ## What a pattern decodes to (R21, R22) -/

/-- R21 for the formats that have infinities: the largest exponent is theirs and the NaNs', the least that of the subnormals. -/
theorem fdec_of_not_e4m3 {f : Fmt} (hf : f.e4m3 = false) (code : Nat) : fdec f code =
    if code / 2 ^ f.fb % 2 ^ f.eb = 2 ^ f.eb - 1 then
      if code % 2 ^ f.fb = 0 then .inf (code / 2 ^ (f.eb + f.fb) % 2 = 1) else .nan (code % 2 ^ f.fb < 2 ^ (f.fb - 1))
    else if code / 2 ^ f.fb % 2 ^ f.eb = 0 then
      .fin (code / 2 ^ (f.eb + f.fb) % 2 = 1) (code % 2 ^ f.fb) (1 - f.bias - f.fb)
    else .fin (code / 2 ^ (f.eb + f.fb) % 2 = 1) (code % 2 ^ f.fb + 2 ^ f.fb)
      ((code / 2 ^ f.fb % 2 ^ f.eb : Nat) - f.bias - f.fb) := by
  simp [fdec, hf]

/-- R21 for FP32: the sign is bit 31, the exponent bits 30 to 23, the fraction bits 22 to 0. -/
theorem fdec_fmtF32 (a : Word) : fdec fmtF32 a.toNat =
    if a.toNat / 2 ^ 23 % 2 ^ 8 = 255 then
      if a.toNat % 2 ^ 23 = 0 then .inf (a.getLsbD 31) else .nan (a.toNat % 2 ^ 23 < 2 ^ 22)
    else if a.toNat / 2 ^ 23 % 2 ^ 8 = 0 then .fin (a.getLsbD 31) (a.toNat % 2 ^ 23) (-149)
    else .fin (a.getLsbD 31) (a.toNat % 2 ^ 23 + 2 ^ 23) ((a.toNat / 2 ^ 23 % 2 ^ 8 : Nat) - 127 - 23) := by
  rw [BitVec.getLsbD, Nat.testBit_eq_decide_div_mod_eq]
  exact fdec_of_not_e4m3 (f := fmtF32) rfl a.toNat

theorem fdec_of_isNaN32 {a : Word} (h : isNaN32 a) : fdec fmtF32 a.toNat = .nan (!a.getLsbD 22) := by
  have hquiet : decide (a.toNat % 2 ^ 23 < 2 ^ 22) = !a.getLsbD 22 := by
    rw [BitVec.getLsbD, Nat.testBit_eq_decide_div_mod_eq, ← decide_not, decide_eq_decide]
    omega
  rw [fdec_fmtF32, if_pos (by omega), if_neg (by omega), hquiet]

theorem fdec_of_infinity {a : Word} (h : a.toNat % 2 ^ 31 = 0x7F800000) : fdec fmtF32 a.toNat = .inf (a.getLsbD 31) := by
  rw [fdec_fmtF32, if_pos (by omega), if_pos (by omega)]

/-- A finite pattern decodes to its sign and a mantissa that, brought to the exponent -149, is its value. -/
theorem fdec_of_finite {a : Word} (h : a.toNat % 2 ^ 31 < 0x7F800000) :
    ∃ m e, fdec fmtF32 a.toNat = .fin (a.getLsbD 31) m e ∧ -149 ≤ e ∧ alignInt (a.getLsbD 31) m e (-149) = value32 a := by
  have hexp : a.toNat / 2 ^ 23 % 2 ^ 8 = a.toNat % 2 ^ 31 / 2 ^ 23 := by omega
  rw [fdec_fmtF32, hexp, if_neg (by omega), value32]
  cases he : a.toNat % 2 ^ 31 / 2 ^ 23 with
  | zero =>
    rw [magnitude32_subnormal he]
    refine ⟨_, _, if_pos rfl, le_rfl, ?_⟩
    rw [show a.toNat % 2 ^ 31 = a.toNat % 2 ^ 23 by omega]
    simp [alignInt]
  | succ e =>
    rw [magnitude32_normal he, show a.toNat % 2 ^ 31 % 2 ^ 23 = a.toNat % 2 ^ 23 by omega]
    refine ⟨_, _, if_neg e.succ_ne_zero, by omega, ?_⟩
    simp only [alignInt, show ((e + 1 : Nat) - 127 - 23 - -149 : Int).toNat = e by omega]
    norm_cast

theorem fdec_ne_nan {a : Word} (h : ¬ isNaN32 a) (g : Bool) : fdec fmtF32 a.toNat ≠ .nan g := by
  obtain hinf | hfin := (not_lt.mp h).eq_or_lt
  · simp [fdec_of_infinity hinf]
  · obtain ⟨m, e, h, -⟩ := fdec_of_finite hfin
    simp [h]

/-! ## The order of the values is the order of R307 -/

/-- The order of R307 is the order of the values, with -0 below +0. -/
theorem rank32_lt_iff (a b : Word) : rank32 a < rank32 b ↔
    value32 a < value32 b ∨ value32 a = value32 b ∧ a.getLsbD 31 = true ∧ b.getLsbD 31 = false := by
  have hlt (i j : Nat) : magnitude32 i < magnitude32 j ↔ i < j := magnitude32_strictMono.lt_iff_lt
  have hsign (x : Word) (hx : x.getLsbD 31 = false) : x.toNat = x.toNat % 2 ^ 31 := by
    rw [BitVec.getLsbD, Nat.testBit_eq_decide_div_mod_eq, decide_eq_false_iff_not] at hx
    omega
  unfold rank32 value32
  cases ha : a.getLsbD 31 <;> cases hb : b.getLsbD 31
  · rw [hsign a ha, hsign b hb]
    simp only [Bool.false_eq_true, if_false, false_and, and_false, or_false, Nat.cast_lt, hlt, Nat.mod_mod]
  · simp
    omega
  · simp
    omega
  · simp only [if_true, Bool.true_eq_false, and_false, or_false, sub_lt_sub_iff_right, neg_lt_neg_iff, Nat.cast_lt, hlt]

theorem rank32_injective : Function.Injective rank32 := by
  intro a b h
  unfold rank32 at h
  rw [BitVec.getLsbD, BitVec.getLsbD, Nat.testBit_eq_decide_div_mod_eq, Nat.testBit_eq_decide_div_mod_eq] at h
  simp only [decide_eq_true_eq] at h
  apply BitVec.eq_of_toNat_eq
  split at h <;> split at h <;> omega

/-! ## Comparing decoded operands -/

/-- Aligning further down multiplies by a power of two. -/
theorem alignInt_mul_two_pow (neg : Bool) (m : Nat) {e q r : Int} (hqe : q ≤ e) (hrq : r ≤ q) :
    alignInt neg m e q * 2 ^ (q - r).toNat = alignInt neg m e r := by
  have hexp : (e - r).toNat = (e - q).toNat + (q - r).toNat := by omega
  unfold alignInt
  cases neg <;> simp [hexp, pow_add, mul_assoc]

theorem ite_eq_sign (x : Int) : (if x < 0 then -1 else if x = 0 then 0 else 1) = x.sign := by
  obtain hneg | rfl | hpos := lt_trichotomy x 0
  · rw [if_pos hneg, Int.sign_eq_neg_one_of_neg hneg]
  · rfl
  · rw [if_neg hpos.not_gt, if_neg hpos.ne', Int.sign_eq_one_of_pos hpos]

/-- Two finite operands compare as their mantissas do at any exponent below both. -/
theorem cmpV_fin_fin (s t : Bool) (m n : Nat) {e f r : Int} (he : r ≤ e) (hf : r ≤ f) :
    cmpV (.fin s m e) (.fin t n f) = some (alignInt s m e r - alignInt t n f r).sign := by
  have hr : r ≤ min e f := le_min he hf
  have hpow : (0 : Int) < 2 ^ (min e f - r).toNat := by positivity
  rw [← alignInt_mul_two_pow s m (min_le_left e f) hr, ← alignInt_mul_two_pow t n (min_le_right e f) hr, ← sub_mul, Int.sign_mul,
    Int.sign_eq_one_of_pos hpow, mul_one]
  exact congrArg some (ite_eq_sign _)

/-- Every finite value lies between the infinities. -/
theorem value32_of_finite_bounds {a : Word} (h : a.toNat % 2 ^ 31 < 0x7F800000) :
    -(magnitude32 0x7F800000 : Int) < value32 a ∧ value32 a < magnitude32 0x7F800000 := by
  have := magnitude32_strictMono h
  unfold value32
  split <;> omega

theorem value32_of_infinity {a : Word} (h : a.toNat % 2 ^ 31 = 0x7F800000) :
    value32 a = if a.getLsbD 31 then -(magnitude32 0x7F800000 : Int) else magnitude32 0x7F800000 := by
  rw [value32, h]

/-- The model's comparison of two numbers is the comparison of their values. -/
theorem cmpV_fdec {a b : Word} (ha : ¬ isNaN32 a) (hb : ¬ isNaN32 b) :
    cmpV (fdec fmtF32 a.toNat) (fdec fmtF32 b.toNat) = some (value32 a - value32 b).sign := by
  have hpos : (0 : Int) < magnitude32 0x7F800000 := by
    exact_mod_cast magnitude32_strictMono (show 0 < 0x7F800000 by decide)
  obtain hainf | hafin := (not_lt.mp ha).eq_or_lt <;> obtain hbinf | hbfin := (not_lt.mp hb).eq_or_lt
  · rw [fdec_of_infinity hainf, fdec_of_infinity hbinf, value32_of_infinity hainf, value32_of_infinity hbinf, ← ite_eq_sign]
    refine congrArg some ?_
    generalize (magnitude32 0x7F800000 : Int) = top at hpos
    cases a.getLsbD 31 <;> cases b.getLsbD 31 <;> simp <;> omega
  · obtain ⟨n, f, hb, -⟩ := fdec_of_finite hbfin
    obtain ⟨hlow, hhigh⟩ := value32_of_finite_bounds hbfin
    rw [fdec_of_infinity hainf, hb, value32_of_infinity hainf]
    refine congrArg some ?_
    cases a.getLsbD 31
    · exact (Int.sign_eq_one_of_pos (sub_pos.mpr hhigh)).symm
    · exact (Int.sign_eq_neg_one_of_neg (sub_neg.mpr hlow)).symm
  · obtain ⟨m, e, ha, -⟩ := fdec_of_finite hafin
    obtain ⟨hlow, hhigh⟩ := value32_of_finite_bounds hafin
    rw [fdec_of_infinity hbinf, ha, value32_of_infinity hbinf]
    refine congrArg some ?_
    cases b.getLsbD 31
    · exact (Int.sign_eq_neg_one_of_neg (sub_neg.mpr hhigh)).symm
    · exact (Int.sign_eq_one_of_pos (sub_pos.mpr hlow)).symm
  · obtain ⟨m, e, ha, he, hvala⟩ := fdec_of_finite hafin
    obtain ⟨n, f, hb, hf, hvalb⟩ := fdec_of_finite hbfin
    rw [ha, hb, cmpV_fin_fin _ _ _ _ he hf, hvala, hvalb]

/-- A pattern with a rational value is finite, and the value is its multiple of 2^-149. -/
theorem ratOf_fdec {a : Word} {x : ℚ} (h : ratOf (fdec fmtF32 a.toNat) = some x) : x = value32 a * 2 ^ (-149 : Int) := by
  obtain hnan | hinf | hfin := lt_trichotomy 0x7F800000 (a.toNat % 2 ^ 31)
  · rw [fdec_of_isNaN32 hnan] at h
    cases h
  · rw [fdec_of_infinity hinf.symm] at h
    cases h
  · obtain ⟨m, e, hdec, he, hval⟩ := fdec_of_finite hfin
    rw [hdec] at h
    obtain rfl := Option.some.inj h
    obtain ⟨k, rfl⟩ : ∃ k : Nat, e = k - 149 := ⟨(e + 149).toNat, by omega⟩
    have hexp : ((k : Int) - 149 - -149).toNat = k := by omega
    rw [← hval, alignInt, hexp, sub_eq_add_neg, zpow_add₀ two_ne_zero, zpow_natCast]
    split <;> push_cast <;> ring

theorem rank32_lt_of_ratOf_lt {a b : Word} {x y : ℚ} (hx : ratOf (fdec fmtF32 a.toNat) = some x)
    (hy : ratOf (fdec fmtF32 b.toNat) = some y) (hxy : x < y) : rank32 a < rank32 b := by
  rw [ratOf_fdec hx, ratOf_fdec hy] at hxy
  have hunit : (0 : ℚ) < 2 ^ (-149 : Int) := by positivity
  exact (rank32_lt_iff a b).mpr (.inl (by exact_mod_cast lt_of_mul_lt_mul_right hxy hunit.le))

/-! ## FMIN and FMAX -/

/-- R24: a NaN is a signalling one where bit 22, the first of its fraction, is clear. -/
theorem sigFlag_fdec (a : Word) :
    sigFlag (fdec fmtF32 a.toNat) = if isNaN32 a ∧ a.getLsbD 22 = false then flNV else 0 := by
  by_cases ha : isNaN32 a
  · rw [fdec_of_isNaN32 ha]
    cases a.getLsbD 22 <;> simp only [ha, true_and, if_true, Bool.true_eq_false, if_false] <;> rfl
  · rw [if_neg fun h => ha h.1]
    cases hx : fdec fmtF32 a.toNat with
    | nan g => exact absurd hx (fdec_ne_nan ha g)
    | inf neg => rfl
    | fin neg m e => rfl

theorem fminmax_flags (lo : Bool) (a b : Word) : (fminmax lo a b).2 =
    if isNaN32 a ∧ a.getLsbD 22 = false ∨ isNaN32 b ∧ b.getLsbD 22 = false then flNV else 0 := by
  have hflags : (fminmax lo a b).2 = sigFlag (fdec fmtF32 a.toNat) ||| sigFlag (fdec fmtF32 b.toNat) := by
    simp only [fminmax]
    split <;> rfl
  rw [hflags, sigFlag_fdec, sigFlag_fdec]
  by_cases ha : isNaN32 a ∧ a.getLsbD 22 = false
  · rw [if_pos ha, if_pos (Or.inl ha)]
    split <;> rfl
  · simp only [ha, false_or, if_false, Nat.zero_or]

theorem fminmax_nan_nan (lo : Bool) {a b : Word} (ha : isNaN32 a) (hb : isNaN32 b) : (fminmax lo a b).1 = 0x7FC00000 := by
  simp only [fminmax, fdec_of_isNaN32 ha, fdec_of_isNaN32 hb]
  rfl

theorem fminmax_nan_number (lo : Bool) {a b : Word} (ha : isNaN32 a) (hb : ¬ isNaN32 b) : (fminmax lo a b).1 = b.toNat := by
  simp only [fminmax, fdec_of_isNaN32 ha]
  cases hy : fdec fmtF32 b.toNat with
  | nan g => exact absurd hy (fdec_ne_nan hb g)
  | inf neg => rfl
  | fin neg m e => rfl

theorem fminmax_number_nan (lo : Bool) {a b : Word} (ha : ¬ isNaN32 a) (hb : isNaN32 b) : (fminmax lo a b).1 = a.toNat := by
  simp only [fminmax, fdec_of_isNaN32 hb]
  cases hx : fdec fmtF32 a.toNat with
  | nan g => exact absurd hx (fdec_ne_nan ha g)
  | inf neg => rfl
  | fin neg m e => rfl

/-- Between two numbers the model's choice turns on whether the first one ranks strictly lower. -/
theorem fminmax_numbers (lo : Bool) {a b : Word} (ha : ¬ isNaN32 a) (hb : ¬ isNaN32 b) :
    (fminmax lo a b).1 = if decide (rank32 a < rank32 b) = lo then a.toNat else b.toNat := by
  have hless : (decide ((value32 a - value32 b).sign < 0) ||
      (decide ((value32 a - value32 b).sign = 0) && a.getLsbD 31 && !b.getLsbD 31)) = decide (rank32 a < rank32 b) := by
    rw [Bool.eq_iff_iff, decide_eq_true_eq, rank32_lt_iff]
    simp [sub_eq_zero, and_assoc]
  simp only [fminmax, cmpV_fdec ha hb, hless]
  split
  case h_1 hx _ => exact absurd hx (fdec_ne_nan ha _)
  case h_2 hx _ => exact absurd hx (fdec_ne_nan ha _)
  case h_3 hy _ => exact absurd hy (fdec_ne_nan hb _)
  case h_4 => rfl

/-- Numbers of one rank are one pattern, so it does not matter which of them is chosen. -/
theorem fmin_numbers {a b : Word} (ha : ¬ isNaN32 a) (hb : ¬ isNaN32 b) :
    (fminmax true a b).1 = (if rank32 a ≤ rank32 b then a else b).toNat := by
  simp only [fminmax_numbers true ha hb, decide_eq_true_eq]
  obtain hlt | heq | hgt := lt_trichotomy (rank32 a) (rank32 b)
  · rw [if_pos hlt, if_pos hlt.le]
  · rw [rank32_injective heq, ite_self, ite_self]
  · rw [if_neg hgt.not_gt, if_neg hgt.not_ge]

theorem fmax_numbers {a b : Word} (ha : ¬ isNaN32 a) (hb : ¬ isNaN32 b) :
    (fminmax false a b).1 = (if rank32 a ≤ rank32 b then b else a).toNat := by
  simp only [fminmax_numbers false ha hb, decide_eq_false_iff_not]
  obtain hlt | heq | hgt := lt_trichotomy (rank32 a) (rank32 b)
  · rw [if_neg (not_not.mpr hlt), if_pos hlt.le]
  · rw [rank32_injective heq, ite_self, ite_self]
  · rw [if_pos hgt.not_gt, if_neg hgt.not_ge]

theorem exec_fmin (c w : Bool) (d : BitVec 6) (a b : BitVec 7) (p : BitVec 3) (s : State) :
    exec (.fmin c w d a b p) s = execFmin c w d a b p s := rfl

theorem exec_fmax (c w : Bool) (d : BitVec 6) (a b : BitVec 7) (p : BitVec 3) (s : State) :
    exec (.fmax c w d a b p) s = execFmax c w d a b p s := rfl

theorem fresult_eq_putF (th : Thread) (w : Bool) (d : BitVec 6) (r : Nat × Nat) : th.fresult w d.toNat r = putF w d r th :=
  result_eq_put (th.orFlags r.2) w d (BitVec.ofNat 32 r.1)

/-- FMIN and FMAX are words on their own thread. -/
theorem fminmaxWord_eachThread {i : Instr} {s : State} (h : Issuing i s) (lo w : Bool) (d : BitVec 6) (a b : BitVec 7)
    (p : BitVec 3) : ∃ t, aluWord i p (fun th => th.fresult w d.toNat (fminmax lo (th.fsrc a) (th.fsrc b))) s = .next t ∧
      EachThread s t (guarded p fun th => putF w d (fminmax lo (th.fsrc a) (th.fsrc b)) th) := by
  simp only [fresult_eq_putF]
  exact aluWord_eachThread h p _

/-- Settles O10: patterns without sign are in the order of their values, so comparing two numbers compares their ranks; the
NaN cases and the flags are read off what the operands decode to. -/
theorem minMaxChooseAnOperand : Obligations.MinMaxChooseAnOperand := by
  unfold Obligations.MinMaxChooseAnOperand
  refine ⟨fun lo a b => ⟨fminmax_nan_nan lo, fminmax_nan_number lo, fminmax_number_nan lo, ?_, ?_, fminmax_flags lo a b⟩,
    fun a b x y => rank32_lt_of_ratOf_lt, fun c w d a b p s => ⟨fun h => ?_, fun h => ?_⟩⟩
  · rintro ha hb rfl
    exact fmin_numbers ha hb
  · rintro ha hb rfl
    exact fmax_numbers ha hb
  · rw [exec_fmin]
    exact fminmaxWord_eachThread h true w d a b p
  · rw [exec_fmax]
    exact fminmaxWord_eachThread h false w d a b p

end Sys2Proof.Proofs
end
